-- ==== Sys2Proof/Word.lean ====
section
/-! DEFINITION. The plainest shared types: a byte, and a reticle identity as a list of symbols.
The K64 is a controller of commands and tables: it has no machine word, and its numbers are counts, kept as `Nat`. -/

namespace Sys2Proof

/-- A byte of a frame or of the stored image. -/
abbrev Byte := BitVec 8

/-- A reticle identity as it is carried: one character code per symbol (11_formats.md, Field encodings).
A well-formed one has 12 symbols (R21). -/
abbrev RetId := List Byte

end Sys2Proof
end

