-- ==== Sys2Proof/Syntax.lean ====
section
/-! DEFINITION. The commands: one constructor of `Instr` for each row of spec/opcode_table.json, with the
operands its rule names (chapters 1 to 11). A number is the value the field carries before any range check,
so that a command out of range can be written and is refused as its rule says; `WellFormed` says which
numbers fit the fields of 11_formats.md. -/

namespace Sys2Proof

/-- The robots, A at the low end of the rail and B at the high end. -/
inductive Side where
  | a | b
  deriving DecidableEq, Repr

/-- The interlock lines (R183). -/
inductive Line where
  | enclosure | stop
  deriving DecidableEq, Repr

/-- Kinds of stocker node in the order of their codes (R149, 11_formats.md). -/
inductive NodeKind where
  | none | robot | port | manifold | shelf
  deriving DecidableEq, Repr

/-- The hold reasons in the order of their bits (R38). -/
inductive HoldReason where
  | operator | exposure | mismatch
  deriving DecidableEq, Repr

/-- What a reader found (R28): no pod, a pod with an identity, or a pod that could not be read. -/
inductive Read where
  | empty
  | id (x : RetId)
  | unreadable
  deriving DecidableEq, Repr

/-- How QUERY_RETICLE names its record (R43, selector byte of 11_formats.md). -/
inductive RetSel where
  | byId (x : RetId)
  | byNumber (n : Nat)
  | next (n : Nat)
  deriving DecidableEq, Repr

/-- How QUERY_MOVE names its move (R135): by number, or the next one above an admission sequence. -/
inductive MoveSel where
  | byNumber (n : Nat)
  | next (seq : Nat)
  deriving DecidableEq, Repr

/-- One step of a DELIVER request: a reticle and its use duration in minutes (R87). -/
structure DStep where
  id : RetId
  d  : Nat
  deriving DecidableEq, Repr

/-- A destination as a request gives it: a number, or ANY. -/
inductive Dest where
  | slot (n : Nat)
  | any
  deriving DecidableEq, Repr

/-- An optional argument behind its presence byte (11_formats.md): absent, given, or behind a byte that is neither 0 nor
1, which its owner refuses (R193). -/
inductive OptArg (α : Type) where
  | absent
  | given (a : α)
  | bad
  deriving DecidableEq, Repr

/-- One step of a RETURN request: a destination and perhaps an expected identity (R88). -/
structure RStep where
  dest   : Dest
  expect : Option RetId
  deriving DecidableEq, Repr

/-- The flags of DELIVER and RETURN: ON_LIMIT (STOP or SKIP), EXPRESS and CONTINUE (R87). -/
structure JobFlags where
  stop    : Bool
  express : Bool
  cont    : Option Nat
  deriving DecidableEq, Repr

/-- The arguments of SET_WATCH (R139). The kind, qualifier and enable are codes, since a value that is none
of them is refused: kind 0 RETICLE, 1 RANGE, 2 PORT; qualifier 0 BEFORE, 1 AFTER, 2 BOTH; enable 0 OFF,
1 GLOBAL, 2 JOB. Only the match value of the kind given is used. -/
structure WatchArgs where
  kind   : Nat
  id     : RetId
  base   : Nat
  len    : Nat
  port   : Nat
  qual   : Nat
  enable : Nat
  job    : Nat
  deriving DecidableEq, Repr

/-- A port node's service request (R82). -/
inductive SvcReq where
  | ready
  | returnWaiting (read : Read) (kind : Nat)
  | lastNeeded
  deriving DecidableEq, Repr

/-- The snapshot of a roll-call answer, by kind of node (R154). A manifold's is its channel count, which
stands among the capabilities. -/
inductive Snapshot where
  | robot (span : Nat) (hand : Read) (kind : Nat)
  | port (position : Read) (kind : Nat)
  | manifold
  | shelf (present : List Bool)
  deriving DecidableEq, Repr

/-- The answer to a ROLL_CALL: kind, identity, capabilities and snapshot (R152 to R154). -/
structure RollAnswer where
  kind     : NodeKind
  identity : Nat
  side     : Side
  express  : Bool
  channels : Nat
  snapshot : Snapshot
  deriving DecidableEq, Repr

/-- The reports of a node (R157, order and report kinds of 11_formats.md). -/
inductive Report where
  | nothing
  | rollAnswer (a : RollAnswer)
  | picked (move : Nat) (read : Read) (kind : Nat)
  | placed (move : Nat) (ok : Bool)
  | scanned (move : Nat) (read : Read) (kind : Nat)
  | position (span : Nat)
  | purgeDone (channel pass : Nat) (ok : Bool)
  | sealFault (slot : Nat)
  | serviceRequest (r : SvcReq)
  | taken (x : RetId)
  | withdrawn (x : RetId)
  | presence (slot : Nat) (present : Bool)
  /-- A report of the report table whose payload is not one of its kind, or carries a code of no set (R192). -/
  | malformed (kind : Nat)
  deriving DecidableEq, Repr

/-- The data an answer carries for the order it acknowledges (R156): none, the answer to HAND_SNAPSHOT, or
other bytes. -/
inductive AnswerData where
  | none
  | hand (span : Nat) (read : Read) (kind : Nat)
  | bytes (b : List Byte)
  deriving DecidableEq, Repr

/-- One good answer of the addressed node: its report toggle, the data of the order it acknowledges, and its
report (R155 to R157). -/
structure Answer where
  toggle : Bool
  data   : AnswerData
  report : Report
  deriving DecidableEq, Repr

/-- The commands. Requests and pass-through frames carry the tag the cell controller chose (R167). -/
inductive Instr where
  /-- COLD_START (R190): power-on, with the levels at which the two lines are found. -/
  | coldStart (enclosure stop : Bool)
  /-- SOFT_RESET (R191). -/
  | softReset (tag : Nat)
  /-- GET_STATUS without its clear option (R170). -/
  | getStatus (tag : Nat)
  /-- GET_STATUS with its clear option (R170). -/
  | getStatusClear (tag : Nat)
  /-- QUERY_LOCATION (R18). -/
  | queryLocation (tag loc : Nat)
  /-- QUERY_RETICLE (R43). -/
  | queryReticle (tag : Nat) (sel : RetSel)
  /-- QUERY_ZONE (R79). -/
  | queryZone (tag zone : Nat)
  /-- QUERY_JOB (R108). -/
  | queryJob (tag job : Nat)
  /-- QUERY_PORT (R108). -/
  | queryPort (tag port : Nat)
  /-- QUERY_MOVE (R135). -/
  | queryMove (tag : Nat) (sel : MoveSel)
  /-- QUERY_ROBOT (R135): 0 is robot A, 1 robot B. -/
  | queryRobot (tag robot : Nat)
  /-- QUERY_WATCH (R147). -/
  | queryWatch (tag : Nat)
  /-- QUERY_NODE (R161). -/
  | queryNode (tag addr : Nat)
  /-- DECLARE (R25); the location is encoded as in 11_formats.md, 1000 + p for SCANNER(p). -/
  | declare (tag : Nat) (id : RetId) (cls kind : Nat) (e : OptArg Nat) (loc : Nat)
  /-- RETIRE (R27). -/
  | retire (tag : Nat) (id : RetId)
  /-- HOLD (R38). -/
  | hold (tag : Nat) (id : RetId)
  /-- UNHOLD (R38); with no reason named it clears OPERATOR. -/
  | unhold (tag : Nat) (id : RetId) (reason : OptArg Nat)
  /-- CLEAR_FAULT of a slot (R11); `none` stands behind a subject code that names neither a slot nor a zone (R193). -/
  | clearFault (tag : Nat) (slot : Option Nat)
  /-- CLEAR_FAULT of a zone (R78). -/
  | clearFaultZone (tag zone : Nat)
  /-- SCAN_RANGE (R36). -/
  | scanRange (tag first count : Nat)
  /-- CANCEL_SCAN (R36). -/
  | cancelScan (tag : Nat)
  /-- SET_EXPOSURE (R57). -/
  | setExposure (tag : Nat) (id : RetId) (e : Nat)
  /-- DELIVER (R87). -/
  | deliver (tag port : Nat) (steps : List DStep) (flags : JobFlags)
  /-- RETURN (R88). -/
  | returnJob (tag port : Nat) (steps : List RStep) (flags : JobFlags)
  /-- CANCEL_JOB (R91). -/
  | cancelJob (tag job : Nat)
  /-- MASK_PORT (R84). -/
  | maskPort (tag port : Nat)
  /-- UNMASK_PORT (R84). -/
  | unmaskPort (tag port : Nat)
  /-- RELOCATE (R133). -/
  | relocate (tag : Nat) (id : RetId) (dest : Dest)
  /-- RECOVER_ROBOT (R132): 0 is robot A, 1 robot B. -/
  | recoverRobot (tag robot : Nat)
  /-- SET_WATCH (R139). -/
  | setWatch (tag index : Nat) (args : WatchArgs)
  /-- RELEASE_MOVE (R144). -/
  | releaseMove (tag move : Nat)
  /-- CANCEL_MOVE (R145). -/
  | cancelMove (tag move : Nat)
  /-- CLEAR_WATCH_FLAGS (R147). -/
  | clearWatchFlags (tag : Nat)
  /-- BUS_RESET (R160). -/
  | busReset (tag : Nat)
  /-- LOAD_OPEN (R173); the table is its code. -/
  | loadOpen (tag table : Nat)
  /-- LOAD_ENTRY (R173); the entry is the bytes its table entry occupies in the image (11_formats.md). -/
  | loadEntry (tag table index : Nat) (entry : List Byte)
  /-- LOAD_COMMIT (R175). -/
  | loadCommit (tag table : Nat)
  /-- LOAD_DISCARD (R173). -/
  | loadDiscard (tag : Nat)
  /-- STORE_IMAGE (R187). -/
  | storeImage (tag : Nat)
  /-- RELOAD_IMAGE (R188). -/
  | reloadImage (tag : Nat)
  /-- RESTORE_DEFAULTS (R189). -/
  | restoreDefaults (tag : Nat)
  /-- ENTER_MAINTENANCE (R179). -/
  | enterMaintenance (tag : Nat)
  /-- EXIT_MAINTENANCE (R179). -/
  | exitMaintenance (tag : Nat)
  /-- ENTER_STANDALONE (R180). -/
  | enterStandalone (tag : Nat)
  /-- EXIT_STANDALONE (R182). -/
  | exitStandalone (tag abortPasses : Nat)
  /-- FORCE_FAIL_SAFE (R184). -/
  | forceFailSafe (tag : Nat)
  /-- EXIT_FAIL_SAFE (R186). -/
  | exitFailSafe (tag : Nat)
  /-- A good frame for node address 0 of unknown kind, of a frame class other than a request, or whose
  payload does not fit its kind (R167, R192, R193), with the kind byte it carries. -/
  | unknownRequest (tag kind : Nat)
  /-- A pass-through MOVE_LEG (R134, R171): node address, source, destination and pod kind. -/
  | passThroughMoveLeg (tag addr src dst kind : Nat)
  /-- Any other pass-through order (R171, R172): node address, order kind code and the order's payload. -/
  | passThroughOrder (tag addr kind : Nat) (payload : List Byte)
  /-- An upstream frame that fails its check (R164). -/
  | frameCheckFailed
  /-- A good frame that finds 4 replies awaiting transmission (R164). -/
  | replyOverrun
  /-- The line signal appears (R163). -/
  | lineSignalUp
  /-- The line signal is lost (R166). -/
  | lineSignalLost
  /-- An ABORT symbol, fewer than five in a row (R163). -/
  | abortSymbol
  /-- Five consecutive ABORT symbols (R163). -/
  | abortResync
  /-- The frame in transmission upstream is finished (R166). -/
  | frameTransmitted
  /-- The link silence timer expires (R165). -/
  | linkSilenceExpiry
  /-- The node addressed answers the exchange in progress (R155). -/
  | exchangeAnswered (answer : Answer)
  /-- The answer window of the exchange in progress expires without a good answer (R155, R158). -/
  | exchangeUnanswered
  /-- The ROLL_RETRY timer expires (R159). -/
  | rollRetryExpiry
  /-- MOVE_TIMEOUT of the dispatched move of this number expires (R130). -/
  | moveTimeoutExpiry (move : Nat)
  /-- The yield or park travel of this robot expires (R120). -/
  | yieldExpiry (robot : Side)
  /-- The pass timer of this zone expires (R72). -/
  | passTimerExpiry (zone : Nat)
  /-- The interval timer of this zone expires (R63). -/
  | intervalExpiry (zone : Nat)
  /-- The wait of the WAITING step of this job expires (R95). -/
  | stepWaitExpiry (job : Nat)
  /-- The image write ends, read back correctly or failed (R187). -/
  | imageWriteDone (ok : Bool)
  /-- The sampled level of an interlock line becomes this one (R183). -/
  | interlockLineChange (line : Line) (active : Bool)
  deriving DecidableEq, Repr

end Sys2Proof
end

