-- ==== Sys2Proof/Config.lean ====
section
/-! DEFINITION. What is fixed for the part: the capacities of 00_scope.md ("Capacities and configuration
quantities"), and the one free value, which the spec leaves open and nothing here constrains. -/

namespace Sys2Proof.Config

/-- Shelf slots are 0..959 (R1). -/
abbrev slots : Nat := 960
/-- Locations are 0..969 (R1). -/
abbrev locations : Nat := 970
/-- Slots of one column or zone: column = slot div 60. -/
abbrev perColumn : Nat := 60
/-- Columns, and so zones (R59). -/
abbrev zones : Nat := 16
/-- Load ports (R81). -/
abbrev ports : Nat := 8
/-- Reticle records (R21). -/
abbrev records : Nat := 1024
/-- The job pool (R85). -/
abbrev jobs : Nat := 16
/-- Jobs queued or active at one port (R85). -/
abbrev jobsPerPort : Nat := 4
/-- Entries of a request window (R81). -/
abbrev windowSize : Nat := 2
/-- Entries of the move list (R111). -/
abbrev moveList : Nat := 24
/-- Entries kept free of RELOCATE, SCAN and MANUAL moves (R111). -/
abbrev moveReserve : Nat := 8
/-- Entries of the notice queue (R169). -/
abbrev noticeQueue : Nat := 32
/-- Entries of the node roster (R151). -/
abbrev rosterSize : Nat := 48
/-- Pass-through orders one node's queue holds (R156). -/
abbrev passThroughs : Nat := 4
/-- Replies awaiting transmission (R166). -/
abbrev replies : Nat := 4
/-- Unanswered exchanges that make a PRESENT node LOST (R158). -/
abbrev missLimit : Nat := 3

/-- FREE VALUE (assumption 1). The bytes the nonvolatile image holds after a write that failed, or that a
power failure cut: R187 says only that such an image "may now fail its check". The argument numbers the
occasions, so that two of them need not leave the same bytes. Nothing constrains the result. -/
opaque brokenImage : Nat → List Byte

end Sys2Proof.Config
end

