-- ==== Sys2Proof/Machine/Store.lean ====
section
/-! DEFINITION. Sparse tables: a list of (key, value) pairs in one canonical form, keys strictly rising. A table
with a default value lists no entry equal to it, so that equal tables are equal lists. -/

namespace Sys2Proof.Machine

/-- A table keyed by number. -/
abbrev Store (α : Type) := List (Nat × α)

/-- The entry listed for a key. -/
def Store.find {α : Type} : Store α → Nat → Option α
  | [], _ => none
  | (j, v) :: t, k => if j = k then some v else Store.find t k

/-- The table with `v` at key `k`, in its place by key. -/
def Store.put {α : Type} : Store α → Nat → α → Store α
  | [], k, v => [(k, v)]
  | (j, w) :: t, k, v =>
    if k < j then (k, v) :: (j, w) :: t
    else if k = j then (k, v) :: t
    else (j, w) :: Store.put t k v

/-- The table without key `k`. -/
def Store.erase {α : Type} : Store α → Nat → Store α
  | [], _ => []
  | (j, w) :: t, k => if j = k then t else (j, w) :: Store.erase t k

/-- What a table with default `d` holds at a key. -/
def Store.getD {α : Type} (d : α) (m : Store α) (k : Nat) : α :=
  (Store.find m k).getD d

/-- Writing a table with default `d`: the default is not listed. -/
def Store.setD {α : Type} [DecidableEq α] (d : α) (m : Store α) (k : Nat) (v : α) : Store α :=
  if v = d then Store.erase m k else Store.put m k v

/-- The keys rise strictly. -/
def Store.rising {α : Type} : Store α → Bool
  | [] => true
  | [_] => true
  | (j, _) :: (k, w) :: t => j < k && Store.rising ((k, w) :: t)

/-- The canonical form of a table with default `d`. -/
def Store.wf {α : Type} [DecidableEq α] (d : α) (m : Store α) : Bool :=
  Store.rising m && m.all fun kv => kv.2 ≠ d

/-- The lowest key from `k` up that the table does not list (its keys rising): the lowest free number. -/
def Store.lowestFree {α : Type} : Store α → Nat → Nat
  | [], k => k
  | (j, _) :: t, k => if j < k then Store.lowestFree t k else if j = k then Store.lowestFree t (k + 1) else k

end Sys2Proof.Machine
end

