-- ==== Sys2Proof/Machine/State.lean ====
section
/-! DEFINITION. The state of the K64, block by block (00_scope.md, Blocks), as plain data, and the state right
after reset. `Part` is what the nine blocks hold; `State` puts the notice queue, the link and the queue of
waiting commands beside it. Views the spec names that follow from other fields (a record's verified flag, the
zone state, the protective, closed and wanting indications, the slot-fault summaries, a port's suspension) are
computed from them in Machine/Ops.lean and Machine/Flags.lean, so that no two copies can disagree. -/

namespace Sys2Proof.Machine

/-! ### Codes -/

/-- The five operating modes (R177). -/
inductive Mode where
  | start | normal | maintenance | standalone | failSafe
  deriving DecidableEq, Repr

/-- Result codes, in the order of their values (R168, 11_formats.md). -/
inductive Result where
  | ok | clamped | badRequest | badIndex | badLength | unknownReticle | duplicateId | tableFull | noPort
  | noJobSpace | portQueueFull | noSlot | noRobot | wrongState | wrongMode | busy | windowBusy | noWindow
  | commitRefused | notHeld | filtered | interlockActive
  deriving DecidableEq, Repr

/-- The seven configuration tables, in the order of their codes (R172, 11_formats.md). -/
inductive TableId where
  | slotMap | port | zone | cls | limits | plan | filter
  deriving DecidableEq, Repr

/-! ### The seven configuration tables -/

/-- A slot map entry (R2). -/
structure SlotCfg where
  enabled : Bool
  offset  : Nat
  kinds   : BitVec 4
  deriving DecidableEq, Repr

/-- The default slot map entry (R2). -/
def SlotCfg.default : SlotCfg := ⟨true, 0, 15⟩

/-- A port table entry (R3); `directed` is the return policy. -/
structure PortCfg where
  inPlan   : Bool
  column   : Nat
  directed : Bool
  kinds    : BitVec 4
  deriving DecidableEq, Repr

/-- The default port table entry (R3). -/
def PortCfg.default : PortCfg := ⟨false, 0, false, 15⟩

/-- A zone entry of the zone table (R60). -/
structure ZoneCfg where
  enabled  : Bool
  manifold : Nat
  channel  : Nat
  deriving DecidableEq, Repr

/-- The default zone entry (R60). -/
def ZoneCfg.default : ZoneCfg := ⟨false, 0, 0⟩

/-- The scheduling entry of the zone table, entry 16 (R60): minutes, seconds and passes. -/
structure SchedCfg where
  tInt        : Nat
  purgeMax    : Nat
  concurrency : Nat
  deriving DecidableEq, Repr

/-- The zone table (R60). -/
structure ZoneTable where
  zones : Store ZoneCfg
  sched : SchedCfg
  deriving DecidableEq, Repr

/-- A class table entry: OUT_RATE and PURGE_CREDIT (R50). -/
structure ClassCfg where
  rate   : Nat
  credit : Nat
  deriving DecidableEq, Repr

/-- The limits table (R174). -/
structure Limits where
  eWarn        : Nat
  eHold        : Nat
  manualPort   : Option Nat
  disableA     : Bool
  disableB     : Bool
  clearSpans   : Nat
  moveTimeout  : Nat
  stepWaitMax  : Nat
  rollRetry    : Nat
  linkSilence  : Nat
  standaloneOnSilence : Bool
  deriving DecidableEq, Repr

/-- A node plan entry (R149). The assignment is a side (0 A, 1 B), a port or a column. -/
structure PlanEntry where
  kind       : NodeKind
  identity   : Nat
  assignment : Nat
  deriving DecidableEq, Repr

/-- The default node plan entry: not planned (R149). -/
def PlanEntry.default : PlanEntry := ⟨.none, 0, 0⟩

/-- A forwarding filter entry: its columns for NORMAL and MAINTENANCE (R171). -/
structure FilterCfg where
  normal      : Bool
  maintenance : Bool
  deriving DecidableEq, Repr

/-- The seven tables. -/
structure Tables where
  slotMap : Store SlotCfg
  ports   : Store PortCfg
  zone    : ZoneTable
  classes : List ClassCfg
  limits  : Limits
  plan    : Store PlanEntry
  filter  : List FilterCfg
  deriving DecidableEq, Repr

/-- The default tables (R189). -/
def Tables.default : Tables where
  slotMap := []
  ports   := []
  zone    := ⟨[], ⟨20, 240, 2⟩⟩
  classes := [⟨4, 600⟩, ⟨8, 500⟩, ⟨12, 400⟩, ⟨20, 300⟩]
  limits  := ⟨4000, 5000, none, false, false, 1, 120, 900, 10, 30, false⟩
  plan    := []
  filter  := [⟨false, true⟩, ⟨false, false⟩, ⟨false, false⟩, ⟨false, false⟩, ⟨false, false⟩, ⟨false, false⟩,
              ⟨false, false⟩]

/-- A copy of one table, as the load window edits it (R173). -/
inductive Shadow where
  | slotMap (t : Store SlotCfg)
  | port (t : Store PortCfg)
  | zone (t : ZoneTable)
  | cls (t : List ClassCfg)
  | limits (t : Limits)
  | plan (t : Store PlanEntry)
  | filter (t : List FilterCfg)
  deriving DecidableEq, Repr

/-- The open load window: the shadow and its generation (R173). -/
structure Window where
  shadow : Shadow
  gen    : Nat
  deriving DecidableEq, Repr

/-! ### The Inventory -/

/-- Occupancy of a location (R5). OCCUPIED and OUTBOUND carry the verified flag. FOREIGN carries the pod kind
last reported for that pod, which R14 uses for a pod with no record (assumption 9). -/
inductive Occ where
  | unknown
  | vacant
  | occupied (n : Nat) (verified : Bool)
  | foreign (kind : Nat)
  | inbound (n : Nat)
  | outbound (n : Nat) (verified : Bool)
  deriving DecidableEq, Repr

/-- The pod-present hint of a slot (R6). -/
inductive Hint where
  | missing | present | absent
  deriving DecidableEq, Repr

/-- The three latched fault flags of a slot (R9). -/
structure SlotFlags where
  conflict : Bool
  mismatch : Bool
  sealed   : Bool
  deriving DecidableEq, Repr

/-- No flag set. -/
def SlotFlags.clear : SlotFlags := ⟨false, false, false⟩

/-- The names of the three flags, in the order of R9. -/
inductive SlotFlag where
  | conflict | mismatch | sealed
  deriving DecidableEq, Repr

/-- Where a reticle record says its reticle is (R22). -/
inductive Place where
  | loc (n : Nat)
  | scanner (port : Nat)
  | none
  deriving DecidableEq, Repr

/-- The nine states of a record, in the order of their codes (R23). -/
inductive RState where
  | idle | reserved | inTransit | presented | withdrawing | out | returned | inDoubt | lost
  deriving DecidableEq, Repr

/-- A reticle record (R22). The three hold reasons are three flags, the unprotected-since stamp is present
exactly while the reticle is unprotected (R44), the job reference is a job number and a step counted from 0. -/
structure Rec where
  id       : RetId
  cls      : Nat
  kind     : Nat
  place    : Place
  state    : RState
  operator : Bool
  exposure : Bool
  mismatch : Bool
  e        : Nat
  frac     : Nat
  stamp    : Option Nat
  job      : Option (Nat × Nat)
  deriving DecidableEq, Repr

/-- The scan cursor (R36): active or not, the range asked for, the next slot and remaining count, and the
scans admitted. -/
structure Cursor where
  active    : Bool
  first     : Nat
  count     : Nat
  next      : Nat
  remaining : Nat
  admitted  : Nat
  deriving DecidableEq, Repr

/-- What the Inventory holds: occupancies of locations 0..969, hints and flags of slots 0..959 (R1), the
Reticle Table (R21), the rescan queue (R35) and the scan cursor (R36). -/
structure Inventory where
  occ    : Store Occ
  hints  : Store Hint
  flags  : Store SlotFlags
  recs   : Store Rec
  rescan : List Nat
  cursor : Cursor
  deriving DecidableEq, Repr

/-! ### The Purge Scheduler -/

/-- A pass in progress: its number, the part time of its issue and its limit (R59). -/
structure Pass where
  number : Nat
  issued : Nat
  limit  : Nat
  deriving DecidableEq, Repr

/-- A zone record (R59). The interval timer is its expiry part time, absent while stopped. -/
structure Zone where
  b            : Int
  timer        : Option Nat
  pass         : Option Pass
  nextPass     : Nat
  overdue      : Bool
  failures     : Nat
  supplyFault  : Bool
  overrunFlag  : Bool
  failedFlag   : Bool
  mark         : Bool
  deriving DecidableEq, Repr

/-- A zone record at cold start, its timer apart (R80). -/
def Zone.cold : Zone := ⟨-1, none, none, 0, false, 0, false, false, false, false⟩

/-! ### The Job Engine -/

/-- Job kinds (R85). -/
inductive JobKind where
  | deliver | ret
  deriving DecidableEq, Repr

/-- Job outcomes, in the order of their codes (R85). -/
inductive JobOutcome where
  | done | failed | cancelled | early
  deriving DecidableEq, Repr

/-- Step states, in the order of their codes (R85). -/
inductive StepState where
  | pending | waiting | reserved | moving | presented | ended
  deriving DecidableEq, Repr

/-- Step results, in the order of their codes (R86). -/
inductive StepResult where
  | done | skippedExposure | skippedHold | slotFault | waitTimeout | pickFailed | mismatch | interrupted
  | timedOut | cancelled | skippedEarlyEnd
  deriving DecidableEq, Repr

/-- What a step asks for (R85). -/
inductive StepWork where
  | deliver (id : RetId) (d : Nat)
  | ret (dest : Dest) (expect : Option RetId)
  deriving DecidableEq, Repr

/-- A step of a job (R85). `since` is the part time at which it became WAITING, by which R102 ranks ports. -/
structure Step where
  work   : StepWork
  state  : StepState
  result : Option StepResult
  expiry : Option Nat
  since  : Option Nat
  move   : Option Nat
  deriving DecidableEq, Repr

/-- A job record (R85). It is QUEUED or ACTIVE; an ENDED job's record is freed in the event of its end. -/
structure Job where
  port    : Nat
  kind    : JobKind
  active  : Bool
  steps   : List Step
  stop    : Bool
  express : Bool
  cont    : Option Nat
  early   : Bool
  cancel  : Bool
  deriving DecidableEq, Repr

/-- A kind of entry of a request window (R81). -/
inductive WinKind where
  | ready
  | returnWaiting (read : Read) (kind : Nat)
  | lastNeeded
  deriving DecidableEq, Repr

/-- An entry of a request window, with the part time of its acknowledgment (R81). -/
structure WinEntry where
  kind : WinKind
  time : Nat
  deriving DecidableEq, Repr

/-- The pod of a port return: a record, or FOREIGN with a pod kind (R81). -/
inductive Pod where
  | record (n : Nat)
  | foreign (kind : Nat)
  deriving DecidableEq, Repr

/-- A port return (R81). `noticeSent` is that of the NO_SLOT notice, `waitSent` that of RETURN_WAITING
(assumption 12). -/
structure PortReturn where
  pod        : Pod
  forced     : Bool
  move       : Option Nat
  noticeSent : Bool
  waitSent   : Bool
  deriving DecidableEq, Repr

/-- A port record (R81). -/
structure Port where
  window   : List WinEntry
  masked   : Bool
  express  : Bool
  queue    : List Nat
  active   : Option Nat
  idleSent : Bool
  ret      : Option PortReturn
  deriving DecidableEq, Repr

/-- A port record at cold start (R109). -/
def Port.cold : Port := ⟨[], false, false, [], none, false, none⟩

/-- What the Job Engine holds. `offers` lists, during the enumeration of a warm start, the records that became
RETURNED from an offer at that start, whose returns are forced (R101). -/
structure JobEngine where
  jobs   : Store Job
  ports  : Store Port
  offers : List Nat
  deriving DecidableEq, Repr

/-! ### The Move Scheduler -/

/-- Move kinds (R110). -/
inductive MoveKind where
  | deliver | store | cross | relocate | scan | manual
  deriving DecidableEq, Repr

/-- Move states, in the order of their codes (R111). -/
inductive MoveState where
  | pending | held | dispatched | picked | puttingBack
  deriving DecidableEq, Repr

/-- Causes of a CANCELLED result (R110). A removal by the reader-result rule is one of two, since R32 and R33
end the owning step differently; the pod's retirement (R27) is the last. -/
inductive CancelCause where
  | cancelMove | readMoved | readDisplaced | lostSource | atGrant | hold | cancelled | retired
  deriving DecidableEq, Repr

/-- Move results, in the order of their codes (R110). -/
inductive MoveResult where
  | completed | pickEmpty | pickMismatch | placeOccupied | timedOut | interrupted
  | cancelled (cause : CancelCause)
  deriving DecidableEq, Repr

/-- Who owns a move (R110). A background scan says whether the scan cursor admitted it (R36). Steps are counted
from 0. -/
inductive Owner where
  | step (job step : Nat)
  | portReturn (port : Nat)
  | inventory (cursor : Bool)
  | robot (side : Side)
  | relocate
  | pass (tag : Nat)
  deriving DecidableEq, Repr

/-- A move (R110). `refColumn` is present when the destination was given as ANY. `podKind` is held for
a pod with no record alone. `pickRead` is the mismatched pick read. `dispatched` holds the dispatch time and the
expiry. `ready` is the acknowledgment time of the READY the move served, which R97 restores, and `forced` the
forcedness of the port return the move carries, which R105 hands on. -/
structure Move where
  num        : Nat
  seq        : Nat
  kind       : MoveKind
  robot      : Side
  src        : Option Nat
  dst        : Option Nat
  refColumn  : Option Nat
  reticle    : Option Nat
  podKind    : Option Nat
  owner      : Owner
  state      : MoveState
  express    : Bool
  passed     : Bool
  putBack    : Bool
  pickRead   : Option (Read × Nat)
  dispatched : Option (Nat × Nat)
  ready      : Option Nat
  forced     : Bool
  deriving DecidableEq, Repr

/-- Robot states, in the order of their codes (R115). -/
inductive RobotState where
  | idle | busy | yielding | suspect | disabled | lost
  deriving DecidableEq, Repr

/-- A robot record (R115). `held` is the held interval, `yieldTo` the yield or park target and its expiry.
`rollSpan` is the span reported at the roll-call of the enumeration in progress (R137). -/
structure Robot where
  state    : RobotState
  span     : Option Nat
  held     : Option (Nat × Nat)
  current  : Option Nat
  yieldTo  : Option (Nat × Nat)
  recovery : List Nat
  awaited  : Bool
  rollSpan : Option Nat
  deriving DecidableEq, Repr

/-- A robot record at cold start, not disabled (R137). -/
def Robot.cold : Robot := ⟨.lost, none, none, none, none, [], false, none⟩

/-- What the Move Scheduler holds: the move list, oldest admission first, the number first tried for the next
move, the count of admissions since the start, which is the sequence of the latest (assumption 44), and the robots. -/
structure MoveScheduler where
  moves   : List Move
  nextNum : Nat
  lastSeq : Nat
  robotA  : Robot
  robotB  : Robot
  deriving DecidableEq, Repr

/-! ### The Watch Unit -/

/-- What a watch entry compares a move with (R138). -/
inductive WatchMatch where
  | reticle (id : RetId)
  | range (base len : Nat)
  | port (p : Nat)
  deriving DecidableEq, Repr

/-- The qualifier of a watch entry (R138). -/
inductive WatchQual where
  | before | after | both
  deriving DecidableEq, Repr

/-- The enable of a watch entry (R138). -/
inductive WatchEnable where
  | off | global | job (j : Nat)
  deriving DecidableEq, Repr

/-- A watch entry (R138) with its match flag. -/
structure WatchEntry where
  mtch   : WatchMatch
  qual   : WatchQual
  enable : WatchEnable
  flag   : Bool
  deriving DecidableEq, Repr

/-- A watch entry at cold start (R148). -/
def WatchEntry.cold : WatchEntry := ⟨.range 0 1, .before, .off, false⟩

/-- What the Watch Unit holds: four entries and the last hold (R138). -/
structure WatchUnit where
  entries  : List WatchEntry
  lastHold : Option Nat
  deriving DecidableEq, Repr

/-! ### The Bus Port -/

/-- The coordinates of a location in an order (R121, 11_formats.md). -/
inductive Coord where
  | slot (column face level offset : Nat)
  | port (p column : Nat)
  | hand
  deriving DecidableEq, Repr

/-- The orders that wait in a node's queue (R156). A pass-through order keeps its kind code and payload; a
forwarded HAND_SNAPSHOT is `handSnapshot`. -/
inductive Order where
  | moveLeg (move : Nat) (src dst : Coord)
  | putBack (move : Nat) (src : Coord)
  | scanAt (move : Nat) (loc : Coord)
  | yieldTo (span : Nat)
  | abortMotion
  | handSnapshot
  | purgeStart (channel pass : Nat)
  | purgeAbort (channel : Nat)
  | ack (kind : WinKind)
  | portJob (active : Bool) (job : Nat) (kind : JobKind)
  | portPresent (id : RetId) (kind d : Nat)
  | withdraw (id : RetId)
  | forwarded (kind : Nat) (payload : List Byte)
  deriving DecidableEq, Repr

/-- An order in a queue; a pass-through order carries the tag of its request (R172). -/
structure QOrder where
  order : Order
  pass  : Option Nat
  deriving DecidableEq, Repr

/-- Roster states (R151). -/
inductive NodeState where
  | present | absent | lost | unexpected
  deriving DecidableEq, Repr

/-- Capabilities latched at an enumeration (R153). Each kind of node uses its own. -/
structure Caps where
  express  : Bool
  side     : Side
  channels : Nat
  deriving DecidableEq, Repr

/-- A roster entry (R151). `planCall` marks the pending roll-call as the one of a commit that planned the
address, whose answer is an enumeration answer (R150). -/
structure Node where
  kind     : NodeKind
  identity : Nat
  caps     : Option Caps
  state    : NodeState
  miss     : Nat
  orderTog : Bool
  reportTog : Bool
  queue    : List QOrder
  rollPending : Bool
  planCall : Bool
  answered : Bool
  deriving DecidableEq, Repr

/-- Causes of an enumeration (R152). -/
inductive EnumCause where
  | cold | warm | busReset
  deriving DecidableEq, Repr

/-- An enumeration in progress: its cause and the addresses still to be called after the present one. -/
structure Enumeration where
  cause : EnumCause
  left  : List Nat
  deriving DecidableEq, Repr

/-- What the exchange in progress carries (R155): the head order of the node's queue, a roll-call, a poll. -/
inductive Exchange where
  | order (addr : Nat)
  | rollCall (addr : Nat)
  | poll (addr : Nat)
  deriving DecidableEq, Repr

/-- What the Bus Port holds: the roster, the enumeration and exchange in progress, the addresses of the last
order exchange and the last poll (R155), and the ROLL_RETRY timer's expiry (R159). -/
structure BusPort where
  roster    : Store Node
  enum      : Option Enumeration
  exchange  : Option Exchange
  lastOrder : Nat
  lastPoll  : Nat
  retry     : Option Nat
  deriving DecidableEq, Repr

/-! ### The Mode Controller -/

/-- Causes of a MODE_CHANGE notice (R177). -/
inductive ModeCause where
  | startDone | request | linkSilence | imageBad | enclosure | stop | forced | warmRestart
  deriving DecidableEq, Repr

/-- The set of fail-safe causes (R177). -/
structure FailCauses where
  enclosure : Bool
  stop      : Bool
  forced    : Bool
  imageBad  : Bool
  deriving DecidableEq, Repr

/-- No cause. -/
def FailCauses.none : FailCauses := ⟨false, false, false, false⟩

/-- What the Mode Controller holds (R177). "Start interlock seen" is kept line by line, since R178 names each
line that has been active. -/
structure ModeController where
  mode      : Mode
  ret       : Option Mode
  pending   : Bool
  causes    : FailCauses
  enclosure : Bool
  stop      : Bool
  seenEnclosure : Bool
  seenStop  : Bool
  powerOn   : Bool
  imageBad  : Bool
  fault     : Bool
  deriving DecidableEq, Repr

/-! ### Notices -/

/-- What made a record LOST (R24). -/
inductive LostCause where
  | presence | otherPod | noPod | pickEmpty
  deriving DecidableEq, Repr

/-- Causes of PURGE_FAILED (R72, R75). -/
inductive PassFail where
  | fail | timeout | nodeLost
  deriving DecidableEq, Repr

/-- Causes of MOVE_FAULT (R120, R122, R128, R130 to R132). -/
inductive FaultCause where
  | position | lateReport | timeout | nodeLost | putBackOccupied | handOccupied
  deriving DecidableEq, Repr

/-- The robot reports a MOVE_FAULT can name (R122). -/
inductive RobotReport where
  | picked | placed | scanned | position
  deriving DecidableEq, Repr

/-- Why a load window was discarded (R173). -/
inductive DiscardCause where
  | standalone | busReset
  deriving DecidableEq, Repr

/-- The subject of a notice, by kind (R169; the rule that queues each kind lists its fields). -/
inductive Subject where
  /-- R177; with the fail-safe causes, the return mode of STANDALONE, and after a deferred warm start the
  outcome of the image write (R191). -/
  | modeChange (new old : Mode) (cause : ModeCause) (causes : FailCauses) (ret : Option Mode)
      (written : Option Bool)
  | interlock (line : Line) (active : Bool) (mode : Mode)
  | linkError (overrun : Bool)
  | linkSilent
  | windowDiscarded (table : TableId) (cause : DiscardCause)
  | standaloneCancelled (cause : ModeCause)
  | imageStored (gens : List Nat)
  | imageWriteFailed
  | slotFlag (slot : Nat) (flag : SlotFlag)
  | reticleLost (n : Nat) (id : RetId) (place : Place) (cause : LostCause)
  | reconciled (loc : Nat) (read : Read) (placed : Option Nat) (previous : Option Place)
      (displaced : Option Nat)
  | holdChanged (n : Nat) (reason : HoldReason) (set : Bool) (state : RState)
  | tableFull (loc : Nat) (id : RetId)
  | scanDone (first count admitted : Nat) (cancelled : Bool)
  | heldReticleTaken (n port : Nat) (operator exposure mismatch : Bool)
  | purgeOverrun (zone : Nat)
  | purgeFailed (zone pass : Nat) (cause : PassFail) (count : Nat)
  | purgeLate (addr channel pass : Nat) (ok : Bool)
  | zoneDisabled (zone : Nat) (failure supply : Bool)
  | zoneRestored (zone : Nat)
  | stepResult (job step : Nat) (result : StepResult) (reticle : Option Nat)
  | jobEnded (job port : Nat) (kind : JobKind) (outcome : JobOutcome) (done : Nat)
  | chainBroken (job successor : Nat)
  | noSlot (port : Nat) (pod : Pod)
  | returnWaiting (port : Nat) (pod : Pod)
  | offerDeclined (job step n : Nat)
  | portLate (port : Nat) (taken : Bool) (id : RetId)
  | moveFault (robot : Side) (move : Option Nat) (report : Option RobotReport) (cause : FaultCause)
  | robotRecovered (robot : Side)
  | relocateDone (move : Nat) (n : Option Nat) (src dst : Option Nat) (result : MoveResult)
  /-- PASS_REPORT of a move leg (R110). -/
  | passMove (tag move : Nat) (result : MoveResult)
  /-- PASS_REPORT of an order, with the data of its answer when DELIVERED (R172). -/
  | passOrder (tag addr kind : Nat) (delivered : Bool) (data : AnswerData)
  | watchHold (move : Nat) (kind : MoveKind) (robot : Side) (n : Option Nat) (id : Option RetId)
      (src dst : Option Nat) (owner : Owner) (entries : List Nat)
  | watchSeen (move : Nat) (kind : MoveKind) (robot : Side) (n : Option Nat) (id : Option RetId)
      (src dst : Option Nat) (passed : Bool) (entries : List Nat)
  | nodeLost (addr : Nat) (kind : NodeKind)
  | nodeReturned (addr : Nat) (kind : NodeKind)
  | nodeAbsent (addr : Nat) (kind : NodeKind)
  | nodeMismatch (addr : Nat) (planned : PlanEntry) (kind : NodeKind) (identity : Nat) (side : Side)
  | nodeUnexpected (addr : Nat) (kind : NodeKind) (identity : Nat)
  | enumerationDone (cause : EnumCause) (present absent unexpected : Nat)
  | busReject (addr report : Nat)
  deriving DecidableEq, Repr

/-- The minor kinds (R169). -/
def Subject.minor : Subject → Bool
  | .stepResult .. => true
  | .passMove .. => true
  | .passOrder .. => true
  | .watchSeen .. => true
  | _ => false

/-- A notice: its sequence number, the part time of its event and its subject (R169). -/
structure Notice where
  seq     : Nat
  time    : Nat
  subject : Subject
  deriving DecidableEq, Repr

/-- The notice queue (R169): the notices waiting, the next sequence number, NOTICES_LOST, and the notice in
transmission, which stays at the head until its transmission ends (R166). -/
structure NoticeQueue where
  queue   : List Notice
  next    : Nat
  lost    : Bool
  sending : Option Notice
  deriving DecidableEq, Repr

/-! ### The work left inside one event -/

/-- The signals one block gives another inside an event (R16, R94, R101, R111). -/
inductive Sig where
  /-- The head delivery step of a port is attempted (R94). -/
  | attempt (port : Nat)
  /-- A port's return is handled (R101). -/
  | handle (port : Nat)
  /-- The head return step of a port is attempted (R92, R104). -/
  | returnStep (port : Nat)
  /-- Slot available (R16). -/
  | slotAvailable
  /-- List room, or a robot available (R111). -/
  | room
  /-- A robot has become available or unavailable (R113). -/
  | robots
  /-- A record changed its state, its hold set or its membership in a move (R94). -/
  | reticle (n : Nat)
  deriving DecidableEq, Repr

/-! ### The nine blocks -/

/-- What the blocks hold, the link and the notice queue apart. `out` collects the notices of one event and
`work` its signals; both are the model's own and empty between commands. -/
structure Part where
  now    : Nat
  tables : Tables
  gens   : List Nat
  inv    : Inventory
  zones  : Store Zone
  jobs   : JobEngine
  mv     : MoveScheduler
  watch  : WatchUnit
  bus    : BusPort
  window : Option Window
  ctl    : ModeController
  out    : List Subject
  work   : List Sig
  deriving DecidableEq, Repr

/-! ### Replies -/

/-- The status summary of GET_STATUS (R170). -/
structure Status where
  mode       : Mode
  ret        : Option Mode
  fault      : Bool
  powerOn    : Bool
  imageBad   : Bool
  lost       : Bool
  linkError  : Bool
  enclosure  : Bool
  stop       : Bool
  slotFaults : List Bool
  purgeFaults : List Bool
  robotA     : RobotState
  robotB     : RobotState
  nodeFaults : List Nat
  gens       : List Nat
  scanActive : Bool
  scanNext   : Nat
  scanRemaining : Nat
  rescans    : Nat
  link       : Nat
  notices    : Nat
  nextSeq    : Nat
  window     : Option (TableId × Nat)
  writing    : Bool
  deriving DecidableEq, Repr

/-- The zone states, in the order of their codes (R62). -/
inductive ZoneState where
  | disabled | purging | urgent | due | current
  deriving DecidableEq, Repr

/-- What a reply carries beside its result code; the owning rule of each request says which. -/
inductive Body where
  | none
  /-- GET_STATUS (R170). -/
  | status (s : Status)
  /-- QUERY_LOCATION of a slot (R18). -/
  | slot (cfg : SlotCfg) (occ : Occ) (hint : Hint) (flags : SlotFlags)
  /-- QUERY_LOCATION of a port position (R18). -/
  | position (cfg : PortCfg) (occ : Occ)
  /-- QUERY_LOCATION of a hand (R18). -/
  | handEntry (side : Side) (occ : Occ)
  /-- QUERY_RETICLE: the record, its number and its verified flag (R43). -/
  | reticle (n : Nat) (r : Rec) (verified : Bool)
  /-- QUERY_ZONE (R79): the live entry, the record, the zone state and the derived indications. -/
  | zone (cfg : ZoneCfg) (z : Zone) (state : ZoneState) (closed protective wanting : Bool)
  /-- QUERY_JOB: the record, and whether EXPRESS takes effect (R108). -/
  | job (j : Nat) (r : Job) (expressActs : Bool)
  /-- QUERY_PORT (R108). -/
  | port (r : Port)
  /-- QUERY_MOVE (R135). -/
  | move (m : Move)
  /-- QUERY_ROBOT: the record and the hand occupancy (R135). -/
  | robot (r : Robot) (hand : Occ)
  /-- QUERY_WATCH (R147). -/
  | watch (w : WatchUnit)
  /-- QUERY_NODE (R161). -/
  | node (plan : PlanEntry) (entry : Option Node)
  /-- A record, job or step number, a generation, or the lowest offending index. -/
  | number (n : Nat)
  /-- HOLD and UNHOLD: the record number and the hold reasons after the request (R38). -/
  | holds (n : Nat) (operator exposure mismatch : Bool)
  /-- SET_EXPOSURE: the settled account the write replaced, and the hold reasons after it (R57). -/
  | account (e frac : Nat) (operator exposure mismatch : Bool)
  /-- An admitted move: its number, whether it is HELD, and the destination chosen for ANY (R114, R133). -/
  | admitted (move : Nat) (held : Bool) (dst : Option Nat)
  /-- SET_WATCH: the entry as stored (R139). -/
  | watchEntry (w : WatchEntry)
  /-- LOAD_ENTRY: the entry as stored, in the bytes of its layout (R173). -/
  | entry (b : List Byte)
  /-- RELOAD_IMAGE and RESTORE_DEFAULTS: the new generations (R188). -/
  | gens (g : List Nat)
  /-- RELOAD_IMAGE and RESTORE_DEFAULTS refused: the table and its lowest offending index (R188). -/
  | refused (t : TableId) (index : Nat)
  deriving DecidableEq, Repr

/-- What an owner answers to a request: its result code, EXPRESS_UNAVAILABLE or not, and a payload (R168). -/
structure Rsp where
  result  : Result
  express : Bool
  body    : Body
  deriving DecidableEq, Repr

/-- A reply frame: the address and kind it answers, its tag, and the answer (R166, 11_formats.md). -/
structure Reply where
  addr : Nat
  kind : Nat
  tag  : Nat
  rsp  : Rsp
  deriving DecidableEq, Repr

/-! ### The link and the image -/

/-- Link states (R163). -/
inductive LinkState where
  | down | hunt | up
  deriving DecidableEq, Repr

/-- The receiver and the transmitter's replies (R163 to R166): the link state, the silence timer's expiry, the
replies awaiting transmission, the reply being sent and LINK_ERROR. -/
structure Link where
  state   : LinkState
  silence : Option Nat
  replies : List Reply
  sending : Option Reply
  error   : Bool
  deriving DecidableEq, Repr

/-- The Image Store (R187): the bytes of the nonvolatile image, the copy being written, the deferred-reset
indication, and the count that numbers the free contents of failed writes (assumption 1). -/
structure ImageStore where
  bytes    : List Byte
  writing  : Option (Tables × List Nat)
  deferred : Bool
  broken   : Nat
  deriving DecidableEq, Repr

/-- The whole machine. `pending` is the queue of commands not yet taken, first in first out. -/
structure State where
  part    : Part
  notices : NoticeQueue
  link    : Link
  image   : ImageStore
  pending : List Instr
  deriving DecidableEq, Repr

/-- Reasons to stop with a fault. There is none: every rule of the spec gives the part an effect, and no event
stops it. -/
inductive Fault where
  deriving DecidableEq, Repr

/-- Reasons to refuse. -/
inductive Refusal where
  /-- Raised by `exec` alone, for a command with no meaning yet. Safe: nothing is claimed of it. -/
  | notModelled (mnemonic : String)
  deriving DecidableEq, Repr

/-- The blocks right after power-on with the default tables, both lines inactive (R190): the mode is START,
IMAGE_BAD is set, and the first ROLL_CALL of the cold enumeration is out. -/
def Part.cold : Part where
  now    := 0
  tables := Tables.default
  gens   := [0, 0, 0, 0, 0, 0, 0]
  inv    := ⟨[], [], [], [], [], ⟨false, 0, 0, 0, 0, 0⟩⟩
  zones  := []
  jobs   := ⟨[], [], []⟩
  mv     := ⟨[], 0, 0, Robot.cold, Robot.cold⟩
  watch  := ⟨[WatchEntry.cold, WatchEntry.cold, WatchEntry.cold, WatchEntry.cold], none⟩
  bus    := ⟨[], some ⟨.cold, (List.range 64).drop 2⟩, some (.rollCall 1), 0, 0, none⟩
  window := none
  ctl    := ⟨.start, none, false, FailCauses.none, false, false, false, false, true, true, true⟩
  out    := []
  work   := []

/-- The machine right after power-on (R190) with an image that does not pass its check: the spec gives a new
part no image (assumption 2). -/
def State.reset : State where
  part    := Part.cold
  notices := ⟨[], 0, false, none⟩
  link    := ⟨.down, none, [], none, false⟩
  image   := ⟨[], none, false, 0⟩
  pending := []

end Sys2Proof.Machine
end

