-- ==== Sys2Proof/Machine/Operands.lean ====
section
/-! DEFINITION. How operands are read: identities, locations and geometry, accepted kinds, spans and coordinates
(00_scope.md "Locations, columns and spans", R21, R193). -/

namespace Sys2Proof

/-- A symbol of an identity: a decimal digit or an upper-case letter, by its character code (R21). -/
def Machine.symbolOk (b : Byte) : Bool :=
  (48 ≤ b.toNat && b.toNat ≤ 57) || (65 ≤ b.toNat && b.toNat ≤ 90)

/-- The form of a reticle ID: exactly 12 symbols (R21). -/
def Machine.idOk (x : RetId) : Bool :=
  x.length == 12 && x.all Machine.symbolOk

/-- A read as a report carries it: an ID of any other form is taken as UNREADABLE (R21, R193). -/
def Read.norm : Read → Read
  | .id x => if Machine.idOk x then .id x else .unreadable
  | r => r

/-- The other robot. -/
def Side.other : Side → Side
  | .a => .b
  | .b => .a

/-- The park span of a robot. -/
def Side.park : Side → Nat
  | .a => 0
  | .b => 17

/-- The number by which frames and the node plan name a robot: 0 for A, 1 for B. -/
def Side.index : Side → Nat
  | .a => 0
  | .b => 1

end Sys2Proof

namespace Sys2Proof.Machine

/-- The pod kind field is carried in bits 0..1 (11_formats.md). -/
def kindField (k : Nat) : Nat := k % 4

/-- An accepted-kinds set holds a kind (R2, R3). -/
def accepts (kinds : BitVec 4) (k : Nat) : Bool := kinds.getLsbD k

/-- A location is a slot (R1). -/
def isSlot (l : Nat) : Bool := l < 960

/-- A location is a slot or a port position: the places a pod rests at, hands apart (R35). -/
def isPlace (l : Nat) : Bool := l < 968

/-- The port whose position a location is (R1). -/
def portOf (l : Nat) : Option Nat := if 960 ≤ l ∧ l < 968 then some (l - 960) else none

/-- The position of a port (R1). -/
def posOf (p : Nat) : Nat := 960 + p

/-- The hand of a robot (R1). -/
def handOf : Side → Nat
  | .a => 968
  | .b => 969

/-- A robot as a request names it: 0 or 1 (11_formats.md). -/
def sideOf (n : Nat) : Option Side :=
  if n = 0 then some .a else if n = 1 then some .b else none

/-- The column of a slot; a zone is a column. -/
def columnOf (slot : Nat) : Nat := slot / 60

/-- A span as a report carries it: above 17 it is taken as 17 (R193). -/
def spanField (s : Nat) : Nat := min s 17

/-- Distance between two numbers. -/
def dist (a b : Nat) : Nat := (a - b) + (b - a)

/-- The column a location lies at: a slot's own, a port position's from the port table (R3). -/
def Tables.columnAt (t : Tables) (l : Nat) : Nat :=
  match portOf l with
  | some p => (Store.getD PortCfg.default t.ports p).column
  | none => columnOf l

/-- The span a location lies at: column + 1 (R113). -/
def Tables.spanAt (t : Tables) (l : Nat) : Nat := t.columnAt l + 1

/-- The coordinates of a location: a slot's column, face, level and offset, a port position's number and
column (R121). -/
def Tables.coord (t : Tables) (l : Nat) : Coord :=
  match portOf l with
  | some p => .port p (Store.getD PortCfg.default t.ports p).column
  | none =>
    if isSlot l then
      .slot (l / 60) (l % 60 / 30) (l % 30) (Store.getD SlotCfg.default t.slotMap l).offset
    else .hand

/-- A numeric field clamped to its range (R193). -/
def clampTo (lo hi v : Nat) : Nat := max lo (min hi v)

/-- The smallest interval that contains two spans. -/
def hull (a b : Nat) : Nat × Nat := (min a b, max a b)

/-- The smallest interval that contains an interval and a span. -/
def widen (i : Nat × Nat) (s : Nat) : Nat × Nat := (min i.1 s, max i.2 s)

/-- A span lies within an interval. -/
def within (i : Nat × Nat) (s : Nat) : Bool := i.1 ≤ s && s ≤ i.2

end Sys2Proof.Machine
end

