-- ==== Sys2Proof/Machine/Ops.lean ====
section
/-! DEFINITION. The named operations over the blocks' tables: every field is read and written here. Nothing in
this file decides what a rule does; the families cite the rules. -/

namespace Sys2Proof.Machine

/-! ### Notices and signals -/

/-- Generate a notice (R169). It joins the queue at the end of its event, in the order of generation. -/
def Part.say (c : Part) (n : Subject) : Part := { c with out := c.out ++ [n] }

/-- Give a signal; one already waiting is not given twice. -/
def Part.signal (c : Part) (g : Sig) : Part :=
  if g ∈ c.work then c else { c with work := c.work ++ [g] }

/-- A timer expires: the event is the one of its expiry, and a part time that has not reached it moves on to it
(assumption 26). -/
def Part.reach (c : Part) (expiry : Nat) : Part := { c with now := max c.now expiry }

/-- Apply `f` to 0 .. n − 1 in increasing order. -/
def Part.each (c : Part) (n : Nat) (f : Part → Nat → Part) : Part := (List.range n).foldl f c

/-- Signal that every port's return and head step are to be tried again. -/
def Part.signalPorts (c : Part) : Part :=
  c.each 8 fun c p => (c.signal (.handle p)).signal (.attempt p)

/-! ### Live configuration -/

def Part.slotCfg (c : Part) (s : Nat) : SlotCfg := Store.getD SlotCfg.default c.tables.slotMap s
def Part.portCfg (c : Part) (p : Nat) : PortCfg := Store.getD PortCfg.default c.tables.ports p
def Part.zoneCfg (c : Part) (z : Nat) : ZoneCfg := Store.getD ZoneCfg.default c.tables.zone.zones z
def Part.sched (c : Part) : SchedCfg := c.tables.zone.sched
def Part.classCfg (c : Part) (k : Nat) : ClassCfg := c.tables.classes.getD k ⟨0, 0⟩
def Part.limits (c : Part) : Limits := c.tables.limits
def Tables.planOf (t : Tables) (a : Nat) : PlanEntry := Store.getD PlanEntry.default t.plan a
def Part.planOf (c : Part) (a : Nat) : PlanEntry := c.tables.planOf a

/-- The address the plan gives a kind and assignment (R149). -/
def Tables.nodeFor (t : Tables) (k : NodeKind) (a : Nat) : Option Nat :=
  (t.plan.find? fun e => e.2.kind = k ∧ e.2.assignment = a).map (·.1)

def Part.robotAddr (c : Part) (x : Side) : Option Nat := c.tables.nodeFor .robot x.index
def Part.portAddr (c : Part) (p : Nat) : Option Nat := c.tables.nodeFor .port p

/-! ### The Location Table -/

def Part.occ (c : Part) (l : Nat) : Occ := Store.getD .unknown c.inv.occ l

/-- Write an occupancy with no further effect. -/
def Part.putOcc (c : Part) (l : Nat) (o : Occ) : Part :=
  { c with inv := { c.inv with occ := Store.setD .unknown c.inv.occ l o } }

/-- Write an occupancy. A slot that becomes VACANT signals slot available (R16); a port position that becomes
VACANT may let its port's head step be attempted (R94). -/
def Part.setOcc (c : Part) (l : Nat) (o : Occ) : Part :=
  let c' := c.putOcc l o
  if o = .vacant ∧ c.occ l ≠ .vacant then
    if isSlot l then c'.signal .slotAvailable
    else match portOf l with
      | some p => c'.signal (.attempt p)
      | none => c'
  else c'

/-- The pod kind a FOREIGN entry carries. -/
def Occ.kind? : Occ → Option Nat
  | .foreign k => some k
  | _ => none

/-- The pod kind last reported or given for the pod with no record at a location (R14); 0 where none stands. -/
def Part.foreignKind (c : Part) (l : Nat) : Nat := (c.occ l).kind?.getD 0

def Part.hint (c : Part) (s : Nat) : Hint := Store.getD .missing c.inv.hints s
def Part.setHint (c : Part) (s : Nat) (h : Hint) : Part :=
  { c with inv := { c.inv with hints := Store.setD .missing c.inv.hints s h } }

def Part.flagsOf (c : Part) (s : Nat) : SlotFlags := Store.getD SlotFlags.clear c.inv.flags s
def Part.putFlags (c : Part) (s : Nat) (f : SlotFlags) : Part :=
  { c with inv := { c.inv with flags := Store.setD SlotFlags.clear c.inv.flags s f } }

/-- The record an occupancy names, at rest or in a move (R5). -/
def Occ.names : Occ → Option Nat
  | .occupied n _ => some n
  | .inbound n => some n
  | .outbound n _ => some n
  | _ => none

/-- The record whose location a place with this occupancy is: OCCUPIED or OUTBOUND (R5). -/
def Occ.resident : Occ → Option Nat
  | .occupied n _ => some n
  | .outbound n _ => some n
  | _ => none

/-- The verified flag an occupancy carries. -/
def Occ.verified : Occ → Bool
  | .occupied _ v => v
  | .outbound _ v => v
  | _ => false

/-- The occupancy with its verified flag replaced. -/
def Occ.withVerified (v : Bool) : Occ → Occ
  | .occupied n _ => .occupied n v
  | .outbound n _ => .outbound n v
  | o => o

/-! ### The Reticle Table -/

def Part.rec? (c : Part) (n : Nat) : Option Rec := Store.find c.inv.recs n
def Part.putRec (c : Part) (n : Nat) (r : Rec) : Part :=
  { c with inv := { c.inv with recs := Store.put c.inv.recs n r } }
def Part.dropRec (c : Part) (n : Nat) : Part :=
  { c with inv := { c.inv with recs := Store.erase c.inv.recs n } }

/-- The record that carries an ID, symbol by symbol (R21). -/
def Part.findId (c : Part) (x : RetId) : Option (Nat × Rec) := c.inv.recs.find? fun e => e.2.id = x

/-- The lowest free record number (R21). -/
def Part.freeRec (c : Part) : Option Nat :=
  let n := Store.lowestFree c.inv.recs 0
  if n < 1024 then some n else none

/-- Change a record; a change of its state or of its hold set is reported to the Job Engine (R94). -/
def Part.updRec (c : Part) (n : Nat) (f : Rec → Rec) : Part :=
  match c.rec? n with
  | none => c
  | some r =>
    let r' := f r
    let c' := c.putRec n r'
    if r'.state = r.state ∧ r'.operator = r.operator ∧ r'.exposure = r.exposure ∧ r'.mismatch = r.mismatch
    then c' else c'.signal (.reticle n)

/-- The pod of a record leaves the location where it stands, which holds `left` from then on (R5). -/
def Part.vacate (c : Part) (n : Nat) (left : Occ) : Part :=
  match c.rec? n with
  | some r =>
    match r.place with
    | .loc l => c.setOcc l left
    | _ => c
  | none => c

/-- The pod of a record stands at a location: the place it leaves, the place that names it and the record itself change
together (R5). `f` gives the record's other fields. -/
def Part.putPod (c : Part) (n l : Nat) (left : Occ) (f : Rec → Rec) : Part :=
  match c.rec? n with
  | some _ => ((c.vacate n left).setOcc l (.occupied n true)).updRec n fun r => { f r with place := .loc l }
  | none => c

/-- The record's verified flag: that of the entry that names it at its location (R22). -/
def Part.verified (c : Part) (n : Nat) : Bool :=
  match c.rec? n with
  | some r =>
    match r.place with
    | .loc l => (c.occ l).resident == some n && (c.occ l).verified
    | _ => false
  | none => false

/-- A record carries a hold reason. -/
def Rec.held (r : Rec) : Bool := r.operator || r.exposure || r.mismatch

/-- The hold reason asked for. -/
def Rec.holds (r : Rec) : HoldReason → Bool
  | .operator => r.operator
  | .exposure => r.exposure
  | .mismatch => r.mismatch

/-- Set or clear one hold reason. -/
def Rec.setHold (r : Rec) (h : HoldReason) (v : Bool) : Rec :=
  match h with
  | .operator => { r with operator := v }
  | .exposure => { r with exposure := v }
  | .mismatch => { r with mismatch := v }

/-- Put a location at the tail of the rescan queue unless it waits there; hands do not join (R35). -/
def Part.rescan (c : Part) (l : Nat) : Part :=
  if isPlace l ∧ l ∉ c.inv.rescan then
    { c with inv := { c.inv with rescan := c.inv.rescan ++ [l] } }
  else c

/-- Take a location out of the rescan queue. -/
def Part.unrescan (c : Part) (l : Nat) : Part :=
  { c with inv := { c.inv with rescan := c.inv.rescan.filter (· ≠ l) } }

def Part.setCursor (c : Part) (k : Cursor) : Part := { c with inv := { c.inv with cursor := k } }

/-! ### Zones -/

def Part.zone (c : Part) (z : Nat) : Zone := Store.getD Zone.cold c.zones z
def Part.putZone (c : Part) (z : Nat) (r : Zone) : Part :=
  { c with zones := Store.setD Zone.cold c.zones z r }

/-! ### Jobs and ports -/

def Part.job? (c : Part) (j : Nat) : Option Job := Store.find c.jobs.jobs j
def Part.putJob (c : Part) (j : Nat) (r : Job) : Part :=
  { c with jobs := { c.jobs with jobs := Store.put c.jobs.jobs j r } }

/-- Change a job, if there is one of this number. -/
def Part.updJob (c : Part) (j : Nat) (f : Job → Job) : Part :=
  match c.job? j with
  | none => c
  | some r => c.putJob j (f r)

def Part.dropJob (c : Part) (j : Nat) : Part :=
  { c with jobs := { c.jobs with jobs := Store.erase c.jobs.jobs j } }
def Part.port (c : Part) (p : Nat) : Port := Store.getD Port.cold c.jobs.ports p
def Part.putPort (c : Part) (p : Nat) (r : Port) : Part :=
  { c with jobs := { c.jobs with ports := Store.setD Port.cold c.jobs.ports p r } }

/-- The first step of a job that has not ended, with its index: the head step (R86). -/
def headFrom : List Step → Nat → Option (Nat × Step)
  | [], _ => none
  | st :: t, k => if st.state = .ended then headFrom t (k + 1) else some (k, st)

def Job.head (r : Job) : Option (Nat × Step) := headFrom r.steps 0

/-- Every step has ended. -/
def Job.finished (r : Job) : Bool := r.steps.all fun st => st.state = .ended

/-- Replace one step of a job. -/
def Part.setStep (c : Part) (j k : Nat) (f : Step → Step) : Part :=
  c.updJob j fun r =>
    match r.steps[k]? with
    | none => r
    | some st => { r with steps := r.steps.set k (f st) }

/-! ### Moves and robots -/

def Part.moves (c : Part) : List Move := c.mv.moves
def Part.move? (c : Part) (num : Nat) : Option Move := c.mv.moves.find? (·.num = num)

/-- Replace the move that carries the same number; its admission sequence, by which the list is ordered, stays (R110,
R111). -/
def Part.putMove (c : Part) (m : Move) : Part :=
  { c with mv := { c.mv with moves := c.mv.moves.map fun k => if k.num = m.num then { m with seq := k.seq } else k } }

def Part.robot (c : Part) : Side → Robot
  | .a => c.mv.robotA
  | .b => c.mv.robotB

/-- A robot is available while IDLE, BUSY or YIELDING (R113). -/
def Robot.available (r : Robot) : Bool := r.state = .idle || r.state = .busy || r.state = .yielding

/-- Write a robot record with no further effect. -/
def Part.putRobot (c : Part) (x : Side) (r : Robot) : Part :=
  match x with
  | .a => { c with mv := { c.mv with robotA := r } }
  | .b => { c with mv := { c.mv with robotB := r } }

/-- Write a robot record. A robot that becomes available or unavailable is signalled (R111, R113). -/
def Part.setRobot (c : Part) (x : Side) (r : Robot) : Part :=
  let c' := c.putRobot x r
  match (c.robot x).available, r.available with
  | false, true => (c'.signal .room).signal .robots
  | true, false => c'.signal .robots
  | _, _ => c'

/-- A move has been granted and has not ended: DISPATCHED, PICKED or PUTTING_BACK (R111). -/
def Move.granted (m : Move) : Bool := m.state = .dispatched || m.state = .picked || m.state = .puttingBack

/-- The move a robot is carrying out. -/
def Part.currentOf (c : Part) (x : Side) : Option Move := (c.robot x).current.bind c.move?

/-- A move touches zone z when its source or destination is a slot of column z (R65). -/
def Move.touches (m : Move) (z : Nat) : Bool :=
  let inZone : Option Nat → Bool := fun l => match l with
    | some l => isSlot l && columnOf l == z
    | none => false
  inZone m.src || inZone m.dst

/-- Free entries of the move list (R111). -/
def Part.freeMoves (c : Part) : Nat := 24 - c.mv.moves.length

/-- The list has room for a kind (R111). -/
def Part.hasRoom (c : Part) : MoveKind → Bool
  | .deliver | .store | .cross => 1 ≤ c.freeMoves
  | .relocate | .scan | .manual => 8 < c.freeMoves

/-- Records are named in the move list as the reticle of a move. -/
def Part.inMove (c : Part) (n : Nat) : Bool := c.mv.moves.any fun m => m.reticle = some n

/-! ### The bus -/

def Part.node? (c : Part) (a : Nat) : Option Node := Store.find c.bus.roster a
def Part.putNode (c : Part) (a : Nat) (r : Node) : Part :=
  { c with bus := { c.bus with roster := Store.put c.bus.roster a r } }
def Part.dropNode (c : Part) (a : Nat) : Part :=
  { c with bus := { c.bus with roster := Store.erase c.bus.roster a } }

/-- The address is planned (R149). -/
def Part.planned (c : Part) (a : Nat) : Bool := (c.planOf a).kind ≠ .none

/-- The roster entry for an address is PRESENT. -/
def Part.presentAt (c : Part) (a : Option Nat) : Bool :=
  match a.bind c.node? with
  | some n => n.state = .present
  | none => false

/-- Queue an order at the tail of its node's queue; an order for an address with no planned entry is not
queued (R156). -/
def Part.queueOrder (c : Part) (a : Option Nat) (o : QOrder) : Part :=
  match a with
  | none => c
  | some a =>
    if c.planned a then
      match c.node? a with
      | some n => c.putNode a { n with queue := n.queue ++ [o] }
      | none => c
    else c

/-- An order of the K64's own. -/
def Part.order (c : Part) (a : Option Nat) (o : Order) : Part := c.queueOrder a ⟨o, none⟩

def Part.robotOrder (c : Part) (x : Side) (o : Order) : Part := c.order (c.robotAddr x) o
def Part.portOrder (c : Part) (p : Nat) (o : Order) : Part := c.order (c.portAddr p) o
def Part.manifoldOrder (c : Part) (z : Nat) (o : Order) : Part := c.order (some (c.zoneCfg z).manifold) o

/-- The robot's node is PRESENT. -/
def Part.robotPresent (c : Part) (x : Side) : Bool := c.presentAt (c.robotAddr x)

/-- A port is suspended: no port node planned for it, its node not PRESENT, or FAIL_SAFE (R81). -/
def Part.suspended (c : Part) (p : Nat) : Bool :=
  c.ctl.mode = .failSafe || !c.presentAt (c.portAddr p)

end Sys2Proof.Machine
end

