-- ==== Sys2Proof/Machine/Flags.lean ====
section
/-! DEFINITION. Everything the spec names that follows from other state: the zone state and its indications (R62,
R64, R69), the wanting indication (R53), protection (R45), the fault summaries (R12, R13, R79), eligibility (R14),
and the setting of slot fault flags (R9). -/

namespace Sys2Proof.Machine

/-! ### Zones -/

/-- Disabled by failure while the failure count is 2, or by a supply fault (R62, R66). -/
def Part.zoneDisabled (c : Part) (z : Nat) : Bool :=
  (c.zoneCfg z).enabled && ((c.zone z).failures == 2 || (c.zone z).supplyFault)

/-- The zone state (R62). -/
def Part.zoneState (c : Part) (z : Nat) : ZoneState :=
  if c.zoneDisabled z then .disabled
  else if (c.zone z).pass.isSome then .purging
  else if (c.zone z).b ≤ -3 then .urgent
  else if (c.zone z).b ≤ -1 then .due
  else .current

/-- A zone is protective (R45, R64). -/
def Part.protective (c : Part) (z : Nat) : Bool :=
  (c.zoneCfg z).enabled && !(c.zone z).overdue && !c.zoneDisabled z

/-- A zone is closed to moves: PURGING, or URGENT with purge enabled and not PURGE_DISABLED (R69). -/
def Part.zoneClosed (c : Part) (z : Nat) : Bool :=
  match c.zoneState z with
  | .purging => true
  | .urgent => (c.zoneCfg z).enabled
  | _ => false

/-- A move touches a zone closed to moves (R69). -/
def Part.touchesClosed (c : Part) (m : Move) : Bool :=
  (List.range 16).any fun z => m.touches z && c.zoneClosed z

/-- The purge fault indication of a zone (R79). -/
def Part.purgeFault (c : Part) (z : Nat) : Bool :=
  (c.zone z).overrunFlag || (c.zone z).failedFlag || c.zoneDisabled z

/-- A zone is required for a standalone entry: purge enabled and not PURGE_DISABLED (R77). -/
def Part.zoneRequired (c : Part) (z : Nat) : Bool := (c.zoneCfg z).enabled && !c.zoneDisabled z

/-- The records named by OCCUPIED or OUTBOUND entries in slots of a zone, by slot. -/
def Part.residents (c : Part) (z : Nat) : List Nat :=
  (c.inv.occ.filter fun e => isSlot e.1 && columnOf e.1 == z).filterMap fun e => e.2.resident

/-- A zone is wanting: a resident's stored E is at or above E_WARN (R53). -/
def Part.wanting (c : Part) (z : Nat) : Bool :=
  (c.residents z).any fun n =>
    match c.rec? n with
    | some r => c.limits.eWarn ≤ r.e
    | none => false

/-! ### Protection -/

/-- A reticle is protected: at rest in a slot, no SEAL_FAULT there, its zone protective (R45). -/
def Part.sheltered (c : Part) (n : Nat) (r : Rec) : Bool :=
  match r.place with
  | .loc l =>
    isSlot l && ((c.occ l).resident == some n) && !(c.flagsOf l).sealed && c.protective (columnOf l)
  | _ => false

/-! ### Slot fault flags -/

/-- Some flag is set. -/
def SlotFlags.any (f : SlotFlags) : Bool := f.conflict || f.mismatch || f.sealed

/-- The flag asked for. -/
def SlotFlags.get (f : SlotFlags) : SlotFlag → Bool
  | .conflict => f.conflict
  | .mismatch => f.mismatch
  | .sealed => f.sealed

/-- Set one flag. -/
def SlotFlags.set (f : SlotFlags) : SlotFlag → SlotFlags
  | .conflict => { f with conflict := true }
  | .mismatch => { f with mismatch := true }
  | .sealed => { f with sealed := true }

/-- Set a slot's fault flag: a change from clear to set queues SLOT_FLAG (R9). A location that is no slot has
no flags. -/
def Part.raiseFlag (c : Part) (l : Nat) (f : SlotFlag) : Part :=
  if isSlot l ∧ (c.flagsOf l).get f = false then
    (c.putFlags l ((c.flagsOf l).set f)).say (.slotFlag l f)
  else c

/-- The slot-fault summary of a zone (R12). -/
def Part.slotFault (c : Part) (z : Nat) : Bool :=
  c.inv.flags.any fun e => columnOf e.1 == z && e.2.any

/-! ### The global summary -/

/-- The planned addresses whose entries are LOST or ABSENT (R161). -/
def Part.nodeFaults (c : Part) : List Nat :=
  (c.tables.plan.filter fun e => e.2.kind ≠ .none).filterMap fun e =>
    match c.node? e.1 with
    | some n => if n.state = .lost ∨ n.state = .absent then some e.1 else none
    | none => none

/-- The conditions of the global FAULT summary (R13). -/
def Part.faultNow (c : Part) : Bool :=
  (List.range 16).any c.slotFault
  || (List.range 16).any c.purgeFault
  || c.mv.robotA.state = .suspect || c.mv.robotA.state = .lost
  || c.mv.robotB.state = .suspect || c.mv.robotB.state = .lost
  || !c.nodeFaults.isEmpty
  || c.ctl.imageBad || c.ctl.enclosure || c.ctl.stop

/-! ### Eligibility -/

/-- A location that moves may name (R3): any but the position of a port out of plan. -/
def Part.inPlanAt (c : Part) (l : Nat) : Bool :=
  match portOf l with
  | some p => (c.portCfg p).inPlan
  | none => true

/-- Eligible as a source (R14). -/
def Part.eligibleSrc (c : Part) (l : Nat) : Bool :=
  match portOf l with
  | some p => (c.portCfg p).inPlan
  | none => isSlot l && (c.slotCfg l).enabled && !(c.flagsOf l).any

/-- Eligible as a destination for a pod of a kind (R14). -/
def Part.eligibleDst (c : Part) (l kind : Nat) : Bool :=
  c.eligibleSrc l && (c.occ l = .vacant) &&
  match portOf l with
  | some p => accepts (c.portCfg p).kinds kind
  | none => accepts (c.slotCfg l).kinds kind

/-- A zone holds a VACANT slot that is enabled and has no fault flag (R61, R64). -/
def Part.zoneHasVacant (c : Part) (z : Nat) : Bool :=
  c.inv.occ.any fun e => isSlot e.1 && columnOf e.1 == z && (e.2 = .vacant) && c.eligibleSrc e.1

end Sys2Proof.Machine
end

