-- ==== Sys2Proof/Machine/JobEnds.lean ====
section
/-! DEFINITION. How steps, jobs and port returns end (R86, R90, R92, R97, R99, R100, R105), shared by every
event that ends one. -/

namespace Sys2Proof.Machine

/-! ### Steps and jobs -/

/-- The record of a step's reticle, by the ID the step names. R86 does not say which record is that of a RETURN step: with no
pod tested or moved, it is that of the ID expected (DESIGN CHOICE, assumption 59). -/
def Part.stepReticle (c : Part) : StepWork → Option Nat
  | .deliver id _ => (c.findId id).map (·.1)
  | .ret _ (some id) => (c.findId id).map (·.1)
  | .ret _ none => none

/-- A step becomes ENDED with a result, and STEP_RESULT is queued (R86). `n` is the record of its reticle
where the caller knows it, and for a RETURN step that of the pod it tested or moved (DESIGN CHOICE, assumption 59). -/
def Part.markStep (c : Part) (j k : Nat) (res : StepResult) (n : Option Nat) : Part :=
  match (c.job? j).bind (·.steps[k]?) with
  | none => c
  | some st =>
    if st.state = .ended then c
    else
      (c.setStep j k fun st =>
        { st with state := .ended, result := some res, expiry := none, since := none, move := none }).say
        (.stepResult j (k + 1) res (n <|> c.stepReticle st.work))

/-- End every step of a job whose state is one of the given ones, in list order. -/
def Part.markSteps (c : Part) (j : Nat) (sel : StepState → Bool) (res : StepResult) : Part :=
  match c.job? j with
  | none => c
  | some r =>
    c.each r.steps.length fun c k =>
      match (c.job? j).bind (·.steps[k]?) with
      | some st => if (sel st.state) then c.markStep j k res none else c
      | none => c

/-- PORT_JOB(idle), once for each activation (R100). -/
def Part.sendIdle (c : Part) (j : Nat) : Part :=
  match c.job? j with
  | none => c
  | some r =>
    if (c.port r.port).idleSent then c
    else
      (c.portOrder r.port (.portJob false j r.kind)).putPort r.port { c.port r.port with idleSent := true }

/-- The Watch Unit is told of a job's end: every entry bound to it becomes OFF (R140). -/
def Part.unbindWatch (c : Part) (j : Nat) : Part :=
  let entries := c.watch.entries.map fun w => if w.enable = .job j then { w with enable := .off } else w
  { c with watch := { c.watch with entries := entries } }

/-- Follow a CONTINUE successor: taken to the head of its port's queue, or the chain is broken (R90). -/
def Part.followChain (c : Part) (j p q : Nat) : Part :=
  match c.job? q with
  | some r =>
    if r.port = p ∧ r.active = false then
      c.putPort p { c.port p with queue := q :: (c.port p).queue.filter (· ≠ q) }
    else c.say (.chainBroken j q)
  | none => c.say (.chainBroken j q)

/-- A job ends with an outcome (R90): what has not ended ends CANCELLED, idle and JOB_ENDED go out, the Watch
Unit is told, the record is freed, and the chain is followed unless the job was CANCELLED. -/
def Part.endJob (c : Part) (j : Nat) (out : JobOutcome) : Part :=
  match c.job? j with
  | none => c
  | some r =>
    let c1 := c.markSteps j (· ≠ .ended) .cancelled
    let done := match c1.job? j with
      | some r1 => (r1.steps.filter fun st => st.result = some .done).length
      | none => 0
    let c2 := if r.active then c1.sendIdle j else c1
    let c3 := (c2.say (.jobEnded j r.port r.kind out done)).unbindWatch j
    let c4 := c3.dropJob j
    let pt := c4.port r.port
    let c5 := c4.putPort r.port { pt with
      queue := pt.queue.filter (· ≠ j)
      active := if pt.active = some j then none else pt.active }
    match r.cont with
    | some q => if out = .cancelled then c5 else c5.followChain j r.port q
    | none => c5

/-- What a job does after one of its steps has ended (R90, R92, R91, R99): where it goes on, the next head step is attempted
at once. `failed` says that ON_LIMIT decides. -/
def Part.afterStep (c : Part) (j : Nat) (failed : Bool) : Part :=
  match c.job? j with
  | none => c
  | some r =>
    if r.cancel then (if r.finished then c.endJob j .cancelled else c)
    else if r.early then (if r.finished then c.endJob j .early else c)
    else if failed ∧ r.stop then c.endJob j .failed
    else if r.finished then c.endJob j .done
    else match r.kind with
      | .deliver => c.signal (.attempt r.port)
      | .ret => c.signal (.returnStep r.port)

/-- A step ends with a result, and its job goes on (R92). -/
def Part.endStep (c : Part) (j k : Nat) (res : StepResult) (n : Option Nat) (failed : Bool) : Part :=
  (c.markStep j k res n).afterStep j failed

/-! ### Windows -/

/-- A READY that a delivery move served is restored at the head of the window, if the window has room (R97). -/
def Part.restoreReady (c : Part) (p : Nat) (time : Option Nat) : Part :=
  match time with
  | none => c
  | some t =>
    let pt := c.port p
    if pt.window.length < 2 then
      (c.putPort p { pt with window := ⟨.ready, t⟩ :: pt.window }).signal (.attempt p)
    else c

/-- A window entry is a RETURN_WAITING. -/
def WinEntry.isReturn (w : WinEntry) : Bool :=
  match w.kind with
  | .returnWaiting .. => true
  | _ => false

/-- The RETURN_WAITING entry of a port leaves its window, wherever it stands (R83). -/
def Part.serveReturn (c : Part) (p : Nat) : Part :=
  let pt := c.port p
  if pt.window.any WinEntry.isReturn then
    (c.putPort p { pt with window := pt.window.filter fun w => !w.isReturn }).signal (.attempt p)
  else c

/-! ### Port returns -/

/-- A port return ends; a RETURN_WAITING entry it holds leaves the window (R105). -/
def Part.endReturn (c : Part) (p : Nat) : Part :=
  match (c.port p).ret with
  | none => c
  | some _ => (c.putPort p { c.port p with ret := none }).serveReturn p

/-- The Job Engine takes charge of a pod on a port position (R101). -/
def Part.newReturn (c : Part) (p : Nat) (pod : Pod) (forced : Bool) : Part :=
  (c.putPort p { c.port p with ret := some ⟨pod, forced, none, false, false⟩ }).signal (.handle p)

/-- The return whose pod is a record standing at a port position ends (R105). -/
def Part.endReturnOf (c : Part) (n : Nat) (l : Nat) : Part :=
  match portOf l with
  | some p =>
    match (c.port p).ret with
    | some r => if r.pod = .record n then c.endReturn p else c
    | none => c
  | none => c

/-- The pod that stands at a port position, if it is one the Job Engine can take charge of: a RETURNED record,
or a FOREIGN pod (R101). -/
def Part.podAt (c : Part) (l : Nat) : Option Pod :=
  match c.occ l with
  | .occupied n _ =>
    match c.rec? n with
    | some r => if r.state = .returned then some (.record n) else none
    | none => none
  | .foreign k => some (.foreign k)
  | _ => none

end Sys2Proof.Machine
end

