-- ==== Sys2Proof/Machine/MoveEnds.lean ====
section
/-! DEFINITION. How a move leaves the move list, and what its owner does (R110, R97, R105, R106). -/

namespace Sys2Proof.Machine

/-- The result a delivery or return step ends with when its move ends without its place (R97). -/
def MoveResult.forStep : MoveResult → StepResult
  | .completed => .done
  | .pickEmpty => .pickFailed
  | .pickMismatch => .mismatch
  | .placeOccupied => .slotFault
  | .timedOut => .timedOut
  | .interrupted => .interrupted
  | .cancelled .cancelMove => .cancelled
  | .cancelled .readMoved => .mismatch
  | .cancelled .readDisplaced => .pickFailed
  | .cancelled .lostSource => .pickFailed
  | .cancelled .atGrant => .slotFault
  | .cancelled .hold => .skippedHold
  | .cancelled .cancelled => .cancelled
  | .cancelled .retired => .cancelled

/-- ON_LIMIT decides after this move result: every failure, CANCEL_MOVE among them, but not a step cancelled
with its job or a retired pod (R92). -/
def MoveResult.failsStep : MoveResult → Bool
  | .completed => false
  | .cancelled .cancelled => false
  | .cancelled .retired => false
  | _ => true

/-- The port return whose pod a move carries, told of the move's end (R105, R106). -/
def Part.returnMoveEnd (c : Part) (m : Move) (res : MoveResult) : Part :=
  match m.src.bind portOf with
  | none => c
  | some p =>
    let pos := posOf p
    match res with
    | .completed => c
    | .cancelled _ =>
      match (c.port p).ret with
      | some r =>
        if r.move = some m.num then
          (c.putPort p { c.port p with
            ret := some { r with move := none, forced := r.forced || decide (m.kind = .cross) } }).signal (.handle p)
        else c
      | none => c
    | .timedOut | .interrupted | .pickEmpty =>
      match (c.port p).ret with
      | some r => if r.move = some m.num then c.endReturn p else c
      | none => c
    | .pickMismatch =>
      match c.podAt pos with
      | some pod => (c.endReturn p).newReturn p pod true
      | none => c
    | .placeOccupied =>
      match c.podAt pos with
      | some pod =>
        if (match m.reticle with | some n => decide (pod = Pod.record n) | none => true) then
          c.newReturn p pod (m.forced || decide (m.kind = .cross))
        else c
      | none =>
        match (c.port p).ret with
        | some r => if r.move = some m.num then c.endReturn p else c
        | none => c

/-- A job step told of the end of its move. A delivery step's READY is restored unless the pod was placed
(R97); a return step whose STORE completed ends DONE, with the idle indication after the last (R100). -/
def Part.stepMoveEnd (c : Part) (m : Move) (j k : Nat) (res : MoveResult) : Part :=
  match c.job? j with
  | none => c
  | some r =>
    match r.kind with
    | .deliver =>
      if res = .completed then c
      else
        let c1 := c.restoreReady r.port m.ready
        let c2 := if m.kind = .cross then c1.returnMoveEnd m res else c1
        c2.endStep j k res.forStep m.reticle res.failsStep
    | .ret =>
      let c1 := c.returnMoveEnd m res
      let c2 := if res = .completed ∧ k + 1 = r.steps.length then c1.sendIdle j else c1
      c2.endStep j k res.forStep m.reticle res.failsStep

/-- Take a move out of the list. List room appears (R111), its reticle stops being the reticle of a move, and
a reserved destination that no grant took is a candidate again (R146). -/
def Part.removeMove (c : Part) (m : Move) : Part :=
  let c1 := { c with mv := { c.mv with moves := c.mv.moves.filter (·.num ≠ m.num) } }
  let c2 := match m.reticle with
    | some n => c1.signal (.reticle n)
    | none => c1
  let c3 := if m.refColumn.isSome ∧ ¬m.granted then c2.signal .slotAvailable else c2
  c3.signal .room

/-- A move ends: it leaves the list and its result goes to its owner (R110). -/
def Part.endMove (c : Part) (m : Move) (res : MoveResult) : Part :=
  let c1 := c.removeMove m
  match m.owner with
  | .step j k => c1.stepMoveEnd m j k res
  | .portReturn _ => c1.returnMoveEnd m res
  | .inventory _ =>
    -- R37: a background scan that ended without a result puts its location back
    if res = .timedOut ∨ res = .interrupted then
      match m.dst with
      | some l => c1.rescan l
      | none => c1
    else c1
  | .robot _ => c1
  | .relocate => c1.say (.relocateDone m.num m.reticle m.src m.dst res)
  | .pass tag => c1.say (.passMove tag m.num res)

/-- End every move whose reticle is a record and which has not been granted (R8, R32, R33). -/
def Part.endPendingOf (c : Part) (n : Nat) (cause : CancelCause) : Part :=
  (c.mv.moves.filter fun m => m.reticle = some n ∧ ¬m.granted).foldl
    (fun c m => c.endMove m (.cancelled cause)) c

/-- A reserved record whose move is gone stands where it is: IDLE in a slot, RETURNED at a port position, with
no job reference (R39, R91, R146). -/
def Part.release (c : Part) (n : Nat) : Part :=
  c.updRec n fun r =>
    if r.state = .reserved then
      { r with
        state := match r.place with
          | .loc l => if isSlot l then .idle else .returned
          | _ => r.state
        job := none }
    else r

/-- Remove a move that has not been granted, releasing its reticle first. -/
def Part.cancelMove (c : Part) (m : Move) (cause : CancelCause) : Part :=
  let c1 := match m.reticle with
    | some n => c.release n
    | none => c
  c1.endMove m (.cancelled cause)

end Sys2Proof.Machine
end

