-- ==== Sys2Proof/Machine/Exposure.lean ====
section
/-! DEFINITION. Hold reasons and their effects (R38 to R41), and the exposure accounts (R44 to R56). -/

namespace Sys2Proof.Machine

/-! ### Holds -/

/-- The state a record stands in once a hold has reached it with no hold before (R39, R41). -/
def Rec.heldState (r : Rec) : RState :=
  match r.state with
  | .reserved =>
    match r.place with
    | .loc l => if isSlot l then .idle else .returned
    | _ => .idle
  | .presented => .withdrawing
  | s => s

/-- The port return of a record is handled again after a change of its hold set (R101). -/
def Part.signalReturnOf (c : Part) (n : Nat) (r : Rec) : Part :=
  match r.place with
  | .loc l =>
    match portOf l with
    | some p => if (c.port p).ret.any fun t => decide (t.pod = Pod.record n) then c.signal (.handle p) else c
    | none => c
  | _ => c

/-- What a hold does to the commitments of a record it reaches (R39, R41): the pending DELIVER or CROSS of a
RESERVED record is removed, a RELOCATE stays, and a PRESENTED record's withdrawal begins. `r` is the record as
the hold found it. -/
def Part.holdActs (c : Part) (n : Nat) (r : Rec) : Part :=
  match r.state with
  | .reserved =>
    match c.mv.moves.find? fun m => m.reticle = some n ∧ ¬m.granted with
    | some m => if m.kind = .relocate then c else c.endMove m (.cancelled .hold)
    | none => c
  | .presented =>
    match r.place with
    | .loc l =>
      match portOf l with
      | some p => c.portOrder p (.withdraw r.id)
      | none => c
    | _ => c
  | _ => c

/-- Set a hold reason (R38). A change made by the K64 itself, of EXPOSURE or MISMATCH, queues HOLD_CHANGED; the
effects of R39 to R41 follow when the set was empty. -/
def Part.addHold (c : Part) (n : Nat) (h : HoldReason) : Part :=
  match c.rec? n with
  | none => c
  | some r =>
    if r.holds h then c
    else
      let first := !r.held
      let st := if first then r.heldState else r.state
      let jb := if first ∧ r.state = .reserved then none else r.job
      let c1 := c.updRec n fun r => { r.setHold h true with state := st, job := jb }
      let c2 := if h = .operator then c1 else c1.say (.holdChanged n h true st)
      let c3 := if first then c2.holdActs n r else c2
      c3.signalReturnOf n r

/-- Clear a hold reason (R38). `byPart` says that the K64 itself clears it, which queues HOLD_CHANGED. -/
def Part.clearHold (c : Part) (n : Nat) (h : HoldReason) (byPart : Bool) : Part :=
  match c.rec? n with
  | none => c
  | some r =>
    if r.holds h then
      let c1 := c.updRec n fun r => r.setHold h false
      let c2 := if byPart then c1.say (.holdChanged n h false r.state) else c1
      c2.signalReturnOf n r
    else c

/-! ### The account -/

/-- Settlement of one account at a part time and rate (R48): exact in sixtieths of a unit, saturating at 65535
with no fraction. A record at 65535 that accrues anything is saturated too, so that it stays there with no fraction.
A protected record, which has no stamp, does not change. -/
def Rec.accrue (r : Rec) (now rate : Nat) : Rec :=
  match r.stamp with
  | none => r
  | some t =>
    let total := r.frac + (now - t) * rate
    if r.e + total / 60 > 65535 ∨ (r.e = 65535 ∧ 0 < (now - t) * rate) then
      { r with e := 65535, frac := 0, stamp := some now }
    else { r with e := r.e + total / 60, frac := total % 60, stamp := some now }

/-- The rate of a record, from the live class table (R48). -/
def Part.rateOf (c : Part) (r : Rec) : Nat := (c.classCfg r.cls).rate

/-- The threshold rule (R52). `down` says that it is applied after a purge credit or SET_EXPOSURE. -/
def Part.threshold (c : Part) (n : Nat) (down : Bool) : Part :=
  match c.rec? n with
  | none => c
  | some r =>
    if c.limits.eHold ≤ r.e ∧ r.exposure = false then c.addHold n .exposure
    else if r.e < c.limits.eWarn ∧ r.exposure = true ∧ down = true then c.clearHold n .exposure true
    else c

/-- Settle a record without the threshold rule. -/
def Part.accrueRec (c : Part) (n : Nat) : Part := c.updRec n fun r => r.accrue c.now (c.rateOf r)

/-- Settle a record, and apply the threshold rule (R49). -/
def Part.settle (c : Part) (n : Nat) : Part := (c.accrueRec n).threshold n false

/-- Bring a record's stamp in line with its protection, after a change of place, flag or zone standing (R46):
a reticle that becomes protected is settled and loses its stamp; one that becomes unprotected is stamped; any
other keeps its account as it stands. -/
def Part.fixProtection (c : Part) (n : Nat) : Part :=
  match c.rec? n with
  | none => c
  | some r =>
    match c.sheltered n r, r.stamp with
    | true, some _ => ((c.accrueRec n).updRec n fun r => { r with stamp := none }).threshold n false
    | false, none => c.updRec n fun r => { r with stamp := some c.now }
    | _, _ => c

/-- The account of a record that has just entered LOST or IN_DOUBT: settled if it was unprotected, stamped at
the event's part time in either case (R24, R46). -/
def Part.limboAccount (c : Part) (n : Nat) : Part :=
  match c.rec? n with
  | none => c
  | some r =>
    match r.stamp with
    | some _ => c.settle n
    | none => c.updRec n fun r => { r with stamp := some c.now }

/-- A zone became or ceased to be protective: every reticle in its slots follows (R47), by slot number, an order that the
rule leaves open (DESIGN CHOICE, assumption 51). -/
def Part.fixZone (c : Part) (z : Nat) : Part := (c.residents z).foldl Part.fixProtection c

/-- One purge credit: E falls by it, and a result below 0 leaves E and E_frac 0 (R51). -/
def Rec.credited (r : Rec) (credit : Nat) : Rec :=
  if r.e < credit then { r with e := 0, frac := 0 } else { r with e := r.e - credit }

/-- The credit of a successful pass (R51, steps 2 and 3): every protected reticle in the zone's slots is
credited, then the threshold rule is applied to each, whatever the credit left of its E (R52). They are taken by slot
number, an order that the rules leave open (DESIGN CHOICE, assumption 51). -/
def Part.creditZone (c : Part) (z : Nat) : Part :=
  let due := (c.residents z).filter fun n => (c.rec? n).any fun r => r.stamp.isNone
  let c1 := due.foldl (fun c n => c.updRec n fun r => r.credited (c.classCfg r.cls).credit) c
  due.foldl (fun c n => c.threshold n true) c1

/-- The delivery projection of a record for a use duration (R55). -/
def Part.projected (c : Part) (r : Rec) (d : Nat) : Nat := r.e + d * c.rateOf r

end Sys2Proof.Machine
end

