-- ==== Sys2Proof/Machine/Inventory.lean ====
section
/-! DEFINITION. The Inventory's events: records lost or in doubt (R8, R24), presence reports (R7), and the
reader-result rule (R26, R28 to R34). -/

namespace Sys2Proof.Machine

/-! ### Records leaving their places -/

/-- A record enters LOST (R24): RETICLE_LOST is queued, its location becomes NONE and names it no more (R5), its job
reference is removed and its account is settled or stamped, HOLD_CHANGED of an EXPOSURE so set standing right behind
RETICLE_LOST (DESIGN CHOICE, assumption 46; R28 orders a read's). -/
def Part.makeLost (c : Part) (n : Nat) (cause : LostCause) : Part :=
  match c.rec? n with
  | none => c
  | some r =>
    (((c.vacate n .unknown).updRec n fun r => { r with place := .none, state := .lost, job := none }).say
      (.reticleLost n r.id r.place cause)).limboAccount n

/-- A record enters IN_DOUBT with location NONE (R24), and the location that named it is UNKNOWN (R5). -/
def Part.makeInDoubt (c : Part) (n : Nat) : Part :=
  ((c.vacate n .unknown).updRec n fun r => { r with place := .none, state := .inDoubt, job := none }).limboAccount n

/-- An offer ended by a read (R32, R33, R98): WITHDRAW goes to the port node and the step ends. -/
def Part.endOffer (c : Part) (n : Nat) (res : StepResult) : Part :=
  match c.rec? n with
  | none => c
  | some r =>
    if r.state = .presented ∨ r.state = .withdrawing then
      let c1 := match r.place with
        | .loc l =>
          match portOf l with
          | some p => c.portOrder p (.withdraw r.id)
          | none => c
        | _ => c
      match r.job with
      | some (j, k) => c1.endStep j k res (some n) true
      | none => c1
    else c

/-- End what a record is committed to at its place: its port return, its pending moves and its offer (R32,
R33, R105). The step of an offer ends with the result of the cause, as that of a pending move does: PICK_FAILED for a record
displaced, which R33 says of the pending move alone (DESIGN CHOICE, assumption 67). -/
def Part.endCommitments (c : Part) (n : Nat) (cause : CancelCause) : Part :=
  match c.rec? n with
  | none => c
  | some r =>
    let c1 := match r.place with
      | .loc l => c.endReturnOf n l
      | _ => c
    (c1.endPendingOf n cause).endOffer n (MoveResult.cancelled cause).forStep

/-- The record a location named is displaced by a read that shows another pod, or none, there (R33). -/
def Part.displace (c : Part) (l : Nat) (cause : LostCause) : Part :=
  match (c.occ l).resident with
  | none => c
  | some k =>
    let flag : SlotFlag := if cause = .otherPod then .mismatch else .conflict
    let seen := (c.occ l).verified
    let c1 := (c.endCommitments k .readDisplaced).makeLost k cause
    if seen then c1.raiseFlag l flag else c1

/-- A report shows the pod of a move, or another one, standing at a location: a record that the location names and
that is not the move's own is displaced (R5, R33; assumption 45). -/
def Part.evict (c : Part) (l : Nat) (own : Option Nat) : Part :=
  if (c.occ l).resident.any fun k => decide (some k ≠ own) then c.displace l .otherPod else c

/-- What stands at a location is no longer known: a record it named goes IN_DOUBT, and what it was committed to there
has ended (R5, R34, R128, R130, R136; assumption 45). -/
def Part.doubt (c : Part) (l : Nat) : Part :=
  match (c.occ l).resident with
  | some k => (c.endCommitments k .readDisplaced).makeInDoubt k
  | none => c

/-- A location holds `o` from here on, which names no record. The reticle of the move concerned is left where it stands,
since the move's own rule takes it away; any other record goes IN_DOUBT (R5; assumption 45). -/
def Part.clear (c : Part) (l : Nat) (own : Option Nat) (o : Occ) : Part :=
  if (c.occ l).resident.isSome ∧ (c.occ l).resident = own then c else (c.doubt l).setOcc l o

/-! ### Presence -/

/-- One presence indication for a slot (R7). `snapshot` says that it comes from a shelf snapshot, which makes
an UNKNOWN slot VACANT even where the hint does not change (R19, R154). R8 does not order the notices of a lost
record: RETICLE_LOST comes first, then HOLD_CHANGED of its settlement, then those of its removed move, then SLOT_FLAG
(DESIGN CHOICE, assumption 46). -/
def Part.presence (c : Part) (s : Nat) (v snapshot : Bool) : Part :=
  let h : Hint := if v then .present else .absent
  let same := decide (c.hint s = h)
  let c1 := c.setHint s h
  if same && !(snapshot && decide (c.occ s = .unknown)) then c1
  else
    match c.occ s, v with
    | .vacant, true => ((c1.setOcc s .unknown).raiseFlag s .conflict).rescan s
    | .occupied n seen, false =>
      let c2 := ((c1.makeLost n .presence).setOcc s .vacant).endPendingOf n .lostSource
      if seen then c2.raiseFlag s .conflict else c2
    | .unknown, false => c1.setOcc s .vacant
    | .foreign _, false => c1.setOcc s .vacant
    | _, _ => c1

/-- The hints of a column become missing, as its shelf node leaves service (R6). -/
def Part.clearHints (c : Part) (col : Nat) : Part :=
  { c with inv := { c.inv with hints := c.inv.hints.filter fun e => columnOf e.1 ≠ col } }

/-! ### The reader-result rule -/

/-- The state a record takes from the location where it is read (R26, R30). -/
def stateAt (l : Nat) : RState :=
  if isSlot l then .idle else if isPlace l then .returned else .inDoubt

/-- The dispatched move, other than the one whose report carries the read, that names a location (R28); the
inner value is its reticle. -/
def Part.claimedBy (c : Part) (l : Nat) (own : Option Nat) : Option (Option Nat) :=
  let other := fun (m : Move) => m.granted && decide (some m.num ≠ own)
  let byHand := fun (x : Side) =>
    match c.currentOf x with
    | some m => if l = handOf x ∧ other m then some m.reticle else none
    | none => none
  let byEntry := fun (k : Nat) =>
    if c.mv.moves.any fun m => other m && decide (m.reticle = some k) then some (some k) else none
  match c.occ l with
  | .inbound k => byEntry k
  | .outbound k _ => byEntry k <|> byHand .a <|> byHand .b
  | _ => byHand .a <|> byHand .b

/-- A dispatched move of record m has a location as its source or destination (R29). -/
def Part.inTransitAt (c : Part) (m l : Nat) : Bool :=
  c.mv.moves.any fun k => k.granted && decide (k.reticle = some m ∧ (k.src = some l ∨ k.dst = some l))

/-- The pod kind reported with an identity read replaces the record's (R22). -/
def Part.setKind (c : Part) (n kind : Nat) : Part := c.updRec n fun r => { r with kind := kind }

/-- The account of a record after a read has placed it: an entry into IN_DOUBT at a hand is settled, any other
change follows its protection (R46). -/
def Part.placedAccount (c : Part) (n l : Nat) : Part :=
  if stateAt l = .inDoubt then c.limboAccount n else c.fixProtection n

/-- R30: record m is moved to L, where it was read. -/
def Part.readMoved (c : Part) (m l kind : Nat) (r : Rec) : Part :=
  let seen := c.verified m
  let c1 := c.endCommitments m .readMoved
  let c2 := match r.place with
    | .loc p =>
      let d := c1.rescan p
      if seen then d.raiseFlag p .mismatch else d
    | _ => c1
  let c4 := (c2.evict l (some m)).putPod m l .unknown fun r =>
    { r with state := stateAt l, job := none, kind := kind }
  let c5 := c4.placedAccount m l
  if seen then c5.addHold m .mismatch else c5

/-- R31: record m, in transit elsewhere, is read at L; the read contradicts L and does not take m. Its pod kind is
replaced all the same (R22). -/
def Part.readContradicts (c : Part) (m l kind : Nat) : Part :=
  let seen := (c.occ l).verified
  let c1 := (c.displace l .otherPod).setOcc l .unknown
  let c2 := c1.rescan l
  let c3 := if seen then c2.raiseFlag l .mismatch else c2
  (c3.setKind m kind).addHold m .mismatch

/-- R26: a record is created for an ID no record carries; with no number free the location becomes FOREIGN. -/
def Part.readNew (c : Part) (x : RetId) (l kind : Nat) : Part :=
  let c1 := c.displace l .otherPod
  match c1.freeRec with
  | none => (c1.setOcc l (.foreign kind)).say (.tableFull l x)
  | some n =>
    let r : Rec := ⟨x, 3, kind, .loc l, stateAt l, false, false, false, c1.limits.eWarn, 0, none, none⟩
    let c2 := ((c1.putRec n r).setOcc l (.occupied n true)).signal (.reticle n)
    (c2.fixProtection n).threshold n false

/-- R34, EMPTY: L becomes VACANT and the record it named is LOST. -/
def Part.readEmpty (c : Part) (l : Nat) (ownPick : Bool) : Part :=
  (c.displace l (if ownPick then .pickEmpty else .noPod)).setOcc l .vacant

/-- The pod of a return has no record (R81). -/
def Pod.isForeign : Pod → Bool
  | .foreign _ => true
  | .record _ => false

/-- R34, UNREADABLE: L becomes FOREIGN and the record it named is IN_DOUBT. At a port position this ends any return
standing there, and the FOREIGN pod becomes a new forced return (R105; assumption 17). -/
def Part.readUnreadable (c : Part) (l kind : Nat) : Part :=
  let c1 := c.clear l none (.foreign kind)
  match portOf l with
  | some p =>
    if (c.port p).ret.isSome then (c1.endReturn p).newReturn p (.foreign kind) true else c1
  | none => c1

/-- A port return whose FOREIGN pod a read has named, or found gone, ends (R105). -/
def Part.endForeignReturn (c : Part) (l : Nat) : Part :=
  match portOf l with
  | none => c
  | some p =>
    match (c.port p).ret, c.occ l with
    | some r, .foreign _ => if r.pod.isForeign then c else c.endReturn p
    | some r, _ => if r.pod.isForeign then c.endReturn p else c
    | none, _ => c

/-- Two occupancies are the same value, verified flags and pod kinds apart. -/
def Occ.same : Occ → Occ → Bool
  | .occupied a _, .occupied b _ => a == b
  | .outbound a _, .outbound b _ => a == b
  | .foreign _, .foreign _ => true
  | a, b => a = b

/-- The order of the notices of one application (R28): RECONCILED, every RETICLE_LOST, every SLOT_FLAG, every
HOLD_CHANGED, each kind in the order of the changes; then the others, for which R28 gives no place (DESIGN CHOICE,
assumption 50). -/
def orderNotices (l : List Subject) (first : Option Subject) : List Subject :=
  let rank : Subject → Nat := fun s => match s with
    | .reticleLost .. => 0
    | .slotFlag .. => 1
    | .holdChanged .. => 2
    | _ => 3
  first.toList ++ l.filter (rank · == 0) ++ l.filter (rank · == 1) ++ l.filter (rank · == 2)
    ++ l.filter (rank · == 3)

/-- The outcome of one read that is not set aside: R29, R30, R31, R26 or R34. An ID whose record is not IN_TRANSIT is read
where it stands or is moved to L, also where a move of it is dispatched (assumption 15). -/
def Part.applyRead (c : Part) (l : Nat) (read : Read) (kind : Nat) (own : Option Nat) : Part :=
  match read with
  | .empty => c.readEmpty l own.isSome
  | .unreadable => c.readUnreadable l kind
  | .id x =>
    match c.findId x with
    | none => c.readNew x l kind
    | some (m, r) =>
      if r.place = .loc l then
        (c.putOcc l ((c.occ l).withVerified true)).setKind m kind
      else if r.state ≠ .inTransit then c.readMoved m l kind r
      else if c.inTransitAt m l || (c.claimedBy l own == some (some m)) then c.setKind m kind
      else c.readContradicts m l kind

/-- The reader-result rule at a location (R28). `own` is the move whose report carries the read. A read that
another dispatched move's claim sets aside only puts the location in the rescan queue. RECONCILED carries the previous
location of the record placed at L, and none where the read places none; the record displaced is the one that L named
before and names no more, one that an UNREADABLE read leaves IN_DOUBT among them (DESIGN CHOICE, assumption 56). -/
def Part.readAt (c : Part) (l : Nat) (read : Read) (kind : Nat) (own : Option Nat) : Part :=
  let read := read.norm
  let mine : Option Nat := match read with
    | .id x => (c.findId x).map (·.1)
    | _ => none
  let aside := match c.claimedBy l own with
    | some k => !(k.isSome && k == mine)
    | none => false
  if aside then c.rescan l
  else
    let c0 := c.unrescan l
    let before := mine.bind fun m => (c0.rec? m).map (·.place)
    let k := (c0.occ l).resident
    let c1 := ({ c0 with out := [] }.applyRead l read kind own).endForeignReturn l
    let placed := (c1.occ l).resident
    let moved := match placed, before with
      | some m, some p => mine == some m && decide (p ≠ Place.loc l)
      | _, _ => false
    let changed := moved || !(c0.occ l).same (c1.occ l)
    let gone := if k == placed then none else k
    let from_ := if placed.isSome && placed == mine then before else none
    let note := if changed then some (Subject.reconciled l read placed from_ gone) else none
    { c1 with out := c0.out ++ orderNotices c1.out note }

end Sys2Proof.Machine
end

