-- ==== Sys2Proof/Machine/Purge.lean ====
section
/-! DEFINITION. The Purge Scheduler: changes of a zone's standing (R64, R66), interval expiries (R63), the purge
supply (R67, R68), the ends of a pass (R70 to R75) and seal faults (R76). -/

namespace Sys2Proof.Machine

/-! ### Standing -/

/-- After a change of zone z's record or configuration: the notices of entering or leaving PURGE_DISABLED (R66),
then the accounts of the zone's reticles (R47) and slot available (R64). `dis` and `prot` are the standing before
the change. -/
def Part.zoneSettled (c : Part) (z : Nat) (dis prot : Bool) : Part :=
  let c1 :=
    if c.zoneDisabled z && !dis then
      c.say (.zoneDisabled z ((c.zone z).failures == 2) (c.zone z).supplyFault)
    else if !c.zoneDisabled z && dis then c.say (.zoneRestored z)
    else c
  if c.protective z = prot then c1
  else
    let c2 := c1.fixZone z
    if c.protective z && c.zoneHasVacant z then c2.signal .slotAvailable else c2

/-- Change a zone record, with every consequence of the change of its standing. -/
def Part.updZone (c : Part) (z : Nat) (f : Zone → Zone) : Part :=
  (c.putZone z (f (c.zone z))).zoneSettled z (c.zoneDisabled z) (c.protective z)

/-- The channel a zone names is not usable (R66). -/
def Part.supplyBad (c : Part) (z : Nat) : Bool :=
  let g := c.zoneCfg z
  if g.manifold = 0 then true
  else
    match c.node? g.manifold with
    | some n =>
      match n.caps with
      | some k => !(n.state = .present && n.kind = .manifold && g.channel < k.channels)
      | none => true
    | none => true

/-- The pass of a zone fails on manifold loss (R75): PURGE_FAILED is set, the failure count stays. -/
def Part.failOnLoss (c : Part) (z : Nat) : Part :=
  match (c.zone z).pass with
  | some q =>
    (c.updZone z fun r => { r with pass := none, failedFlag := true }).say
      (.purgeFailed z q.number .nodeLost (c.zone z).failures)
  | none => c

/-- Evaluate a zone's supply fault (R66). A pass still in progress on a channel found unusable ends first, as on
manifold loss, so that PURGE_DISABLED and PURGING do not hold together (R62; assumption 21). -/
def Part.evalSupply (c : Part) (z : Nat) : Part :=
  let bad := c.supplyBad z
  let c1 := if bad && !(c.zone z).supplyFault then c.failOnLoss z else c
  c1.updZone z fun r => { r with supplyFault := bad }

/-- The enumeration in progress is one of a cold or warm start, during which supply faults stand (R66, R80). -/
def Part.starting (c : Part) : Bool :=
  match c.bus.enum with
  | some e => decide (e.cause ≠ .busReset)
  | none => false

/-- The roster entry of an address has changed: the supply fault of each zone that names it is evaluated
(R66), by zone number, an order that the rule leaves open (DESIGN CHOICE, assumption 61). -/
def Part.rosterChanged (c : Part) (a : Nat) : Part :=
  if c.starting then c
  else c.each 16 fun c z => if (c.zoneCfg z).manifold = a then c.evalSupply z else c

/-- A manifold has become LOST or ABSENT, or has left the plan (R75): the passes of its zones fail, by zone number, and then
its zones become PURGE_DISABLED, by zone number, an order that the rule leaves open (DESIGN CHOICE, assumption 61). -/
def Part.manifoldLoss (c : Part) (a : Nat) : Part :=
  (c.each 16 fun c z => if (c.zoneCfg z).manifold = a then c.failOnLoss z else c).rosterChanged a

/-! ### Intervals -/

/-- Seconds of the live purge interval. -/
def Part.interval (c : Part) : Nat := 60 * c.sched.tInt

/-- The interval of a zone has passed (R63): B falls, or below -4 the zone becomes OVERDUE. -/
def Part.intervalPassed (c : Part) (z : Nat) : Part :=
  let timer := some (c.now + c.interval)
  if -4 < (c.zone z).b then c.updZone z fun r => { r with timer := timer, b := r.b - 1 }
  else if (c.zone z).overdue then c.updZone z fun r => { r with timer := timer }
  else
    (c.say (.purgeOverrun z)).updZone z fun r =>
      { r with timer := timer, overdue := true, overrunFlag := true }

/-- A zone's interval timer expires (R63). A stopped one does not. -/
def Part.intervalExpired (c : Part) (z : Nat) : Part :=
  match (c.zone z).timer with
  | none => c
  | some t => (c.reach t).intervalPassed z

/-! ### The purge supply -/

/-- Passes in progress. -/
def Part.passes (c : Part) : Nat := ((List.range 16).filter fun z => (c.zone z).pass.isSome).length

/-- Another zone has a pass in progress on the same manifold channel (R67). -/
def Part.channelBusy (c : Part) (z : Nat) : Bool :=
  (List.range 16).any fun y =>
    y != z && (c.zone y).pass.isSome && (c.zoneCfg y).manifold == (c.zoneCfg z).manifold
      && (c.zoneCfg y).channel == (c.zoneCfg z).channel

/-- A zone's class as a candidate for a pass, 0 urgent, 1 due, 2 pull-in (R67). -/
def Part.candidacy (c : Part) (z : Nat) : Option Nat :=
  let r := c.zone z
  let touched := c.mv.moves.any fun m => m.touches z
  let running := c.mv.moves.any fun m => m.granted && m.touches z
  if !c.zoneRequired z || r.pass.isSome || c.channelBusy z || c.ctl.stop || c.ctl.mode = .start then none
  else match c.zoneState z with
    | .urgent => if running then none else some 0
    | .due => if touched then none else some 1
    | .current =>
      if !touched && ((r.b < 4 && c.wanting z) || (c.ctl.pending && !r.mark)) then some 2 else none
    | _ => none

/-- The first candidate: by class, then lower B, then lower zone number (R68). -/
def Part.firstCandidate (c : Part) : Option Nat :=
  (List.range 16).foldl (fun best z =>
    match c.candidacy z, best with
    | none, _ => best
    | some _, none => some z
    | some k, some y =>
      match c.candidacy y with
      | some l => if k < l ∨ (k = l ∧ (c.zone z).b < (c.zone y).b) then some z else best
      | none => some z) none

/-- Issue a pass to a zone (R68). -/
def Part.issuePass (c : Part) (z : Nat) : Part :=
  let n := (c.zone z).nextPass
  (c.putZone z { c.zone z with pass := some ⟨n, c.now, c.sched.purgeMax⟩, nextPass := (n + 1) % 256 }).manifoldOrder
    z (.purgeStart (c.zoneCfg z).channel n)

/-- The purge supply issues one pass, if a unit is free and a zone is a candidate (R68). -/
def Part.supplyOnce (c : Part) : Option Part :=
  if c.passes < c.sched.concurrency then c.firstCandidate.map c.issuePass else none

/-! ### Ends of a pass -/

/-- A pass succeeds (R71): B rises, the zone leaves OVERDUE and its reticles are settled, protected and credited in
the order of R51, the failure count becomes 0 and the standalone mark is set. -/
def Part.passSucceeds (c : Part) (z : Nat) : Part :=
  (c.updZone z fun r =>
    { r with pass := none, b := if r.b < 4 then r.b + 1 else r.b, overdue := false, failures := 0, mark := true
    }).creditZone z

/-- A pass fails (R72); on a timeout PURGE_ABORT follows it to the manifold. -/
def Part.passFails (c : Part) (z : Nat) (cause : PassFail) : Part :=
  match (c.zone z).pass with
  | none => c
  | some q =>
    let n := min 2 ((c.zone z).failures + 1)
    let c1 := (c.say (.purgeFailed z q.number cause n)).updZone z fun r =>
      { r with pass := none, failedFlag := true, failures := n }
    if cause = .timeout then c1.manifoldOrder z (.purgeAbort (c.zoneCfg z).channel) else c1

/-- The pass timer of a zone expires (R72). Without a pass there is none. -/
def Part.passExpired (c : Part) (z : Nat) : Part :=
  match (c.zone z).pass with
  | none => c
  | some q => (c.reach (q.issued + q.limit)).passFails z .timeout

/-- The zone whose pass in progress a PURGE_DONE report answers (R71). -/
def Part.passFor (c : Part) (a channel pass : Nat) : Option Nat :=
  (List.range 16).find? fun z =>
    (c.zoneCfg z).manifold == a && (c.zoneCfg z).channel == channel
      && ((c.zone z).pass.any fun q => q.number == pass)

/-- A PURGE_DONE report (R71 to R73). The channel is taken in two bits (R193; DESIGN CHOICE, assumption 8). -/
def Part.purgeDone (c : Part) (a channel pass : Nat) (ok : Bool) : Part :=
  match c.passFor a (channel % 4) pass with
  | some z => if ok then c.passSucceeds z else c.passFails z .fail
  | none => c.say (.purgeLate a (channel % 4) pass ok)

/-- Abort the pass in progress in a zone (R74). -/
def Part.abortPass (c : Part) (z : Nat) : Part :=
  if (c.zone z).pass.isSome then
    (c.putZone z { c.zone z with pass := none }).manifoldOrder z (.purgeAbort (c.zoneCfg z).channel)
  else c

/-- Abort every pass in progress (R74), by zone number, an order that the rule leaves open (DESIGN CHOICE, assumption
61). -/
def Part.abortPasses (c : Part) : Part := c.each 16 Part.abortPass

/-- Clear every standalone mark (R77). -/
def Part.clearMarks (c : Part) : Part := c.each 16 fun c z => c.putZone z { c.zone z with mark := false }

/-- Every required zone carries its standalone mark (R77). -/
def Part.marksComplete (c : Part) : Bool :=
  (List.range 16).all fun z => !c.zoneRequired z || (c.zone z).mark

/-! ### Seal faults -/

/-- The reticle named by a slot follows a change of its SEAL_FAULT flag (R10, R11). -/
def Part.fixSlot (c : Part) (s : Nat) : Part :=
  match (c.occ s).resident with
  | some n => c.fixProtection n
  | none => c

/-- A SEAL_FAULT report from the node at an address (R76). -/
def Part.sealReport (c : Part) (a s : Nat) : Part :=
  if isSlot s ∧ (c.zoneCfg (columnOf s)).manifold = a then (c.raiseFlag s .sealed).fixSlot s else c

end Sys2Proof.Machine
end

