-- ==== Sys2Proof/Machine/Watch.lean ====
section
/-! DEFINITION. The Watch Unit's two evaluations (R140 to R143). -/

namespace Sys2Proof.Machine

/-- The reticle ID of a move (R141). -/
def Part.moveId (c : Part) (m : Move) : Option RetId := (m.reticle.bind c.rec?).map (·.id)

/-- A location is a slot within an entry's range (R141, R143). -/
def inRange (base len : Nat) (l : Option Nat) : Bool :=
  match l with
  | some l => isSlot l && base ≤ l && l < base + len
  | none => false

/-- An entry takes part at admission. -/
def WatchQual.atAdmission : WatchQual → Bool
  | .after => false
  | _ => true

/-- An entry takes part at placement. -/
def WatchQual.atPlace : WatchQual → Bool
  | .before => false
  | _ => true

/-- A condition matches a move at admission (R141). The location a SCAN reads stands as its source too. -/
def Part.matchesBefore (c : Part) (m : Move) (w : WatchEntry) : Bool :=
  w.qual.atAdmission &&
  match w.mtch with
  | .reticle id => c.moveId m == some id
  | .range base len => inRange base len (if m.kind = .scan then m.dst else m.src)
  | .port p => m.dst == some (posOf p)

/-- A condition matches a move at placement (R143). -/
def Part.matchesAfter (c : Part) (m : Move) (w : WatchEntry) : Bool :=
  w.qual.atPlace &&
  match w.mtch with
  | .reticle id => c.moveId m == some id
  | .range base len => inRange base len m.dst
  | .port p => m.src == some (posOf p)

/-- An entry counts for a move (R140). -/
def WatchEntry.counts (w : WatchEntry) (m : Move) : Bool :=
  match w.enable with
  | .off => false
  | .global => true
  | .job j =>
    match m.owner with
    | .step k _ => k == j
    | _ => false

/-- The indexes of the entries for which a test holds. -/
def watchHits (entries : List WatchEntry) (test : WatchEntry → Bool) : List Nat :=
  (List.range entries.length).filter fun i =>
    match entries[i]? with
    | some w => test w
    | none => false

/-- Set the match flags of the entries with these indexes (R142, R143). -/
def Part.flagWatch (c : Part) (hits : List Nat) : Part :=
  let entries := (List.range c.watch.entries.length).filterMap fun i =>
    (c.watch.entries[i]?).map fun w => if i ∈ hits then { w with flag := true } else w
  { c with watch := { c.watch with entries := entries } }

/-- The BEFORE evaluation holds the move (R142). -/
def Part.watchHolds (c : Part) (m : Move) : Bool :=
  c.watch.entries.any fun w => w.counts m && c.matchesBefore m w

/-- What the Watch Unit does as it holds a move (R142). -/
def Part.watchHold (c : Part) (m : Move) : Part :=
  let hits := watchHits c.watch.entries (c.matchesBefore m)
  let c1 := c.flagWatch hits
  ({ c1 with watch := { c1.watch with lastHold := some m.num } }).say
    (.watchHold m.num m.kind m.robot m.reticle (c.moveId m) m.src m.dst m.owner hits)

/-- The AFTER evaluation of a completed move (R143): the indexes of the entries to flag, none where no counting
entry matches. -/
def Part.afterHits (c : Part) (m : Move) : List Nat :=
  if c.watch.entries.any fun w => w.counts m && c.matchesAfter m w
  then watchHits c.watch.entries (c.matchesAfter m) else []

/-- What the Watch Unit does after a completed move whose evaluation gave `hits` (R143). -/
def Part.watchSeen (c : Part) (m : Move) (id : Option RetId) (hits : List Nat) : Part :=
  if hits.isEmpty then c
  else (c.flagWatch hits).say
    (.watchSeen m.num m.kind m.robot m.reticle id m.src m.dst m.passed hits)

end Sys2Proof.Machine
end

