-- ==== Sys2Proof/Machine/Rail.lean ====
section
/-! DEFINITION. Slot choice (R15 to R17), the admission of moves and the assignment of robots (R111 to R114), and
the rail (R117 to R121). -/

namespace Sys2Proof.Machine

/-! ### Intervals -/

/-- A robot is parked (R117). -/
def Part.parked (c : Part) (x : Side) : Bool := (c.robot x).held == some (x.park, x.park)

/-- An interval for robot x keeps the clearance from an interval of the other robot (R117). -/
def keepsClear (x : Side) (gap : Nat) (mine theirs : Nat × Nat) : Bool :=
  match x with
  | .a => mine.2 + gap + 1 ≤ theirs.1
  | .b => theirs.2 + gap + 1 ≤ mine.1

/-- The clearance test for an interval proposed for robot x (R117). -/
def Part.clearFor (c : Part) (x : Side) (i : Nat × Nat) : Bool :=
  c.parked x.other ||
  match (c.robot x.other).held with
  | some j => keepsClear x c.limits.clearSpans i j
  | none => false

/-! ### Slot choice -/

/-- A robot reaches a span without passing an unavailable robot (R17). -/
def Part.reaches (c : Part) (x : Side) (s : Nat) : Bool :=
  let y := c.robot x.other
  (c.robot x).available && 1 ≤ s && s ≤ 16 &&
  (y.available || (y.state = .disabled && c.parked x.other) ||
   match y.held with
   | some j => keepsClear x c.limits.clearSpans (s, s) j
   | none => false)

/-- A span is reachable from a source span (R17). -/
def Part.reachable (c : Part) (s src : Nat) : Bool :=
  (c.reaches .a s && c.reaches .a src) || (c.reaches .b s && c.reaches .b src)

/-- The destinations and reserved destinations of the move list (R112). -/
def Part.reserved (c : Part) : List Nat := c.mv.moves.filterMap (·.dst)

/-- The locations that moves of the list are to place a pod at (R104); a SCAN only reads its location. -/
def Part.placements (c : Part) : List Nat := (c.mv.moves.filter fun m => m.kind != .scan).filterMap (·.dst)

/-- The slots that moves bar from slot choice (R15): the destinations of moves not yet granted, and those of granted
moves that carry a pod. Such a destination stays VACANT for a pod with no record, marked as the move's (R121), and is no
candidate (DEDUCED, assumption 62). -/
def Part.barred (c : Part) : List Nat :=
  (c.mv.moves.filter fun m => !m.granted || m.kind != .scan).filterMap (·.dst)

/-- The lowest candidate slot of a zone (R15), its reachability apart. -/
def Part.candidateIn (c : Part) (kind z : Nat) : Option Nat :=
  if c.protective z then
    (c.inv.occ.find? fun e =>
      isSlot e.1 && columnOf e.1 == z && c.eligibleDst e.1 kind && !(c.barred.contains e.1)).map (·.1)
  else none

/-- Slot choice (R15, R16): the candidate of highest zone balance, then nearest the reference column, then of the
lowest number. `ok` is a further condition on the candidate's zone (R127). -/
def Part.chooseSlot (c : Part) (kind ref src : Nat) (ok : Nat → Bool) : Option Nat :=
  let better := fun (z y : Nat) =>
    decide ((c.zone y).b < (c.zone z).b ∨ ((c.zone y).b = (c.zone z).b ∧ dist z ref < dist y ref))
  (List.range 16).foldl (fun best z =>
    if ok z && c.reachable (z + 1) src then
      match c.candidateIn kind z, best with
      | none, _ => best
      | some s, none => some s
      | some s, some t => if better z (columnOf t) then some s else best
    else best) none

/-! ### Admission -/

/-- What a block asks of the Move Scheduler: a move to be admitted (R112). A destination `none` is ANY, with its reference column. -/
structure Ask where
  kind    : MoveKind
  src     : Option Nat
  dst     : Option Nat
  ref     : Nat
  podKind : Nat
  owner   : Owner
  robot   : Option Side
  express : Bool
  ready   : Option Nat
  forced  : Bool
  deriving DecidableEq, Repr

/-- The mode admits moves (R112). -/
def Mode.admits : Mode → Bool
  | .normal | .maintenance | .standalone => true
  | _ => false

/-- A robot's planned span (R113): that of its latest admitted move that is not HELD, and without one its current
span, its yield target while YIELDING. A move that is putting its pod back has no destination, and its source stands
for it (DESIGN CHOICE, assumption 18). -/
def Part.plannedSpan (c : Part) (x : Side) : Nat :=
  match (c.mv.moves.filter fun m => m.robot = x ∧ m.state ≠ .held).getLast? with
  | some m =>
    match m.dst <|> m.src with
    | some l => c.tables.spanAt l
    | none => 0
  | none =>
    match (c.robot x).state, (c.robot x).yieldTo with
    | .yielding, some t => t.1
    | _, _ => (c.robot x).span.getD x.park

/-- The robot a move from a span is assigned to (R113). -/
def Part.assign (c : Part) (own : Option Side) (src : Nat) : Option Side :=
  match own with
  | some x => if (c.robot x).available then some x else none
  | none =>
    match c.mv.robotA.available, c.mv.robotB.available with
    | false, false => none
    | true, false => some .a
    | false, true => some .b
    | true, true => if dist (c.plannedSpan .b) src < dist (c.plannedSpan .a) src then some .b else some .a

/-- The standing of the pod at a source (R112): its record with that record's state, or FOREIGN. -/
def Part.podStanding (c : Part) (l : Nat) : Option (Option (Nat × RState)) :=
  match c.occ l with
  | .occupied n _ => (c.rec? n).map fun r => some (n, r.state)
  | .foreign _ => some none
  | _ => none

/-- The source column of the table of R112. -/
def sourceFits (k : MoveKind) (l : Nat) (pod : Option (Nat × RState)) : Bool :=
  match k, pod with
  | .deliver, some (_, .idle) | .relocate, some (_, .idle) => isSlot l
  | .cross, some (_, .returned) | .store, some (_, .returned) | .store, none => (portOf l).isSome
  | .manual, some (_, .idle) | .manual, some (_, .returned) | .manual, none => isPlace l
  | _, _ => false

/-- The destination column of the table of R112, for a named destination. -/
def destFits (k : MoveKind) (src dst : Nat) : Bool :=
  src != dst &&
  match k with
  | .deliver | .cross => (portOf dst).isSome
  | .store | .relocate => isSlot dst
  | .manual => isPlace dst
  | .scan => false

/-- The pod kind of a move (R14): that of its record, or the kind given for a pod with no record. -/
def Part.kindOf (c : Part) (n : Option Nat) (given : Nat) : Nat :=
  match n.bind c.rec? with
  | some r => r.kind
  | none => given

/-- The fourth condition of R112: the locations meet the table, R14 and the reservations. The answer is the reticle
of the move. -/
def Part.locationsFit (c : Part) (q : Ask) : Option (Option Nat) :=
  match q.kind, q.src, q.dst with
  | .scan, _, some d => if isPlace d && c.inPlanAt d then some none else none
  | .scan, _, none => none
  | k, some s, d =>
    match c.podStanding s with
    | none => none
    | some pod =>
      let n := pod.map (·.1)
      let src := sourceFits k s pod && c.eligibleSrc s && !(c.mv.moves.any fun m => m.src == some s) &&
        (match n with
         | some n => !c.inMove n
         | none => true)
      let dst := match d with
        | some d => destFits k s d && c.eligibleDst d (c.kindOf n q.podKind) && !(c.reserved.contains d)
        | none => k = .store || k = .relocate
      if src && dst then some n else none
  | _, none, _ => none

/-- The number of the next move: the first from the one after the last given that no move carries (R111). -/
def Part.nextNumber (c : Part) : Nat :=
  (((List.range 256).map fun i => (c.mv.nextNum + i) % 256).find? fun n =>
    !(c.mv.moves.any fun m => m.num == n)).getD c.mv.nextNum

/-- Put an admitted move at the tail of the list, HELD or PENDING by the BEFORE evaluation (R111, R114, R142). -/
def Part.enlist (c : Part) (m : Move) : Part :=
  let held := c.watchHolds m
  let m1 := if held then { m with state := .held } else m
  let c1 := { c with mv := { c.mv with
    moves := c.mv.moves ++ [m1], nextNum := (m.num + 1) % 256, lastSeq := m.seq } }
  let c2 := match m.reticle with
    | some n => c1.signal (.reticle n)
    | none => c1
  if held then c2.watchHold m1 else c2

/-- The pod kind given with a pass-through leg becomes that of the FOREIGN pod at its source (R14, R134). -/
def Part.giveKind (c : Part) (m : Move) : Part :=
  match m.kind, m.src, m.podKind with
  | .manual, some s, some k => c.putOcc s (.foreign k)
  | _, _, _ => c

/-- The move an ask becomes (R110, R112). The first move after a start carries admission sequence 1 (assumption 44); a
pod kind is held for a pod with no record alone. -/
def Part.moveOf (c : Part) (q : Ask) (x : Side) (n dst : Option Nat) : Move where
  num        := c.nextNumber
  seq        := c.mv.lastSeq + 1
  kind       := q.kind
  robot      := x
  src        := q.src
  dst        := dst
  refColumn  := if q.dst.isNone then some q.ref else none
  reticle    := n
  podKind    := if n.isNone && q.kind != .scan then some q.podKind else none
  owner      := q.owner
  state      := .pending
  express    := q.express
  passed     := false
  putBack    := false
  pickRead   := none
  dispatched := none
  ready      := q.ready
  forced     := q.forced

/-- Admission (R112): the changed blocks with the move, or the code of the first condition that fails. A deferral
of the Job Engine or the Inventory is BUSY or NO_ROBOT. -/
def Part.admitAsk (c : Part) (q : Ask) : Except Result (Part × Move) :=
  let srcSpan := match q.src <|> q.dst with
    | some l => c.tables.spanAt l
    | none => 0
  if !c.ctl.mode.admits then .error .wrongMode
  else if !c.hasRoom q.kind then .error .busy
  else match c.assign q.robot srcSpan with
    | none => .error .noRobot
    | some x =>
      match c.locationsFit q with
      | none => .error .wrongState
      | some n =>
        let dst := match q.dst with
          | some d => some d
          | none => c.chooseSlot (c.kindOf n q.podKind) q.ref srcSpan fun _ => true
        match dst with
        | none => .error .noSlot
        | some d =>
          let m := c.moveOf q x n (some d)
          .ok ((c.enlist m).giveKind m, { m with state := if c.watchHolds m then .held else .pending })

/-- Moves whose robot is unavailable go to the other robot where that one is available (R113). `held` says that HELD moves
go too: in FAIL_SAFE they do so only in the events of R113, R116 and R131, since the entry itself leaves them with their
robots (R148; assumption 47). -/
def Part.reassign (c : Part) (held : Bool) : Option Part :=
  let due := fun (m : Move) =>
    (m.state = .pending || (m.state = .held && held)) && m.kind != .manual
      && !(c.robot m.robot).available && (c.robot m.robot.other).available
  if c.mv.moves.any due then
    some { c with mv := { c.mv with
      moves := c.mv.moves.map fun m => if due m then { m with robot := m.robot.other } else m } }
  else none

/-! ### The arbiter -/

/-- The kind is granted in the mode (R118). -/
def Mode.grants : Mode → MoveKind → Bool
  | .normal, _ | .maintenance, _ => true
  | .standalone, .relocate | .standalone, .scan | .standalone, .manual => true
  | _, _ => false

/-- A robot's candidate (R118): express moves first, then by admission sequence. -/
def Part.candidate (c : Part) (x : Side) : Option Move :=
  if (c.robot x).state = .idle then
    let fit := fun (m : Move) =>
      m.robot == x && m.state == .pending && c.ctl.mode.grants m.kind && !c.touchesClosed m
    (c.mv.moves.find? fun m => m.express && fit m) <|> (c.mv.moves.find? fit)
  else none

/-- Move m ranks ahead of move k (R118). -/
def Move.ahead (m k : Move) : Bool :=
  if m.express = k.express then m.seq < k.seq else m.express

/-- The needed interval of a move for its robot (R117). -/
def Part.needed (c : Part) (x : Side) (m : Move) : Option (Nat × Nat) :=
  match (c.robot x).span with
  | none => none
  | some s =>
    let i0 := (s, s)
    let i1 := match m.src with
      | some l => widen i0 (c.tables.spanAt l)
      | none => i0
    some (match m.dst with
      | some l => widen i1 (c.tables.spanAt l)
      | none => i1)

/-- The source still holds the pod the move was admitted with (R121). -/
def Part.sourceHolds (c : Part) (m : Move) : Bool :=
  match m.src with
  | none => false
  | some s =>
    (match m.reticle, c.occ s with
     | some n, .occupied k _ => n == k
     | none, .foreign _ => true
     | _, _ => false) && c.eligibleSrc s

/-- What the Job Engine does at the dispatch of a move it owns (R96, R100): a delivery step becomes MOVING, and
idle is sent when the job's last step is dispatched. -/
def Part.dispatched (c : Part) (m : Move) : Part :=
  match m.owner with
  | .step j k =>
    match c.job? j with
    | some r =>
      if r.kind = .deliver then
        let c1 := c.setStep j k fun st => { st with state := .moving }
        if k + 1 = r.steps.length then c1.sendIdle j else c1
      else c
    | none => c
  | _ => c

/-- The job step a move belongs to, which its reticle then refers to (R22, R23). -/
def Move.stepRef (m : Move) : Option (Nat × Nat) :=
  match m.owner with
  | .step j k => some (j, k)
  | _ => none

/-- The occupancies and the record of a granted move (R121). -/
def Part.grantPlaces (c : Part) (m : Move) : Part :=
  match m.reticle, m.src, m.dst with
  | some n, some s, some d =>
    ((c.setOcc s (.outbound n (c.occ s).verified)).setOcc d (.inbound n)).updRec n fun r =>
      { r with state := .inTransit, job := m.stepRef <|> r.job }
  | _, _, _ => c

/-- Dispatch a move whose locations have passed, with the interval it needs (R121). -/
def Part.dispatch (c : Part) (x : Side) (m : Move) (i : Nat × Nat) : Part :=
  let m1 := { m with state := .dispatched, dispatched := some (c.now, c.now + c.limits.moveTimeout) }
  let c1 := (c.setRobot x { c.robot x with state := .busy, held := some i, current := some m.num }).putMove m1
  let order := match m.kind, m.src, m.dst with
    | .scan, _, some d => some (Order.scanAt m.num (c.tables.coord d))
    | _, some s, some d => some (Order.moveLeg m.num (c.tables.coord s) (c.tables.coord d))
    | _, _, _ => none
  let c2 := match order with
    | some o => c1.robotOrder x o
    | none => c1
  c2.dispatched m

/-- Grant a move, its locations tested again (R121). `i` is its needed interval. -/
def Part.grant (c : Part) (x : Side) (m : Move) (i : Nat × Nat) : Part :=
  if m.kind = .scan then c.dispatch x m i
  else if !c.sourceHolds m then c.cancelMove m .atGrant
  else
    let kind := c.kindOf m.reticle (((m.src.map c.foreignKind)).getD 0)
    match m.dst with
    | none => c.cancelMove m .atGrant
    | some d =>
      if c.eligibleDst d kind then (c.grantPlaces m).dispatch x m i
      else match m.refColumn with
        | none => c.cancelMove m .atGrant
        | some ref =>
          let src := match m.src with
            | some s => c.tables.spanAt s
            | none => 0
          match c.chooseSlot kind ref src fun _ => true with
          | none => c.cancelMove m .atGrant
          | some d' => c.putMove { m with dst := some d' }

/-- The target of a yield for an interval, sent to robot y (R120). -/
def Part.yieldTarget (c : Part) (y : Side) (i : Nat × Nat) : Nat :=
  let gap := c.limits.clearSpans + 1
  match y with
  | .b => if 16 < i.2 + gap then 17 else i.2 + gap
  | .a => if i.1 < gap + 1 then 0 else i.1 - gap

/-- Issue a yield (R120). -/
def Part.issueYield (c : Part) (y : Side) (target : Nat) : Part :=
  let r := c.robot y
  let from_ := r.span.getD target
  (c.setRobot y { r with
    state := .yielding, held := some (hull from_ target)
    yieldTo := some (target, c.now + c.limits.moveTimeout) }).robotOrder y (.yieldTo target)

/-- The arbiter takes one candidate (R119); `none` where it must wait. -/
def Part.arbitrate (c : Part) (x : Side) (m : Move) : Option Part :=
  let y := x.other
  match c.needed x m with
  | none => none
  | some i =>
    if c.clearFor x i then some (c.grant x m i)
    else if (c.robot y).state = .idle ∧ (c.robot y).held.isSome ∧ (c.robot x).held.isSome then
      match c.candidate y with
      | some k =>
        match c.needed y k with
        | some j =>
          if c.clearFor y j && keepsClear y c.limits.clearSpans j i then some (c.grant y k j)
          else some (c.issueYield y (c.yieldTarget y i))
        | none => some (c.issueYield y (c.yieldTarget y i))
      | none => some (c.issueYield y (c.yieldTarget y i))
    else none

/-- The arbiter is considered (R119): the candidates in precedence order, the first that can be acted on. -/
def Part.railOnce (c : Part) : Option Part :=
  match c.candidate .a, c.candidate .b with
  | none, none => none
  | some m, none => c.arbitrate .a m
  | none, some k => c.arbitrate .b k
  | some m, some k =>
    if m.ahead k then c.arbitrate .a m <|> c.arbitrate .b k
    else c.arbitrate .b k <|> c.arbitrate .a m

end Sys2Proof.Machine
end

