-- ==== Sys2Proof/Machine/Jobs.lean ====
section
/-! DEFINITION. The Job Engine: activation (R89), delivery attempts (R93 to R95), port returns (R101 to R104),
service requests (R82, R83, R99), the ends of an offer (R41, R98) and cancellation (R91). -/

namespace Sys2Proof.Machine

/-! ### Delivery steps -/

/-- The delivery step a port's READY would serve (R94): the port's conditions hold, and the head step of its
active delivery job is PENDING or WAITING. Job, step index, step, its ID and D, and the READY's time. -/
def Part.readyStep (c : Part) (p : Nat) : Option (Nat × Nat × Step × RetId × Nat × Nat) :=
  let pt := c.port p
  if c.ctl.mode = .normal ∧ pt.masked = false ∧ c.suspended p = false ∧ c.occ (posOf p) = .vacant then
    match pt.window, pt.active with
    | w :: _, some j =>
      match w.kind, (c.job? j).bind Job.head with
      | .ready, some (k, st) =>
        match st.work with
        | .deliver id d =>
          if st.state = .pending ∨ st.state = .waiting then some (j, k, st, id, d, w.time) else none
        | _ => none
      | _, _ => none
    | _, _ => none
  else none

/-- The oldest entry of a port's window leaves it: a READY served (R83). -/
def Part.popReady (c : Part) (p : Nat) : Part :=
  c.putPort p { c.port p with window := (c.port p).window.drop 1 }

/-- A port return of a record stands at another port than q: it is handled again (R101). -/
def Part.signalReturns (c : Part) (q n : Nat) : Part :=
  c.each 8 fun c p =>
    if p ≠ q ∧ (c.port p).ret.any fun t => decide (t.pod = Pod.record n) then c.signal (.handle p) else c

/-- The record that the head step of port q's active delivery job waits for (R95). -/
def Part.awaits (c : Part) (q : Nat) : Option Nat :=
  match ((c.port q).active.bind c.job?).bind Job.head with
  | some (_, st) =>
    match st.work with
    | .deliver id _ => if st.state = .waiting then (c.findId id).map (·.1) else none
    | .ret .. => none
  | none => none

/-- The returns of the pod that port q's head step waits for are handled again (R101). -/
def Part.tellReturns (c : Part) (q : Nat) : Part :=
  match c.awaits q with
  | some n => c.signalReturns q n
  | none => c

/-- A PENDING step of port q that finds its reticle unavailable becomes WAITING (R95); a return of that reticle at another
port is handled again (R101). A step that is WAITING waits on. -/
def Part.waitStep (c : Part) (q j k : Nat) (st : Step) : Part :=
  if st.state = .pending then
    (c.setStep j k fun st => { st with
      state := .waiting, since := some c.now
      expiry := if c.limits.stepWaitMax = 0 then none else some (c.now + c.limits.stepWaitMax) }).tellReturns q
  else c

/-- The express flag of a move admitted for a step (R93). -/
def Part.expressFor (c : Part) (j : Nat) : Bool :=
  match c.job? j with
  | some r => r.express && (c.port r.port).express
  | none => false

/-- A delivery step takes its reticle: record and step RESERVED, the READY served (R94, R102). -/
def Part.reserve (c : Part) (n j k p : Nat) (m : Move) : Part :=
  ((c.updRec n fun r => { r with state := .reserved, job := some (j, k) }).setStep j k fun st =>
    { st with state := .reserved, expiry := none, since := none, move := some m.num }).popReady p

/-- The tests of an IDLE record that is the reticle of no move, after its settlement (R94): the result on the first
that fails. -/
def Part.deliveryTests (c : Part) (r : Rec) (held : Bool) (slot p d : Nat) : Option StepResult :=
  if held then some .skippedHold
  else if !c.eligibleSrc slot then some .slotFault
  else if !accepts (c.portCfg p).kinds r.kind then some .slotFault
  else if c.limits.eHold ≤ c.projected r d then some .skippedExposure
  else none

/-- The head delivery step of a port is attempted (R94). -/
def Part.attempt (c : Part) (p : Nat) : Part :=
  match c.readyStep p with
  | none => c
  | some (j, k, st, id, d, t) =>
    match c.findId id with
    | none => c.waitStep p j k st
    | some (n, r) =>
      match r.place with
      | .loc s =>
        if r.state = .idle ∧ c.inMove n = false then
          let c1 := c.settle n
          let r1 := (c1.rec? n).getD r
          match c1.deliveryTests r1 r.held s p d with
          | some res => c1.endStep j k res (some n) true
          | none =>
            match c1.admitAsk ⟨.deliver, some s, some (posOf p), 0, r1.kind, .step j k, none, c1.expressFor j,
                some t, false⟩ with
            | .error _ => c1
            | .ok (c2, m) => c2.reserve n j k p m
        else c.waitStep p j k st
      | _ => c.waitStep p j k st

/-! ### Returns -/

/-- The return at a port takes its move; a RETURN_WAITING it holds leaves the window (R102 to R104). -/
def Part.returnTakes (c : Part) (p : Nat) (m : Move) : Part :=
  match (c.port p).ret with
  | some r => (c.putPort p { c.port p with ret := some { r with move := some m.num } }).serveReturn p
  | none => c

/-- A port whose waiting step would take a record, the exposure test apart (R102): job, step, D, the READY's
acknowledgment and the time since which the step has waited. -/
def Part.crossPort (c : Part) (q : Nat) (r : Rec) : Option (Nat × Nat × Nat × Nat × Nat) :=
  match c.readyStep q with
  | some (j, k, st, id, d, t) =>
    if st.state = .waiting ∧ id = r.id ∧ accepts (c.portCfg q).kinds r.kind then
      some (j, k, d, t, st.since.getD 0)
    else none
  | none => none

/-- The ports a record may cross to, in the order of choice: waiting longest, then lower number (R102). -/
def Part.crossPorts (c : Part) (r : Rec) (test : Bool) : Option Nat :=
  (List.range 8).foldl (fun best q =>
    match c.crossPort q r with
    | none => best
    | some (_, _, d, _, since) =>
      if test && c.limits.eHold ≤ c.projected r d then best
      else match best.bind fun y => c.crossPort y r with
        | some (_, _, _, _, s0) => if since < s0 then some q else best
        | none => some q) none

/-- The cross case (R102): the blocks after the settlement of R56, and the move admitted if one was. -/
def Part.tryCross (c : Part) (p : Nat) (ret : PortReturn) : Part × Bool :=
  match ret.pod with
  | .foreign _ => (c, false)
  | .record n =>
    match c.rec? n with
    | none => (c, false)
    | some r =>
      if ret.forced ∨ r.held ∨ c.ctl.mode ≠ .normal ∨ c.crossPorts r false = none then (c, false)
      else
        let c1 := c.settle n
        match c1.rec? n with
        | none => (c1, false)
        | some r1 =>
          if r1.held then (c1, false)
          else match c1.crossPorts r1 true with
            | none => (c1, false)
            | some q =>
              match c1.crossPort q r1 with
              | none => (c1, false)
              | some (j, k, _, t, _) =>
                match c1.admitAsk ⟨.cross, some (posOf p), some (posOf q), 0, r1.kind, .step j k, none,
                    c1.expressFor j, some t, false⟩ with
                | .error _ => (c1, false)
                | .ok (c2, m) => ((c2.reserve n j k q m).returnTakes p m, true)

/-- The NO_SLOT notice of a return, once (R103). -/
def Part.sayNoSlot (c : Part) (p : Nat) (ret : PortReturn) : Part :=
  if ret.noticeSent then c
  else (c.say (.noSlot p ret.pod)).putPort p { c.port p with ret := some { ret with noticeSent := true } }

/-- The RETURN_WAITING notice of a return, once (R103, R104). -/
def Part.sayWaiting (c : Part) (p : Nat) (ret : PortReturn) : Part :=
  if ret.waitSent then c
  else (c.say (.returnWaiting p ret.pod)).putPort p { c.port p with ret := some { ret with waitSent := true } }

/-- The store case (R103). The kind of a FOREIGN pod is the one last reported for it (R14). -/
def Part.storeReturn (c : Part) (p : Nat) (ret : PortReturn) : Part :=
  match c.ctl.mode with
  | .normal | .maintenance =>
    match c.admitAsk ⟨.store, some (posOf p), none, (c.portCfg p).column, c.foreignKind (posOf p), .portReturn p, none,
        false, none, ret.forced⟩ with
    | .ok (c1, m) => c1.returnTakes p m
    | .error .noSlot => c.sayNoSlot p ret
    | .error _ => c
  | .standalone => c.sayWaiting p ret
  | _ => c

/-- A return step's tests (R104): the result on the first that fails. -/
def Part.returnTests (c : Part) (p : Nat) (ret : PortReturn) (dest : Dest) (expect : Option RetId) :
    Option StepResult :=
  let r := match ret.pod with
    | .record n => c.rec? n
    | .foreign _ => none
  let named : Bool := match expect with
    | some x => !(r.any fun r => decide (r.id = x))
    | none => false
  let kind := match r with
    | some r => r.kind
    | none => c.foreignKind (posOf p)
  if named then some .mismatch
  else match dest with
    | .slot s => if c.eligibleDst s kind ∧ isSlot s ∧ s ∉ c.placements then none else some .slotFault
    | .any => none

/-- The directed case (R104). A return that no ACTIVE RETURN job serves waits; `Part.waitingOnce` says so. A step that fails
names the record of the pod tested as its reticle, and with a FOREIGN pod that of the ID it expects (DESIGN CHOICE,
assumption 59). -/
def Part.directedReturn (c : Part) (p : Nat) (ret : PortReturn) : Part :=
  let act := (c.port p).active.bind fun j => (c.job? j).map fun r => (j, r)
  match act with
  | none => c
  | some (j, r) =>
    if r.kind = .deliver then c
    else if c.ctl.mode ≠ .normal ∧ c.ctl.mode ≠ .maintenance then c
    else match r.head with
      | none => c
      | some (k, st) =>
        match st.state, st.work with
        | .pending, .ret dest expect =>
          match c.returnTests p ret dest expect with
          | some res => c.endStep j k res (match ret.pod with
              | .record n => some n
              | .foreign _ => none) true
          | none =>
            let dst := match dest with
              | .slot s => some s
              | .any => none
            match c.admitAsk ⟨.store, some (posOf p), dst, (c.portCfg p).column, c.foreignKind (posOf p), .step j k,
                none, c.expressFor j, none, ret.forced⟩ with
            | .ok (c1, m) =>
              (c1.setStep j k fun st => { st with state := .moving, move := some m.num }).returnTakes p m
            | .error .noSlot => c.sayNoSlot p ret
            | .error _ => c
        | _, _ => c

/-- The record of a pod carries a hold. -/
def Part.podHeld (c : Part) : Pod → Bool
  | .record n => (c.rec? n).any Rec.held
  | .foreign _ => false

/-- A return that no event can move for now: it has its move, its port is masked or suspended, or the mode admits no work
(R101, R107). -/
def Part.returnRests (c : Part) (p : Nat) (ret : PortReturn) : Bool :=
  ret.move.isSome || (c.port p).masked || c.suspended p || !c.ctl.mode.admits

/-- A port's return is handled (R101): the cases of R102 to R104, the first that applies. -/
def Part.handleReturn (c : Part) (p : Nat) : Part :=
  match (c.port p).ret with
  | none => c
  | some ret =>
    if c.returnRests p ret then c
    else
      let (c1, crossed) := c.tryCross p ret
      if crossed then c1
      else if ret.forced ∨ c1.podHeld ret.pod ∨ (c.portCfg p).directed = false then c1.storeReturn p ret
      else c1.directedReturn p ret

/-- The head return step of a port is attempted as the step before it has ended (R92): the case of R104 alone, since that is
none of the events on which R101 has the return handled from R102. -/
def Part.attemptReturn (c : Part) (p : Nat) : Part :=
  match (c.port p).ret with
  | none => c
  | some ret =>
    if c.returnRests p ret then c
    else if ret.forced ∨ c.podHeld ret.pod ∨ (c.portCfg p).directed = false then c
    else c.directedReturn p ret

/-- The port has an ACTIVE RETURN job (R104). -/
def Part.returning (c : Part) (p : Nat) : Bool :=
  ((c.port p).active.bind c.job?).any fun r => r.kind = .ret

/-- A DIRECTED port's return waits for a RETURN job, and RETURN_WAITING has not said so (R104). -/
def Part.waitsUnsaid (c : Part) (p : Nat) : Bool :=
  match (c.port p).ret with
  | none => false
  | some ret =>
    !ret.waitSent && ret.move.isNone && !ret.forced && !c.podHeld ret.pod && (c.portCfg p).directed
      && !(c.port p).masked && !c.suspended p && c.ctl.mode.admits && !c.returning p

/-- RETURN_WAITING of the first port whose return waits for a RETURN job (R104), once it is known that none is
activated for it and none is left. -/
def Part.waitingOnce (c : Part) : Option Part :=
  match (List.range 8).find? c.waitsUnsaid with
  | none => none
  | some p => (c.port p).ret.map fun ret => c.sayWaiting p ret

/-! ### Activation -/

/-- A port can activate (R89). -/
def Part.canActivate (c : Part) (p : Nat) : Bool :=
  c.ctl.mode = .normal && !(c.port p).masked && !c.suspended p && (c.port p).active.isNone

/-- Activate the head of a port's queue, or end a RETURN job on an AUTO port (R89). The head step of a delivery job is
attempted; the activation of a RETURN job has the port's return handled (R101). -/
def Part.activate (c : Part) (p j : Nat) : Part :=
  match c.job? j with
  | none => c.putPort p { c.port p with queue := (c.port p).queue.drop 1 }
  | some r =>
    if r.kind = .ret ∧ (c.portCfg p).directed = false then c.endJob j .cancelled
    else
      let c1 := c.putPort p { c.port p with
        queue := (c.port p).queue.drop 1, active := some j, idleSent := false }
      let c2 := (c1.updJob j fun r => { r with active := true }).portOrder p (.portJob true j r.kind)
      match r.kind with
      | .deliver => c2.signal (.attempt p)
      | .ret => c2.signal (.handle p)

/-- A port that can activate a job does, if its queue holds one (R89). -/
def Part.activateHead (c : Part) (p : Nat) : Part :=
  match (c.port p).queue with
  | j :: _ => if c.canActivate p then c.activate p j else c
  | [] => c

/-- The first port that can activate a job does (R89). Of several ports that can in one event the lowest is taken first, an
order that the rule leaves open (DESIGN CHOICE, assumption 58). -/
def Part.activateOnce (c : Part) : Option Part :=
  ((List.range 8).find? fun p => c.canActivate p && !(c.port p).queue.isEmpty).map c.activateHead

/-- A port is unmasked (R84): the head of its queue is activated, a RETURN job on an AUTO port giving way to the next,
then the head step is attempted and the return is handled. -/
def Part.unmask (c : Part) (p : Nat) : Part :=
  (((c.putPort p { c.port p with masked := false }).each 4 fun c _ => c.activateHead p).attempt p).handleReturn p

/-! ### Service requests -/

/-- LAST_NEEDED is served (R99). -/
def Part.lastNeeded (c : Part) (p : Nat) : Part :=
  match (c.port p).active with
  | none => c
  | some j =>
    match c.job? j with
    | none => c
    | some r =>
      if r.kind = .deliver ∧ r.early = false then
        ((c.updJob j fun r => { r with early := true }).markSteps j (fun s => s = .pending || s = .waiting)
          .skippedEarlyEnd).afterStep j false
      else c

/-- A port's service request is acknowledged (R82). -/
def Part.acknowledges (c : Part) (p : Nat) (q : SvcReq) : Bool :=
  let pt := c.port p
  let pos := posOf p
  (c.portCfg p).inPlan && c.ctl.mode.admits && !pt.masked && pt.window.length < 2 &&
  match q with
  | .returnWaiting .. =>
    !(pt.window.any WinEntry.isReturn) &&
    !(c.mv.moves.any fun m => m.src == some pos || m.dst == some pos) &&
    !((c.occ pos).resident.any fun n => (c.rec? n).any fun r => r.state = .presented || r.state = .withdrawing)
  | _ => true

/-- Two pods are the same one as far as the part can tell: the same record, or both FOREIGN. -/
def Pod.same : Pod → Pod → Bool
  | .record a, .record b => a == b
  | .foreign _, .foreign _ => true
  | _, _ => false

/-- The pod the reader-result rule found at a port position: the return already standing there takes the request,
or a new return is made (R101). That a return which takes the request is handled in the event, as a new one is, is a DESIGN
CHOICE (assumption 76). -/
def Part.chargeReturn (c : Part) (p : Nat) : Part :=
  match c.podAt (posOf p) with
  | none => c
  | some pod =>
    match (c.port p).ret with
    | some r =>
      if r.pod.same pod then c.signal (.handle p) else (c.putPort p { c.port p with ret := none }).newReturn p pod false
    | none => c.newReturn p pod false

/-- A SERVICE_REQUEST from the node of a port (R82, R83). A READY also gives the returns of the pod that the port's head
step waits for another handling, in every mode that acknowledges it (R101). -/
def Part.serviceRequest (c : Part) (p : Nat) (q : SvcReq) : Part :=
  if c.acknowledges p q = false then c
  else
    let join := fun (c : Part) (k : WinKind) =>
      c.putPort p { c.port p with window := (c.port p).window ++ [⟨k, c.now⟩] }
    match q with
    | .ready => ((join (c.portOrder p (.ack .ready)) .ready).signal (.attempt p)).tellReturns p
    | .lastNeeded => (c.portOrder p (.ack .lastNeeded)).lastNeeded p
    | .returnWaiting read kind =>
      let k := kindField kind
      let read := read.norm
      let c1 := (c.portOrder p (.ack (.returnWaiting read k))).readAt (posOf p) read k none
      if c1.occ (posOf p) = .vacant then c1.signal (.attempt p)
      else (join c1 (.returnWaiting read k)).chargeReturn p

/-! ### Offers -/

/-- An identity as TAKEN and WITHDRAWN carry it: one of another form is taken as UNREADABLE, which names no record and
is carried as zeros (R21, R193; DESIGN CHOICE, assumption 48). -/
def cleanId (x : RetId) : RetId := if idOk x then x else List.replicate 12 0#8

/-- The record standing in an offer at a port, by the ID a report names (R98). -/
def Part.offerOf (c : Part) (p : Nat) (x : RetId) : Option (Nat × Rec) :=
  match c.findId (cleanId x) with
  | some (n, r) =>
    if r.place = .loc (posOf p) ∧ (r.state = .presented ∨ r.state = .withdrawing) then some (n, r) else none
  | none => none

/-- The job step of a record ends with a result (R98). -/
def Part.endOfferStep (c : Part) (n : Nat) (r : Rec) (res : StepResult) (failed : Bool) : Part :=
  match r.job with
  | some (j, k) => c.endStep j k res (some n) failed
  | none => c

/-- A TAKEN report (R41, R98). -/
def Part.taken (c : Part) (p : Nat) (x : RetId) : Part :=
  match c.offerOf p x with
  | none => c.say (.portLate p true (cleanId x))
  | some (n, r) =>
    let c1 := (c.vacate n .vacant).updRec n fun r => { r with state := .out, place := .scanner p, job := none }
    let c2 := c1.endOfferStep n r .done false
    if r.state = .withdrawing then c2.say (.heldReticleTaken n p r.operator r.exposure r.mismatch) else c2

/-- A WITHDRAWN report (R41, R98). -/
def Part.withdrawn (c : Part) (p : Nat) (x : RetId) : Part :=
  match c.offerOf p x with
  | none => c.say (.portLate p false (cleanId x))
  | some (n, r) =>
    let c1 := (c.updRec n fun r => { r with state := .returned, job := none }).newReturn p (.record n) true
    if r.state = .withdrawing then c1.endOfferStep n r .skippedHold true
    else
      let early : Bool := match r.job with
        | some (j, _) => (c.job? j).any fun b => b.early
        | none => false
      let c2 := c1.endOfferStep n r (if early then .skippedEarlyEnd else .cancelled) false
      match r.job with
      | some (j, k) => c2.say (.offerDeclined j (k + 1) n)
      | none => c2

/-! ### Cancellation and waiting -/

/-- Cancel an ACTIVE job (R91): the mark is set, PENDING and WAITING steps end, a RESERVED step is released; the
rest runs on. -/
def Part.cancelActive (c : Part) (j : Nat) (r : Job) : Part :=
  if r.cancel then c
  else
    let c1 := (c.updJob j fun r => { r with cancel := true }).markSteps j (fun s => s = .pending || s = .waiting) .cancelled
    let c2 := match r.head with
      | some (_, st) =>
        if st.state = StepState.reserved then
          match st.move.bind c1.move? with
          | some m => c1.cancelMove m .cancelled
          | none => c1
        else c1
      | none => c1
    c2.afterStep j false

/-- Cancel a job (R91). -/
def Part.cancelJob (c : Part) (j : Nat) (r : Job) : Part :=
  if r.active then c.cancelActive j r else c.endJob j .cancelled

/-- The wait of a WAITING step expires (R95). A step that waits without a limit has no expiry. -/
def Part.stepWaitExpired (c : Part) (j : Nat) : Part :=
  match (c.job? j).bind Job.head with
  | some (k, st) =>
    match st.state, st.expiry with
    | .waiting, some t => (c.reach t).endStep j k .waitTimeout none true
    | _, _ => c
  | none => c

end Sys2Proof.Machine
end

