-- ==== Sys2Proof/Machine/Robots.lean ====
section
/-! DEFINITION. What the robots report and what is done about it: picks (R122 to R125), places (R126 to R128),
scans (R129), POSITION and yields (R120), timeouts, losses and interruptions (R130, R131, R136), and recovery
(R132). -/

namespace Sys2Proof.Machine

/-! ### Shared pieces -/

/-- The current move of a robot, if it carries this number (R122). -/
def Part.current? (c : Part) (x : Side) (num : Nat) : Option Move :=
  match c.currentOf x with
  | some m => if m.num = num then some m else none
  | none => none

/-- A report that answers nothing (R120, R122). -/
def Part.lateReport (c : Part) (x : Side) (num : Option Nat) (k : RobotReport) : Part :=
  c.say (.moveFault x num (some k) .lateReport)

/-- A robot stands IDLE at a span, its current move ended (R124, R126, R128, R129). -/
def Part.standAt (c : Part) (x : Side) (s : Nat) : Part :=
  c.setRobot x { c.robot x with state := .idle, span := some s, held := some (s, s), current := none }

/-- The span of a location, as an interval end. -/
def Part.spanOf (c : Part) (l : Option Nat) : Nat :=
  match l with
  | some l => c.tables.spanAt l
  | none => 0

/-- A destination a move has not reached returns to VACANT (R124, R125). -/
def Part.freeDest (c : Part) (m : Move) : Part :=
  match m.dst with
  | some d => if c.occ d = .inbound (m.reticle.getD 1024) then c.setOcc d .vacant else c
  | none => c

/-- The pod has left a port position: its return ends (R105). -/
def Part.leavePort (c : Part) (l : Nat) : Part :=
  match portOf l with
  | some p => c.endReturn p
  | none => c

/-- Send a robot to put its pod back, the move touching only its source from here on (R125, R127). -/
def Part.putBack (c : Part) (x : Side) (m : Move) (read : Option (Read × Nat)) : Part :=
  let m1 := { m with dst := none, putBack := true, state := .puttingBack, pickRead := read }
  let c1 := c.putMove m1
  match m.src with
  | some s => c1.robotOrder x (.putBack m.num (c.tables.coord s))
  | none => c1

/-! ### Picks -/

/-- The read of a pick agrees with the move (R123). -/
def Part.pickAgrees (c : Part) (m : Move) (read : Read) : Bool :=
  match m.reticle, read with
  | some n, .id x => (c.rec? n).any fun r => decide (r.id = x)
  | none, .unreadable => true
  | _, _ => false

/-- A clean pick (R123). The record on the hand is IN_TRANSIT for its step, which it was before but where another move's end
had left its place in doubt (assumption 15). -/
def Part.cleanPick (c : Part) (x : Side) (m : Move) (s kind : Nat) : Part :=
  let c1 := (c.clear s m.reticle .vacant).evict (handOf x) m.reticle
  let c2 := match m.reticle with
    | some n =>
      (c1.putPod n (handOf x) .vacant fun r =>
        { r with kind := kind, state := .inTransit, job := m.stepRef <|> r.job }).fixProtection n
    | none => c1.setOcc (handOf x) (.foreign kind)
  (c2.putMove { m with state := .picked }).leavePort s

/-- A pick that found nothing (R124). -/
def Part.emptyPick (c : Part) (x : Side) (m : Move) (s : Nat) : Part :=
  (((c.readAt s .empty 0 (some m.num)).freeDest m).standAt x (c.tables.spanAt s)).endMove m .pickEmpty

/-- A mismatched pick (R125). -/
def Part.mismatchedPick (c : Part) (x : Side) (m : Move) (s : Nat) (read : Read) (kind : Nat) : Part :=
  let c1 := (((c.evict (handOf x) none).setOcc (handOf x) (.foreign kind)).freeDest m).putBack x m (some (read, kind))
  match m.reticle with
  | some n => (c1.raiseFlag s .mismatch).addHold n .mismatch
  | none => c1

/-- A PICKED report (R122 to R125). -/
def Part.picked (c : Part) (x : Side) (num : Nat) (read : Read) (kind : Nat) : Part :=
  match c.current? x num with
  | none => c.lateReport x (some num) .picked
  | some m =>
    match m.src with
    | none => c.lateReport x (some num) .picked
    | some s =>
      if m.state = .dispatched ∧ m.kind ≠ .scan then
        let read := read.norm
        let k := kindField kind
        if c.pickAgrees m read then c.cleanPick x m s k
        else match read with
          | .empty => c.emptyPick x m s
          | r => c.mismatchedPick x m s r k
      else c.lateReport x (some num) .picked

/-! ### Places -/

/-- The kind of the pod a move carries, where it has no record: that of its hand's FOREIGN entry (R14). -/
def Part.handKind (c : Part) (x : Side) (m : Move) : Nat := ((c.occ (handOf x)).kind? <|> m.podKind).getD 0

/-- The record a completed leg leaves at its destination (R126), PRESENTED only without a hold (R40), its place apart. The
hold is tested at the place alone: one gained in transit and cleared again before it leaves the record PRESENTED (DESIGN
CHOICE, assumption 57). -/
def Rec.placedAt (r : Rec) (k : MoveKind) (d : Nat) : Rec :=
  match k with
  | .deliver | .cross =>
    if r.held then { r with state := .returned, job := none } else { r with state := .presented }
  | _ => { r with state := if isSlot d then .idle else .returned, job := none }

/-- The use duration of a delivery step (R85). -/
def Part.stepD (c : Part) (j k : Nat) : Nat :=
  match (c.job? j).bind fun r => r.steps[k]? with
  | some st =>
    match st.work with
    | .deliver _ d => d
    | .ret .. => 0
  | none => 0

/-- The Job Engine's part of a delivery placed at its port (R96, R106): the offer, or a forced return of a pod that
arrived held (R40), which restores the READY a CROSS served. `r` is the record after the place. -/
def Part.presentAtPort (c : Part) (m : Move) (n : Nat) (r : Rec) (p j k : Nat) : Part :=
  let ready := if m.kind = .cross then m.ready else none
  if r.state = .presented then
    let d := c.stepD j k
    (c.setStep j k fun st => { st with state := .presented, move := none }).portOrder p
      (.portPresent r.id r.kind d)
  else ((c.newReturn p (.record n) true).restoreReady p ready).endStep j k .skippedHold (some n) true

/-- A leg placed at its destination (R126, R143). -/
def Part.placeOk (c : Part) (x : Side) (m : Move) (d : Nat) : Part :=
  let hits := c.afterHits m
  let id := c.moveId m
  let kind := c.handKind x m
  let c1 := (c.clear (handOf x) m.reticle .vacant).evict d m.reticle
  let c2 := match m.reticle with
    | some n => (c1.putPod n d .vacant fun r => r.placedAt m.kind d).fixProtection n
    | none => c1.setOcc d (.foreign kind)
  let c3 := (c2.standAt x (c.tables.spanAt d)).endMove m .completed
  let c4 := match m.kind, m.owner, m.reticle, portOf d with
    | .deliver, .step j k, some n, some p | .cross, .step j k, some n, some p =>
      match c3.rec? n with
      | some r => c3.presentAtPort m n r p j k
      | none => c3
    | _, _, _, _ => c3
  c4.watchSeen m id hits

/-- The new destination of a STORE or RELOCATE to ANY that met a taken slot (R127). -/
def Part.rechoose (c : Part) (x : Side) (m : Move) : Option Nat :=
  match m.refColumn with
  | none => none
  | some ref =>
    let i := (c.robot x).held
    c.chooseSlot (c.kindOf m.reticle (c.handKind x m)) ref (c.spanOf m.src) fun z =>
      !c.zoneClosed z && (i.any fun i => c.clearFor x (widen i (z + 1)))

/-- A leg that found its destination taken (R127). -/
def Part.placeTaken (c : Part) (x : Side) (m : Move) (d : Nat) : Part :=
  let c1 := (c.raiseFlag d .conflict).clear d none .unknown
  match c1.rechoose x m with
  | some s =>
    let c2 := match m.reticle with
      | some n => c1.setOcc s (.inbound n)
      | none => c1
    let r := c2.robot x
    ((c2.putRobot x { r with held := r.held.map fun i => widen i (columnOf s + 1) }).putMove
      { m with dst := some s }).robotOrder x (.moveLeg m.num .hand (c.tables.coord s))
  | none => c1.putBack x m none

/-- A put-back after a mismatched pick (R128): the read kept in the move is applied at the source. -/
def Part.putBackRead (c : Part) (x : Side) (m : Move) (s : Nat) (read : Read) (kind : Nat) : Part :=
  (((c.clear (handOf x) none .vacant).readAt s read kind (some m.num)).standAt x (c.tables.spanAt s)).endMove m
    .pickMismatch

/-- A put-back after a clean pick (R127, R128): the pod stands at its source again. -/
def Part.putBackClean (c : Part) (x : Side) (m : Move) (s : Nat) : Part :=
  let kind := c.handKind x m
  let c2 := (c.clear (handOf x) m.reticle .vacant).evict s m.reticle
  let c3 := match m.reticle with
    | some n => (c2.putPod n s .vacant fun r => { r with state := stateAt s, job := none }).fixProtection n
    | none => c2.setOcc s (.foreign kind)
  (c3.standAt x (c.tables.spanAt s)).endMove m .placeOccupied

/-- A put-back that found its source taken (R128): the pod stays on the hand and the robot is SUSPECT. -/
def Part.putBackTaken (c : Part) (x : Side) (m : Move) (s : Nat) : Part :=
  let c3 := (c.raiseFlag s .conflict).clear s none .unknown
  let c4 := match m.reticle with
    | some n =>
      if (c3.rec? n).any fun (r : Rec) => decide (r.place = Place.loc (handOf x)) then
        (c3.updRec n fun r => { r with state := .inDoubt, job := none }).limboAccount n
      else c3
    | none => c3
  let c5 := c4.setRobot x { c4.robot x with state := .suspect, current := none, recovery := [s] }
  (c5.say (.moveFault x (some m.num) none .putBackOccupied)).endMove m .placeOccupied

/-- A PLACED report for a put-back (R128). -/
def Part.placedBack (c : Part) (x : Side) (m : Move) (s : Nat) (ok : Bool) : Part :=
  if ok then
    match m.pickRead with
    | some (read, kind) => c.putBackRead x m s read kind
    | none => c.putBackClean x m s
  else c.putBackTaken x m s

/-- A PLACED report (R122, R126 to R128). -/
def Part.placed (c : Part) (x : Side) (num : Nat) (ok : Bool) : Part :=
  match c.current? x num with
  | none => c.lateReport x (some num) .placed
  | some m =>
    match m.state, m.src, m.dst with
    | .picked, _, some d => if ok then c.placeOk x m d else c.placeTaken x m d
    | .puttingBack, some s, _ => c.placedBack x m s ok
    | _, _, _ => c.lateReport x (some num) .placed

/-- A SCANNED report (R122, R129). -/
def Part.scanned (c : Part) (x : Side) (num : Nat) (read : Read) (kind : Nat) : Part :=
  match c.current? x num with
  | none => c.lateReport x (some num) .scanned
  | some m =>
    match m.dst with
    | none => c.lateReport x (some num) .scanned
    | some l =>
      if m.state = .dispatched ∧ m.kind = .scan then
        ((c.readAt l read (kindField kind) none).standAt x (c.tables.spanAt l)).endMove m .completed
      else c.lateReport x (some num) .scanned

/-! ### Yields and POSITION -/

/-- The interval the other robot counts as holding in the tests of R137: its own, its reported span, or its yield
target. -/
def Part.countsAs (c : Part) (y : Side) : Option (Nat × Nat) :=
  let r := c.robot y
  match r.held, r.yieldTo, r.rollSpan with
  | some i, _, _ => some i
  | none, some t, _ => some (t.1, t.1)
  | none, none, some s => some (s, s)
  | none, none, none => none

/-- The test of R137 for a robot at a span: that of R117 against the interval the other robot counts as holding, which may
be its park span. -/
def Part.standsClear (c : Part) (x : Side) (s : Nat) : Bool :=
  match c.countsAs x.other with
  | some j => j == (x.other.park, x.other.park) || keepsClear x c.limits.clearSpans (s, s) j
  | none => false

/-- A POSITION report (R116, R120, R137). -/
def Part.positioned (c : Part) (x : Side) (span : Nat) : Part :=
  let s := spanField span
  let r := c.robot x
  if r.yieldTo.isNone then c.lateReport x none .position
  else match r.held with
    | some i =>
      if within i s then
        c.setRobot x { r with
          state := if r.state = .disabled then .disabled else .idle
          span := some s, held := some (s, s), yieldTo := none }
      else
        (c.setRobot x { r with
          state := if r.state = .disabled then .disabled else .suspect, yieldTo := none }).say
          (.moveFault x none none .position)
    | none =>
      if c.standsClear x s then
        if c.occ (handOf x) = .vacant then
          c.setRobot x { r with state := .idle, span := some s, held := some (s, s), yieldTo := none }
        else
          (c.setRobot x { r with state := .suspect, span := some s, held := some (s, s), yieldTo := none }).say
            (.moveFault x none none .handOccupied)
      else c.setRobot x { r with state := .suspect, span := some s, yieldTo := none }

/-- A yield or park travel expires (R120). Without one there is no expiry. -/
def Part.yieldExpired (c : Part) (x : Side) : Part :=
  let r := c.robot x
  match r.yieldTo with
  | none => c
  | some t =>
    ((c.reach t.2).setRobot x { r with
      state := if r.state = .disabled then .disabled else .suspect, yieldTo := none }).say
      (.moveFault x none none .timeout)

/-- Send a DISABLED robot to its park span, its interval covering the way (R116). -/
def Part.parkTravel (c : Part) (x : Side) : Part :=
  let r := c.robot x
  (c.setRobot x { r with
    held := match r.held, r.span with
      | some i, _ => some (widen i x.park)
      | none, some s => some (hull s x.park)
      | none, none => some (x.park, x.park)
    yieldTo := some (x.park, c.now + c.limits.moveTimeout) }).robotOrder x (.yieldTo x.park)

/-- A DISABLED robot not yet parked is sent its park travel again (R116). -/
def Part.parkAgain (c : Part) (x : Side) : Part :=
  let r := c.robot x
  if r.state = .disabled ∧ c.parked x = false ∧ c.robotPresent x ∧ r.yieldTo.isNone then c.parkTravel x else c

/-! ### Timeout, loss and interruption -/

/-- The locations a broken-off move leaves UNKNOWN (R130, R136): its source and destination while they are named, and
none for a SCAN. One that another move has been granted by then is no exception (assumption 15). -/
def Move.wreckage (m : Move) : List Nat := if m.kind = .scan then [] else m.src.toList ++ m.dst.toList

/-- A location that a broken-off move leaves UNKNOWN (R130, R136): a return standing there ends (R105). -/
def Part.cloud (c : Part) (l : Nat) : Part := (c.clear l none .unknown).leavePort l

/-- The tables after a move has been broken off (R130, R136): its reticle IN_DOUBT, its locations and its robot's hand
UNKNOWN. -/
def Part.wreck (c : Part) (m : Move) : Part :=
  let c1 := match m.reticle with
    | some n => c.makeInDoubt n
    | none => c
  (m.wreckage.foldl Part.cloud c1).clear (handOf m.robot) none .unknown

/-- The locations a robot is to scan once it is recovered (R130). -/
def Move.recoveryOf (m : Move) : List Nat := if m.kind = .scan then m.dst.toList else m.wreckage

/-- A dispatched move ends TIMED_OUT (R130). -/
def Part.timeOut (c : Part) (m : Move) : Part :=
  let x := m.robot
  let c1 := c.wreck m
  let c2 := c1.setRobot x { c1.robot x with
    state := .suspect, current := none, recovery := m.recoveryOf }
  ((c2.robotOrder x .abortMotion).say (.moveFault x (some m.num) none .timeout)).endMove m .timedOut

/-- MOVE_TIMEOUT of a move expires (R130). A move not dispatched has no expiry. -/
def Part.moveTimedOut (c : Part) (num : Nat) : Part :=
  match c.move? num with
  | none => c
  | some m =>
    match m.dispatched with
    | none => c
    | some (_, e) => if m.granted then (c.reach e).timeOut m else c

/-- A robot's node has become LOST or ABSENT, or has left the plan (R131). Its pending and held moves are looked at in the
event, whatever its state was. -/
def Part.robotLost (c : Part) (x : Side) : Part :=
  let r := c.robot x
  if r.state = .disabled then (c.setRobot x { r with yieldTo := none, awaited := false }).signal .robots
  else match c.currentOf x with
    | none =>
      (c.setRobot x { r with state := .lost, yieldTo := none, awaited := false, current := none }).signal .robots
    | some m =>
      let c1 := c.wreck m
      let c2 := c1.setRobot x { c1.robot x with
        state := .lost, yieldTo := none, awaited := false, current := none, recovery := m.recoveryOf }
      ((c2.signal .robots).say (.moveFault x (some m.num) none .nodeLost)).endMove m .timedOut

/-- A robot's node is PRESENT again (R131). -/
def Part.robotBack (c : Part) (x : Side) : Part :=
  let r := c.robot x
  if r.state = .lost then c.setRobot x { r with state := .suspect } else c

/-- Interrupt one dispatched move (R136). At a warm start and a bus reset its slots and port positions join the
rescan queue, the source ahead of the destination, an order that R42 leaves open (DESIGN CHOICE, assumption 60). -/
def Part.interrupt (rescan : Bool) (c : Part) (m : Move) : Part :=
  let c1 := c.wreck m
  let c2 := if rescan then (m.src.toList ++ m.dst.toList).foldl Part.rescan c1 else c1
  c2.endMove m .interrupted

/-- Interrupt every dispatched move (R136), in the order of the move list, which the rules leave open (DESIGN CHOICE,
assumption 60). -/
def Part.interruptAll (c : Part) (rescan : Bool) : Part :=
  (c.mv.moves.filter Move.granted).foldl (Part.interrupt rescan) c

/-! ### Recovery -/

/-- Admit the recovery scans of a robot that find room (R132): the first such location leaves the list as its scan
is admitted. The position of a port no longer in plan leaves it with no scan, since no move names it (R3;
assumption 19). -/
def Part.recoveryScan (c : Part) (x : Side) : Option Part :=
  let r := c.robot x
  match r.recovery with
  | [] => none
  | l :: rest =>
    if r.available then
      if !c.inPlanAt l then some (c.putRobot x { r with recovery := rest })
      else match c.admitAsk ⟨.scan, none, some l, 0, 0, .robot x, none, false, none, false⟩ with
      | .ok (c1, _) => some (c1.putRobot x { c1.robot x with recovery := rest })
      | .error _ => none
    else none

/-- The recovery scans waiting, robot A's before robot B's (R111, R132). -/
def Part.recoveryOnce (c : Part) : Option Part := c.recoveryScan .a <|> c.recoveryScan .b

/-- Send a robot without an interval away from the other robot (R132, R137); with no span known for the other it
keeps its place. -/
def Part.yieldAway (c : Part) (x : Side) : Part :=
  match (c.robot x.other).span with
  | none => c.setRobot x { c.robot x with state := .idle }
  | some s =>
    let t := c.yieldTarget x (s, s)
    (c.setRobot x { c.robot x with
      state := .yielding, held := none, yieldTo := some (t, c.now + c.limits.moveTimeout) }).robotOrder x
      (.yieldTo t)

/-- A SUSPECT robot's span and hand are found good: it is recovered (R132). -/
def Part.recovered (c : Part) (x : Side) (s : Nat) : Part :=
  let r := c.robot x
  let c1 :=
    if r.held.isSome ∨ c.clearFor x (s, s) then
      c.setRobot x { r with state := .idle, span := some s, held := some (s, s) }
    else (c.setRobot x { r with span := some s }).yieldAway x
  let c2 := (c1.recoveryScan x).getD c1
  let c3 := (c2.recoveryScan x).getD c2
  c3.say (.robotRecovered x)

/-- The answer to a HAND_SNAPSHOT, whoever ordered it (R132). A robot that meets both failures of the list is reported
with the first, POSITION (DESIGN CHOICE, assumption 18). -/
def Part.handAnswer (c : Part) (x : Side) (span : Nat) (read : Read) (kind : Nat) : Part :=
  let s := spanField span
  let c1 := c.readAt (handOf x) read (kindField kind) none
  let c2 := c1.putRobot x { c1.robot x with awaited := false }
  let r := c2.robot x
  let vacant := decide (c2.occ (handOf x) = .vacant)
  let inside (absent : Bool) : Bool := match r.held with
    | some i => within i s
    | none => absent
  match r.state with
  | .suspect =>
    if !inside true then c2.say (.moveFault x none none .position)
    else if vacant then c2.recovered x s
    else c2.say (.moveFault x none none .handOccupied)
  | .idle =>
    if inside false && vacant then c2
    else
      (c2.setRobot x { r with state := .suspect }).say
        (.moveFault x none none (if inside false then .handOccupied else .position))
  | _ => c2

/-- Order a HAND_SNAPSHOT of a robot (R132, R186). -/
def Part.askHand (c : Part) (x : Side) : Part :=
  (c.putRobot x { c.robot x with awaited := true }).robotOrder x .handSnapshot

end Sys2Proof.Machine
end

