-- ==== Sys2Proof/Machine/Modes.lean ====
section
/-! DEFINITION. The Mode Controller: changes of mode (R177 to R182), fail-safe entry and exit (R184, R186) and the
interlock lines (R183); and the scan cursor (R36, R37). -/

namespace Sys2Proof.Machine

/-! ### Changes of mode -/

/-- Make a mode the mode in force and queue MODE_CHANGE (R177). -/
def Part.setMode (c : Part) (m : Mode) (cause : ModeCause) : Part :=
  ({ c with ctl := { c.ctl with mode := m } }).say
    (.modeChange m c.ctl.mode cause (if m = Mode.failSafe then c.ctl.causes else FailCauses.none)
      (if m = Mode.standalone then c.ctl.ret else none) none)

/-- Discard an open load window with WINDOW_DISCARDED (R173). -/
def Part.discardWindow (c : Part) (cause : DiscardCause) (table : Shadow → TableId) : Part :=
  match c.window with
  | some w => ({ c with window := none }).say (.windowDiscarded (table w.shadow) cause)
  | none => c

/-- The table a shadow is a copy of. -/
def Shadow.table : Shadow → TableId
  | .slotMap _ => .slotMap
  | .port _ => .port
  | .zone _ => .zone
  | .cls _ => .cls
  | .limits _ => .limits
  | .plan _ => .plan
  | .filter _ => .filter

/-- Entry into STANDALONE (R180, R181): the return mode, the mode, the load window discarded. -/
def Part.enterStandalone (c : Part) (cause : ModeCause) : Part :=
  (({ c with ctl := { c.ctl with ret := some c.ctl.mode, pending := false } }).setMode .standalone
    cause).discardWindow .standalone Shadow.table

/-- A pending standalone entry completes once every required zone is marked (R180). MODE_CHANGE stands ahead of what the
other blocks queue in the event (R177), and WINDOW_DISCARDED right behind it, a place that no rule gives (DESIGN CHOICE,
assumption 64). -/
def Part.standaloneOnce (c : Part) : Option Part :=
  if c.ctl.pending ∧ (c.ctl.mode = .normal ∨ c.ctl.mode = .maintenance) ∧ c.marksComplete then
    let d := { c with out := [] }.enterStandalone .request
    some { d with out := d.out ++ c.out }
  else none

/-- The link silence event (R181). -/
def Part.linkSilence (c : Part) : Part :=
  if (c.ctl.mode = .normal ∨ c.ctl.mode = .maintenance) ∧ c.limits.standaloneOnSilence then
    c.enterStandalone .linkSilence
  else c.say .linkSilent

/-- Every port takes up its work, after a change of mode (R89, R94, R101). -/
def Part.resume (c : Part) : Part := c.signalPorts

/-! ### FAIL_SAFE -/

/-- A robot at fail-safe entry (R136). `busy` is the move it was carrying out. Its HELD moves stay with it (R148), so that
no signal is given. -/
def Part.stopRobot (c : Part) (x : Side) (busy : Option Move) (recovery : List Nat) : Part :=
  let r := c.robot x
  if r.state = .busy ∨ r.state = .yielding then
    c.putRobot x { r with
      state := .suspect, current := none, yieldTo := none
      recovery := if busy.isSome then recovery else r.recovery }
  else c.putRobot x { r with yieldTo := none }

/-- ABORT_MOTION to a robot whose node is PRESENT (R136). -/
def Part.abortMotion (c : Part) (x : Side) : Part :=
  if c.robotPresent x then c.robotOrder x .abortMotion else c

/-- The locations made UNKNOWN as a robot's move is interrupted at fail-safe entry (R136); none for a SCAN. -/
def Part.stopRecovery (c : Part) (x : Side) : List Nat :=
  match c.currentOf x with
  | some m => m.wreckage
  | none => []

/-- What the Move Scheduler and the other blocks do at fail-safe entry (R184). -/
def Part.stopAll (c : Part) : Part :=
  let c1 := ((c.interruptAll false).abortMotion .a).abortMotion .b
  (c1.stopRobot .a (c.currentOf .a) (c.stopRecovery .a)).stopRobot .b (c.currentOf .b) (c.stopRecovery .b)

/-- Fail-safe entry (R184). `causes` are those of the entry, `cause` the one MODE_CHANGE carries. -/
def Part.enterFailSafe (c : Part) (cause : ModeCause) (causes : FailCauses) : Part :=
  let ctl := { c.ctl with
    causes := ⟨causes.enclosure || c.ctl.enclosure, causes.stop || c.ctl.stop, causes.forced, causes.imageBad⟩
    ret := none, pending := false }
  let c1 := { c with ctl := ctl }
  let c2 := if c.ctl.pending then c1.say (.standaloneCancelled cause) else c1
  (c2.setMode .failSafe cause).stopAll

/-- Exit from FAIL_SAFE into MAINTENANCE (R186, R116). To a robot that is sent both, HAND_SNAPSHOT goes ahead of the YIELD_TO of
its park travel, an order that the rules leave open (DESIGN CHOICE, assumption 73). -/
def Part.leaveFailSafe (c : Part) : Part :=
  let c1 := ({ c with ctl := { c.ctl with causes := FailCauses.none } }).setMode .maintenance .request
  let ask := fun (c : Part) x => if c.robotPresent x ∧ (c.robot x).awaited = false then c.askHand x else c
  ((((ask (ask c1 .a) .b).parkAgain .a).parkAgain .b).resume)

/-- START ends (R178). -/
def Part.leaveStart (c : Part) : Part :=
  let k := c.ctl
  let causes : FailCauses := ⟨k.seenEnclosure, k.seenStop, false, k.imageBad⟩
  let c1 := { c with ctl := { k with seenEnclosure := false, seenStop := false } }
  if k.imageBad then c1.enterFailSafe .imageBad causes
  else if k.seenStop then c1.enterFailSafe .stop causes
  else if k.seenEnclosure then c1.enterFailSafe .enclosure causes
  else (c1.setMode .normal .startDone).resume

/-! ### The lines -/

/-- The level of a line as last sampled. -/
def ModeController.level (k : ModeController) : Line → Bool
  | .enclosure => k.enclosure
  | .stop => k.stop

/-- Take a sampled level. -/
def ModeController.setLevel (k : ModeController) (l : Line) (v : Bool) : ModeController :=
  match l with
  | .enclosure => { k with enclosure := v }
  | .stop => { k with stop := v }

/-- A line has been active since START began (R178). -/
def ModeController.see (k : ModeController) : Line → ModeController
  | .enclosure => { k with seenEnclosure := true }
  | .stop => { k with seenStop := true }

/-- The mode change cause of a line. -/
def Line.cause : Line → ModeCause
  | .enclosure => .enclosure
  | .stop => .stop

/-- A line becomes active in a mode (R183). -/
def Part.lineActs (c : Part) (l : Line) : Part :=
  match c.ctl.mode with
  | .start => { c with ctl := c.ctl.see l }
  | .failSafe => c
  | _ => c.enterFailSafe (Line.cause l) ⟨l = .enclosure, l = .stop, false, false⟩

/-- The sampled level of a line (R183). A level that has not changed is no event. -/
def Part.lineChange (c : Part) (l : Line) (v : Bool) : Part :=
  if c.ctl.level l = v then c
  else
    let c1 := ({ c with ctl := c.ctl.setLevel l v }).say (.interlock l v c.ctl.mode)
    if v then
      let c2 := c1.lineActs l
      if l = .stop then c2.abortPasses else c2
    else c1

/-! ### The scan cursor -/

/-- A background scan is in the move list (R37). -/
def Part.scanning (c : Part) : Bool :=
  c.mv.moves.any fun m => match m.owner with
    | .inventory _ => true
    | _ => false

/-- A scan of the cursor is in the move list (R36). -/
def Part.cursorScanning (c : Part) : Bool := c.mv.moves.any fun m => m.owner == .inventory true

/-- Ask for a background scan of a location (R37). -/
def Part.admitScan (c : Part) (l : Nat) (cursor : Bool) : Option Part :=
  match c.admitAsk ⟨.scan, none, some l, 0, 0, .inventory cursor, none, false, none, false⟩ with
  | .ok (c1, _) => some c1
  | .error _ => none

/-- The cursor passes to its next slot (R37). -/
def Cursor.step (k : Cursor) (admitted : Nat) : Cursor :=
  { k with next := k.next + 1, remaining := k.remaining - 1, admitted := k.admitted + admitted }

/-- The Inventory offers one background scan (R37). The head of the rescan queue is admitted also while it is INBOUND or
OUTBOUND, and is granted once the move that made it so has ended (DESIGN CHOICE, assumption 68). -/
def Part.offerScan (c : Part) : Option Part :=
  if !c.ctl.mode.admits || c.scanning || c.freeMoves ≤ 8 then none
  else match c.inv.rescan with
    | l :: _ =>
      if !c.inPlanAt l then some (c.unrescan l)
      else (c.admitScan l false).map fun c1 => c1.unrescan l
    | [] =>
      let k := c.inv.cursor
      if k.active ∧ 0 < k.remaining then
        match c.occ k.next with
        | .inbound _ | .outbound _ _ => some ((c.rescan k.next).setCursor (k.step 0))
        | _ => (c.admitScan k.next true).map fun c1 => c1.setCursor (k.step 1)
      else none

/-- The cursor's scans have all ended: SCAN_DONE (R36). -/
def Part.cursorDone (c : Part) : Option Part :=
  let k := c.inv.cursor
  if k.active ∧ k.remaining = 0 ∧ c.cursorScanning = false then
    some ((c.setCursor { k with active := false }).say (.scanDone k.first k.count k.admitted false))
  else none

/-- CANCEL_SCAN (R36): an undispatched scan of the cursor is removed; a dispatched one runs to its end as a plain
background scan. -/
def Part.cancelScan (c : Part) : Part :=
  let k := c.inv.cursor
  if k.active then
    let c1 := c.setCursor { k with active := false }
    let c2 := (c1.mv.moves.filter fun m => m.owner == .inventory true && !m.granted).foldl
      (fun c m => c.cancelMove m .cancelled) c1
    let plain := fun (m : Move) => if m.owner = .inventory true then { m with owner := .inventory false } else m
    let c3 := { c2 with mv := { c2.mv with moves := c2.mv.moves.map plain } }
    c3.say (.scanDone k.first k.count k.admitted true)
  else c

end Sys2Proof.Machine
end

