-- ==== Sys2Proof/Machine/Bus.lean ====
section
/-! DEFINITION. The Bus Port: loss and return of nodes (R158, R159), roll-calls and enumeration (R152 to R154),
exchanges (R155, R156) and the routing of reports (R157). -/

namespace Sys2Proof.Machine

/-! ### Orders -/

/-- The code of an order (11_formats.md). -/
def Order.code : Order → Nat
  | .moveLeg .. => 0x10
  | .putBack .. => 0x11
  | .scanAt .. => 0x12
  | .yieldTo _ => 0x13
  | .abortMotion => 0x14
  | .handSnapshot => 0x15
  | .purgeStart .. => 0x20
  | .purgeAbort _ => 0x21
  | .ack _ => 0x30
  | .portJob .. => 0x31
  | .portPresent .. => 0x32
  | .withdraw _ => 0x33
  | .forwarded k _ => k

/-- PASS_REPORT UNDELIVERED for each pass-through order of a queue (R172). -/
def Part.undelivered (c : Part) (a : Nat) (queue : List QOrder) : Part :=
  queue.foldl (fun c o =>
    match o.pass with
    | some tag => c.say (.passOrder tag a o.order.code false .none)
    | none => c) c

/-- An order stays in the queue of a lost node of a kind (R158). -/
def QOrder.kept (k : NodeKind) (o : QOrder) : Bool :=
  o.pass.isNone &&
  match k, o.order with
  | .manifold, .purgeAbort _ => true
  | .port, .portJob .. => true
  | .port, .portPresent .. => true
  | .port, .withdraw _ => true
  | _, _ => false

/-- The queue of a node leaving service, treated by kind (R158). -/
def Part.treatQueue (c : Part) (a : Nat) (k : NodeKind) : Part :=
  match c.node? a with
  | some n => (c.putNode a { n with queue := n.queue.filter (QOrder.kept k) }).undelivered a n.queue
  | none => c

/-- A port's window is emptied (R83). -/
def Part.emptyWindow (c : Part) (p : Nat) : Part := c.putPort p { c.port p with window := [] }

/-- What the owners of a node's kind do as its entry becomes LOST or ABSENT (R6, R75, R107, R131). -/
def Part.ownersLose (c : Part) (a : Nat) (plan : PlanEntry) : Part :=
  match plan.kind with
  | .robot =>
    match sideOf plan.assignment with
    | some x => c.robotLost x
    | none => c
  | .port => c.emptyWindow plan.assignment
  | .manifold => c.manifoldLoss a
  | .shelf => c.clearHints plan.assignment
  | .none => c

/-- A planned node leaves service (R158): its queue, then the owners of its kind. -/
def Part.leaveService (c : Part) (a : Nat) (plan : PlanEntry) : Part := (c.treatQueue a plan.kind).ownersLose a plan

/-! ### Roll-calls -/

/-- The answer is the planned node's (R152). -/
def PlanEntry.answers (e : PlanEntry) (r : RollAnswer) : Bool :=
  e.kind == r.kind && e.identity == r.identity && (e.kind != .robot || e.assignment == r.side.index)

/-- The capabilities an answer gives (R153). -/
def capsOf (r : RollAnswer) : Caps := ⟨r.express, r.side, r.channels⟩

/-- A move granted while a bus reset's enumeration runs is broken off, its robot found outside its interval: INTERRUPTED as
those the reset itself broke off (R136), with ABORT_MOTION behind its order (DESIGN CHOICE, assumption 39). -/
def Part.enumStray (c : Part) (x : Side) (m : Move) (s : Nat) : Part :=
  let c1 := c.interrupt true m
  (c1.setRobot x { c1.robot x with state := .suspect, span := some s, rollSpan := some s, current := none }).robotOrder x
    .abortMotion

/-- A robot takes its roll-call answer at an enumeration (R137). One that was YIELDING with no interval, a case R137 does
not list, becomes IDLE with no interval until the enumeration ends (DESIGN CHOICE, assumption 18). One that has been
granted a move or sent a yield since the reset began goes on with it where its span fits (DESIGN CHOICE, assumption
39). -/
def Part.enumRobot (c : Part) (x : Side) (span : Nat) : Part :=
  let s := spanField span
  let r := { c.robot x with rollSpan := some s }
  let cold : Bool := match c.bus.enum with
    | some e => decide (e.cause = .cold)
    | none => false
  let vacant := decide (c.occ (handOf x) = .vacant)
  let stand := fun (held : Option (Nat × Nat)) =>
    let c1 := c.setRobot x { r with
      state := if vacant then .idle else .suspect, span := some s, held := held, current := none, yieldTo := none }
    if vacant then c1 else c1.say (.moveFault x none none .handOccupied)
  match r.state with
  | .disabled => c.setRobot x { r with span := some s }
  | .suspect => c.setRobot x { r with span := some s }
  | .lost => if cold then stand none else c.setRobot x { r with state := .suspect, span := some s }
  | _ =>
    match r.held, c.currentOf x with
    | none, _ => stand none
    | some i, some m => if within i s then c.setRobot x { r with span := some s } else c.enumStray x m s
    | some i, none =>
      if !within i s then c.setRobot x { r with state := .suspect, span := some s, current := none, yieldTo := none }
      else if r.yieldTo.isSome && vacant then c.setRobot x { r with span := some s }
      else stand (some (s, s))

/-- The snapshot of a shelf node, slot by slot (R154). -/
def Part.shelfSnapshot (c : Part) (column : Nat) (present : List Bool) : Part :=
  c.each 60 fun c i =>
    match present[i]? with
    | some v => c.presence (column * 60 + i) v true
    | none => c

/-- The snapshot of a correct answer, applied by kind (R154). `enum` says that the answer is an enumeration's,
`plan` that it is that of an address newly planned by a commit (R150). -/
def Part.applySnapshot (c : Part) (e : PlanEntry) (snap : Snapshot) (enum plan : Bool) : Part :=
  match snap with
  | .robot span hand kind =>
    match sideOf e.assignment with
    | none => c
    | some x =>
      if enum || plan then (c.readAt (handOf x) hand (kindField kind) none).enumRobot x span
      else c.robotBack x
  | .port position kind =>
    if (c.portCfg e.assignment).inPlan then
      c.readAt (posOf e.assignment) position (kindField kind) none
    else c
  | .shelf present => c.shelfSnapshot e.assignment present
  | .manifold => c

/-- A snapshot of the kind of its node. -/
def snapshotFits (s : Snapshot) (k : NodeKind) : Bool :=
  match s, k with
  | .robot .., .robot => true
  | .port .., .port => true
  | .shelf _, .shelf => true
  | .manifold, .manifold => true
  | _, _ => false

/-- The offers standing at a port are sent again after a bus reset (R109). -/
def Part.resendOffers (c : Part) (p : Nat) : Part :=
  match (c.occ (posOf p)).resident with
  | none => c
  | some n =>
    match c.rec? n with
    | none => c
    | some r =>
      let d := match r.job with
        | some (j, k) => c.stepD j k
        | none => 0
      match r.state with
      | .presented => c.portOrder p (.portPresent r.id r.kind d)
      | .withdrawing => c.portOrder p (.withdraw r.id)
      | _ => c

/-- The job indications of a port that has answered, sent again after a bus reset (R109). -/
def Part.resendJob (c : Part) (p : Nat) : Part :=
  match (c.port p).active with
  | none => c
  | some j =>
    match c.job? j with
    | none => c
    | some r =>
      let c1 := c.portOrder p (.portJob true j r.kind)
      if (c.port p).idleSent then c1.portOrder p (.portJob false j r.kind) else c1

/-- The enumeration in progress is a bus reset's. -/
def Part.resetting (c : Part) : Bool :=
  match c.bus.enum with
  | some e => decide (e.cause = .busReset)
  | none => false

/-- The enumeration in progress is a cold start's. -/
def Part.coldStarting (c : Part) : Bool :=
  match c.bus.enum with
  | some e => decide (e.cause = .cold)
  | none => false

/-- A port that was suspended and is so no more has its return handled and its head step attempted (R94, R101). -/
def Part.resumePort (c : Part) (p : Nat) (was : Bool) : Part :=
  if was && !c.suspended p then (c.signal (.handle p)).signal (.attempt p) else c

/-- A correct roll-call answer (R152 to R154, R159). -/
def Part.rollCorrect (c : Part) (a : Nat) (e : PlanEntry) (n : Node) (r : RollAnswer) : Part :=
  let enum := c.bus.enum.isSome
  let latch := enum || n.planCall
  let n1 := { n with
    kind := r.kind, identity := r.identity, caps := if latch then some (capsOf r) else n.caps
    state := .present, miss := 0, orderTog := false, reportTog := false, rollPending := false, planCall := false
    answered := true }
  let c1 := c.putNode a n1
  let c2 := if latch && e.kind == .port then
      c1.putPort e.assignment { c1.port e.assignment with express := r.express }
    else c1
  let back := decide (n.state = .lost ∨ n.state = .absent) && !c.coldStarting && !n.planCall
  let c3 := if back then c2.say (.nodeReturned a e.kind) else c2
  let c4 := if e.kind == .manifold then c3.rosterChanged a else c3
  let c5 := if snapshotFits r.snapshot e.kind then c4.applySnapshot e r.snapshot enum n.planCall else c4
  if e.kind == .port then
    let c6 := if c.resetting then (c5.resendOffers e.assignment).resendJob e.assignment else c5
    c6.resumePort e.assignment (c.suspended e.assignment)
  else c5

/-- An entry becomes ABSENT by a roll-call (R152): a PRESENT node leaves service as at a loss, with NODE_ABSENT. A LOST one
leaves it again at an enumeration; at a retry it has left it already, so that a port's window and what has been queued
for the node stay (R83, R158, R159, R172), while R75 and R131 act. The hints of a shelf node's column are missing in every
case (R6). An entry that is ABSENT already does not become so, and what waits in its queue waits on (R152 and R172; DESIGN
CHOICE, assumption 63); its robot, which a plan reloaded at a warm start may have put there, is LOST once the roll-call fails
(R137). -/
def Part.becomeAbsent (c : Part) (a : Nat) (e : PlanEntry) (n : Node) : Part :=
  let c1 := c.putNode a { n with state := .absent, rollPending := false, planCall := false }
  let c2 := match n.state with
    | .present => (c1.say (.nodeAbsent a e.kind)).leaveService a e
    | .lost =>
      if c.bus.enum.isSome then c1.leaveService a e else if e.kind = .port then c1 else c1.ownersLose a e
    | _ =>
      if e.kind = .shelf then c1.clearHints e.assignment
      else if e.kind = .robot ∧ c.bus.enum.isSome then c1.ownersLose a e else c1
  if c.resetting && e.kind == .port then c2.resendOffers e.assignment else c2

/-- A roll-call answer of another node than the one planned (R152, R159). NODE_MISMATCH stands ahead of NODE_ABSENT, an order that
R152 leaves open (DESIGN CHOICE, assumption 71). -/
def Part.rollWrong (c : Part) (a : Nat) (e : PlanEntry) (n : Node) (r : RollAnswer) : Part :=
  (c.say (.nodeMismatch a e r.kind r.identity r.side)).becomeAbsent a e
    { n with kind := r.kind, identity := r.identity, miss := 0, orderTog := false, reportTog := false, answered := true }

/-- A roll-call of an address is answered (R152, R159). -/
def Part.rollAnswered (c : Part) (a : Nat) (r : RollAnswer) : Part :=
  let e := c.planOf a
  if e.kind = .none then
    let c1 := if c.bus.roster.length < 48 then
        c.putNode a ⟨r.kind, r.identity, none, .unexpected, 0, false, false, [], false, false, true⟩
      else c
    c1.say (.nodeUnexpected a r.kind r.identity)
  else match c.node? a with
    | none => c
    | some n => if e.answers r then c.rollCorrect a e n r else c.rollWrong a e n r

/-- A roll-call of an address goes unanswered (R152, R159). -/
def Part.rollUnanswered (c : Part) (a : Nat) : Part :=
  let e := c.planOf a
  if e.kind = .none then c
  else match c.node? a with
    | none => c
    | some n =>
      if c.bus.enum.isSome then c.becomeAbsent a e n
      else c.putNode a { n with rollPending := false, planCall := false }

/-! ### Enumeration -/

/-- The addresses in the order of an enumeration: the planned ones, then the others (R152). -/
def Part.callOrder (c : Part) : List Nat :=
  let all := (List.range 64).drop 1
  all.filter c.planned ++ all.filter fun a => !c.planned a

/-- An enumeration begins (R152). -/
def Part.beginEnum (c : Part) (cause : EnumCause) : Part :=
  let roster := (c.bus.roster.filter fun e => e.2.state ≠ .unexpected).map fun e =>
    (e.1, { e.2 with rollPending := false, planCall := false })
  let bus := { c.bus with roster := roster, retry := none }
  let mv := { c.mv with
    robotA := { c.mv.robotA with rollSpan := none }, robotB := { c.mv.robotB with rollSpan := none } }
  match c.callOrder with
  | a :: rest => { c with mv := mv, bus := { bus with exchange := some (.rollCall a), enum := some ⟨cause, rest⟩ } }
  | [] => { c with mv := mv, bus := { bus with exchange := none, enum := none } }

/-- A robot that answered but holds no interval takes one, or is sent away from the other robot (R137). -/
def Part.settleInterval (c : Part) (x : Side) : Part :=
  let r := c.robot x
  match r.rollSpan, r.held with
  | some s, none =>
    if r.state = .disabled then c
    else if c.standsClear x s then c.putRobot x { r with held := some (s, s) }
    else if (c.robot x.other).span.isSome then c.yieldAway x
    else c
  | _, _ => c

/-- At the end of a warm start's enumeration each pod at a planned port position becomes a return (R101, R109). -/
def Part.takeCharge (c : Part) : Part :=
  let forced := c.jobs.offers
  let c1 := c.each 8 fun c p =>
    if (c.portCfg p).inPlan then
      match c.podAt (posOf p) with
      | some (.record n) => c.newReturn p (.record n) (forced.contains n)
      | some (.foreign k) => c.newReturn p (.foreign k) false
      | none => c
    else c
  { c1 with jobs := { c1.jobs with offers := [] } }

/-- What the blocks do as an enumeration ends, START apart (R152). The supply faults are evaluated by zone number (DESIGN
CHOICE, assumption 61). -/
def Part.enumEnds (c : Part) (cause : EnumCause) : Part :=
  let c1 := ((((c.settleInterval .a).settleInterval .b).parkAgain .a).parkAgain .b)
  let c2 := if cause = .busReset then c1 else c1.each 16 Part.evalSupply
  if cause = .warm then c2.takeCharge else c2

/-- The number of roster entries in a state. -/
def Part.countNodes (c : Part) (s : NodeState) : Nat :=
  (c.bus.roster.filter fun e => e.2.state = s).length

/-- The enumeration ends (R152): ENUMERATION_DONE, then the blocks act and START ends (R178). MODE_CHANGE stands
ahead of the notices of the blocks' actions (R177). At a bus reset no port's work is taken up by the end itself (R94, R101). -/
def Part.endEnum (c : Part) (cause : EnumCause) : Part :=
  let c1 := ({ c with bus := { c.bus with enum := none } }).say
    (.enumerationDone cause (c.countNodes .present) (c.countNodes .absent) (c.countNodes .unexpected))
  let c2 := ({ c1 with out := [] }).enumEnds cause
  let c3 := if cause = .busReset then { c2 with out := [] } else ({ c2 with out := [] }).leaveStart
  { c3 with out := c1.out ++ c3.out ++ c2.out }

/-- The next roll-call of the enumeration in progress, or its end (R152). -/
def Part.nextRoll (c : Part) : Part :=
  match c.bus.enum with
  | none => c
  | some e =>
    match e.left with
    | a :: rest => { c with bus := { c.bus with exchange := some (.rollCall a), enum := some { e with left := rest } } }
    | [] => c.endEnum e.cause

/-! ### Exchanges -/

/-- The first entry after an address, in increasing order and wrapping, that satisfies a test (R155). -/
def nextAfter (roster : Store Node) (last : Nat) (ok : Node → Bool) : Option Nat :=
  ((roster.find? fun e => last < e.1 && ok e.2) <|> (roster.find? fun e => ok e.2)).map (·.1)

/-- The next exchange, where none is in progress and no enumeration runs (R155). -/
def Part.chooseExchange (c : Part) : Part :=
  if c.bus.exchange.isSome || c.bus.enum.isSome then c
  else
    match nextAfter c.bus.roster c.bus.lastOrder fun n => n.state = .present && !n.queue.isEmpty with
    | some a => { c with bus := { c.bus with exchange := some (.order a), lastOrder := a } }
    | none =>
      match (c.bus.roster.find? fun e => e.2.rollPending && c.planned e.1) with
      | some e => { c with bus := { c.bus with exchange := some (.rollCall e.1) } }
      | none =>
        match nextAfter c.bus.roster c.bus.lastPoll fun n => n.state = .present with
        | some a => { c with bus := { c.bus with exchange := some (.poll a), lastPoll := a } }
        | none => c

/-- The ROLL_RETRY timer runs exactly while a planned entry is LOST or ABSENT and no enumeration is in progress
(R159). -/
def Part.retryLevel (c : Part) : Part :=
  let due := c.bus.enum.isNone && !c.nodeFaults.isEmpty
  match c.bus.retry with
  | some _ => if due then c else { c with bus := { c.bus with retry := none } }
  | none =>
    if due then { c with bus := { c.bus with retry := some (c.now + c.limits.rollRetry) } } else c

/-- Every planned entry LOST or ABSENT has a roll-call pending, and the timer restarts (R159). -/
def Part.retryPassed (c : Part) : Part :=
  let roster := c.bus.roster.map fun e =>
    if c.planned e.1 ∧ (e.2.state = .lost ∨ e.2.state = .absent) then (e.1, { e.2 with rollPending := true })
    else e
  { c with bus := { c.bus with roster := roster, retry := some (c.now + c.limits.rollRetry) } }

/-- The ROLL_RETRY timer expires (R159). A stopped one does not. -/
def Part.retryExpired (c : Part) : Part :=
  match c.bus.retry with
  | none => c
  | some t => (c.reach t).retryPassed

/-- The data of an acknowledged order goes to its owner (R132, R156, R172). -/
def Part.orderData (c : Part) (a : Nat) (o : QOrder) (data : AnswerData) : Part :=
  let c1 := match o.pass with
    | some tag => c.say (.passOrder tag a o.order.code true data)
    | none => c
  match o.order, (c.planOf a).kind, sideOf (c.planOf a).assignment with
  | .handSnapshot, .robot, some x =>
    match data with
    | .hand span read kind => c1.handAnswer x span read kind
    | _ => c1.putRobot x { c1.robot x with awaited := false }
  | _, _, _ => c1

/-- An answer acknowledges the head order of a node (R156). -/
def Part.acknowledged (c : Part) (a : Nat) (data : AnswerData) : Part :=
  match c.node? a with
  | none => c
  | some n =>
    match n.queue with
    | [] => c
    | o :: rest => (c.putNode a { n with queue := rest, orderTog := !n.orderTog }).orderData a o data

/-- The code of a report (11_formats.md). -/
def reportCode : Report → Nat
  | .nothing => 0x00
  | .rollAnswer _ => 0x01
  | .picked .. => 0x10
  | .placed .. => 0x11
  | .scanned .. => 0x12
  | .position _ => 0x13
  | .purgeDone .. => 0x20
  | .sealFault _ => 0x21
  | .serviceRequest _ => 0x30
  | .taken _ => 0x31
  | .withdrawn _ => 0x32
  | .presence .. => 0x40
  | .malformed k => k

/-- The kind of node a report kind belongs to (R157, 11_formats.md). -/
def reporterOf (code : Nat) : NodeKind :=
  if 0x10 ≤ code ∧ code ≤ 0x13 then .robot
  else if code = 0x20 ∨ code = 0x21 then .manifold
  else if 0x30 ≤ code ∧ code ≤ 0x32 then .port
  else if code = 0x40 then .shelf
  else .none

/-- An accepted report is delivered by kind (R157). One whose payload is not of its kind has no effect (DESIGN CHOICE,
assumption 24). -/
def Part.deliverReport (c : Part) (a : Nat) (rep : Report) : Part :=
  let e := c.planOf a
  let reject := c.say (.busReject a (reportCode rep))
  match rep with
  | .nothing => c
  | .rollAnswer _ => c
  | .picked m read kind =>
    match e.kind, sideOf e.assignment with
    | .robot, some x => c.picked x m read kind
    | _, _ => reject
  | .placed m ok =>
    match e.kind, sideOf e.assignment with
    | .robot, some x => c.placed x m ok
    | _, _ => reject
  | .scanned m read kind =>
    match e.kind, sideOf e.assignment with
    | .robot, some x => c.scanned x m read kind
    | _, _ => reject
  | .position span =>
    match e.kind, sideOf e.assignment with
    | .robot, some x => c.positioned x span
    | _, _ => reject
  | .purgeDone ch pass ok => if e.kind = .manifold then c.purgeDone a ch pass ok else reject
  | .sealFault s => if e.kind = .manifold then c.sealReport a s else reject
  | .serviceRequest q => if e.kind = .port then c.serviceRequest e.assignment q else reject
  | .taken x => if e.kind = .port then c.taken e.assignment x else reject
  | .withdrawn x => if e.kind = .port then c.withdrawn e.assignment x else reject
  | .presence s v =>
    if e.kind = .shelf then
      if isSlot s ∧ columnOf s = e.assignment then c.presence s v false else c
    else reject
  | .malformed k => if e.kind = reporterOf k then c else reject

/-- The report of an answer: accepted when its toggle is new (R157). -/
def Part.handleReport (c : Part) (a : Nat) (toggle : Bool) (rep : Report) : Part :=
  match rep, c.node? a with
  | .nothing, _ => c
  | .rollAnswer _, _ => c
  | _, none => c
  | rep, some n =>
    if toggle = n.reportTog ∨ reportCode rep ≤ 0x01 then c else (c.putNode a { n with reportTog := toggle }).deliverReport a rep

/-- An answered exchange sets the miss count to 0 (R155). -/
def Part.clearMiss (c : Part) (a : Nat) : Part :=
  match c.node? a with
  | some n => c.putNode a { n with miss := 0 }
  | none => c

/-- What a roll-call is told by a frame that is its answer (R192). One that is no ROLL_ANSWER gives no kind and no
identity, and so not those planned (assumption 24). -/
def rollGiven : Report → RollAnswer
  | .rollAnswer r => r
  | _ => ⟨.none, 0, .a, false, 0, .manifold⟩

/-- The node addressed answers (R155 to R157). A report of another kind that answers a roll-call is handled as any other
(R157), and ends it (R192). -/
def Part.answered (c : Part) (ans : Answer) : Part :=
  let c0 := { c with bus := { c.bus with exchange := none } }
  match c.bus.exchange with
  | none => c
  | some (.order a) => (((c0.clearMiss a).acknowledged a ans.data).handleReport a ans.toggle ans.report)
  | some (.poll a) => (c0.clearMiss a).handleReport a ans.toggle ans.report
  | some (.rollCall a) =>
    ((c0.handleReport a ans.toggle ans.report).rollAnswered a (rollGiven ans.report)).nextRoll

/-- A third miss makes a PRESENT node LOST (R158). -/
def Part.missed (c : Part) (a : Nat) : Part :=
  match c.node? a with
  | none => c
  | some n =>
    if n.state ≠ .present then c
    else if n.miss + 1 < 3 then c.putNode a { n with miss := n.miss + 1 }
    else
      let e := c.planOf a
      ((c.putNode a { n with miss := 3, state := .lost }).say (.nodeLost a e.kind)).leaveService a e

/-- The answer window of the exchange in progress expires (R155, R158). -/
def Part.unanswered (c : Part) : Part :=
  let c0 := { c with bus := { c.bus with exchange := none } }
  match c.bus.exchange with
  | none => c
  | some (.order a) => c0.missed a
  | some (.poll a) => c0.missed a
  | some (.rollCall a) => (c0.rollUnanswered a).nextRoll

/-! ### Bus reset -/

/-- Every order queue is emptied; pass-through orders are reported undelivered (R160, R172). -/
def Part.emptyQueues (c : Part) : Part :=
  let c1 := c.bus.roster.foldl (fun c e => c.undelivered e.1 e.2.queue) c
  let empty := fun (n : Node) => { n with queue := [], miss := 0, rollPending := false }
  { c1 with bus := { c1.bus with roster := c1.bus.roster.map fun e => (e.1, empty e.2), exchange := none } }

/-- A robot at a warm start or bus reset, before its roll-call (R137): yields and travels end, a move it had is
gone; with no node planned it is LOST with no interval. -/
def Part.resetRobot (c : Part) (x : Side) : Part :=
  let r := { c.robot x with yieldTo := none, awaited := false, current := none }
  if (c.robotAddr x).isNone ∧ r.state ≠ .disabled then c.putRobot x { r with state := .lost, held := none }
  else c.putRobot x r

/-- BUS_RESET (R160): queues, load window, moves, passes and windows, then the enumeration. So WINDOW_DISCARDED stands
behind the PASS_REPORTs, which go by address, and ahead of the notices of the interrupted moves, a place that no rule
gives (DESIGN CHOICE, assumption 64). -/
def Part.busReset (c : Part) : Part :=
  let c1 := c.emptyQueues.discardWindow .busReset Shadow.table
  let c2 := c1.each 8 Part.emptyWindow
  let c3 := c2.interruptAll true
  (((c3.abortPasses).resetRobot .a).resetRobot .b).beginEnum .busReset

end Sys2Proof.Machine
end

