-- ==== Sys2Proof/Machine/Settle.lean ====
section
/-! DEFINITION. The end of an event: the signals its changes gave are served, oldest first, and every action whose
condition has come to hold is taken (R16, R37, R68, R89, R94, R101, R104, R111, R113, R119, R132, R155, R180), until
none is left. The order in which such conditions are looked at is assumption 14. -/

namespace Sys2Proof.Machine

/-- The ports whose delivery step waits to be served with a record (R94, R95). -/
def Part.wants (c : Part) (n p : Nat) : Bool :=
  match (c.port p).active.bind c.job? with
  | some r =>
    match r.head with
    | some (_, st) =>
      match st.work with
      | .deliver id _ => (c.rec? n).any fun r => decide (r.id = id)
      | .ret .. => false
    | none => false
  | none => false

/-- Serve one signal. On list room the claimants are tried in the order of R111. -/
def Part.serve (c : Part) (g : Sig) : Part :=
  match g with
  | .attempt p => c.attempt p
  | .handle p => c.handleReturn p
  | .returnStep p => c.attemptReturn p
  | .slotAvailable => c.each 8 Part.handleReturn
  | .room =>
    (c.each 4 fun c _ => c.recoveryOnce.getD c).each 8 fun c p => (c.handleReturn p).attempt p
  | .robots => (c.reassign true).getD c
  | .reticle n => c.each 8 fun c p => if c.wants n p then c.attempt p else c

/-- The first action whose condition holds. -/
def Part.levels (c : Part) : Option Part :=
  c.recoveryOnce <|> c.activateOnce <|> c.waitingOnce <|> c.offerScan <|> c.cursorDone
    <|> c.reassign (c.ctl.mode != .failSafe) <|> c.railOnce <|> c.supplyOnce

/-- One thing that is left to do: a standalone entry that has come to be complete, ahead of all else so that no block
acts in the mode it ends (R71, R77, R180), the oldest signal, or the first action whose condition holds. -/
def Part.nextAct (c : Part) : Option Part :=
  c.standaloneOnce <|>
  match c.work with
  | g :: rest => some (Part.serve { c with work := rest } g)
  | [] => c.levels

/-- Serve signals and take actions until none is left. The bound is far above what one event can cause; what a
bound would cut off stays and is taken up by the next event. -/
def Part.settleAll : Nat → Part → Part
  | 0, c => c
  | n + 1, c =>
    match c.nextAct with
    | some c1 => Part.settleAll n c1
    | none => c

/-- The global FAULT summary follows its conditions (R13). -/
def Part.setFault (c : Part) : Part := { c with ctl := { c.ctl with fault := c.faultNow } }

/-- The end of an event. -/
def Part.close (c : Part) : Part := ((Part.settleAll 4096 c).retryLevel.chooseExchange).setFault

end Sys2Proof.Machine
end

