-- ==== Sys2Proof/Machine/Tables.lean ====
section
/-! DEFINITION. The seven configuration tables: their entries as bytes (R2, R3, R50, R60, R149, R171, R174, R193,
11_formats.md), the validation of a table against live state, and the effects of making it live (R4, R50, R54, R61,
R116, R150, R171, R174). -/

namespace Sys2Proof.Machine

/-! ### Numbers in bytes -/

/-- A number as `n` bytes, most significant first (11_formats.md). -/
def toBytes (n v : Nat) : List Byte :=
  (List.range n).map fun i => BitVec.ofNat 8 (v / 256 ^ (n - 1 - i))

/-- The number bytes carry, most significant first. -/
def ofBytes (b : List Byte) : Nat := b.foldl (fun v x => v * 256 + x.toNat) 0

/-- The number in `n` bytes at an offset. -/
def field (b : List Byte) (at_ n : Nat) : Nat := ofBytes ((b.drop at_).take n)

/-- Bit i of the byte at an offset. -/
def bitAt (b : List Byte) (at_ i : Nat) : Bool := (b.getD at_ 0).getLsbD i

/-- A byte of yes-or-no values, bit 0 first. -/
def flagByte (l : List Bool) : Byte :=
  BitVec.ofNat 8 (l.foldr (fun v n => 2 * n + v.toNat) 0)

/-! ### Entries as bytes -/

def SlotCfg.encode (e : SlotCfg) : List Byte :=
  flagByte [e.kinds.getLsbD 0, e.kinds.getLsbD 1, e.kinds.getLsbD 2, e.kinds.getLsbD 3, false, false, false,
    e.enabled] :: toBytes 2 e.offset

def SlotCfg.decode (b : List Byte) : SlotCfg :=
  ⟨bitAt b 0 7, field b 1 2, BitVec.ofNat 4 (field b 0 1)⟩

def PortCfg.encode (e : PortCfg) : List Byte :=
  flagByte [e.kinds.getLsbD 0, e.kinds.getLsbD 1, e.kinds.getLsbD 2, e.kinds.getLsbD 3, false, false, e.directed,
    e.inPlan] :: toBytes 1 e.column

def PortCfg.decode (b : List Byte) : PortCfg :=
  ⟨bitAt b 0 7, field b 1 1, bitAt b 0 6, BitVec.ofNat 4 (field b 0 1)⟩

def ZoneCfg.encode (e : ZoneCfg) : List Byte :=
  flagByte [e.enabled] :: toBytes 1 e.manifold ++ toBytes 1 e.channel

/-- The channel is carried in two bits (R60). -/
def ZoneCfg.decode (b : List Byte) : ZoneCfg := ⟨bitAt b 0 0, field b 1 1, field b 2 1 % 4⟩

def SchedCfg.encode (e : SchedCfg) : List Byte :=
  toBytes 1 e.tInt ++ toBytes 2 e.purgeMax ++ toBytes 1 e.concurrency

def SchedCfg.decode (b : List Byte) : SchedCfg := ⟨field b 0 1, field b 1 2, field b 3 1⟩

def ClassCfg.encode (e : ClassCfg) : List Byte := toBytes 1 e.rate ++ toBytes 2 e.credit

def ClassCfg.decode (b : List Byte) : ClassCfg := ⟨field b 0 1, field b 1 2⟩

/-- Node kind codes (11_formats.md). -/
def kindCode : NodeKind → Nat
  | .none => 0
  | .robot => 1
  | .port => 2
  | .manifold => 3
  | .shelf => 4

/-- The node kind of a code; `none` for a code of no kind (R149). -/
def kindOfCode (n : Nat) : Option NodeKind :=
  match n with
  | 0 => some .none
  | 1 => some .robot
  | 2 => some .port
  | 3 => some .manifold
  | 4 => some .shelf
  | _ => none

/-- The assignment an entry of a kind stores: a robot's side in one bit, none for MANIFOLD and NONE (R149). -/
def assignmentField (k : NodeKind) (v : Nat) : Nat :=
  match k with
  | .robot => v % 2
  | .port | .shelf => v
  | .manifold | .none => 0

def PlanEntry.encode (e : PlanEntry) : List Byte :=
  toBytes 1 (kindCode e.kind) ++ toBytes 2 e.identity ++ toBytes 1 e.assignment

def PlanEntry.decode (b : List Byte) : Option PlanEntry :=
  (kindOfCode (field b 0 1)).map fun k => ⟨k, field b 1 2, assignmentField k (field b 3 1)⟩

def FilterCfg.encode (e : FilterCfg) : List Byte := [flagByte [e.normal, e.maintenance]]

def FilterCfg.decode (b : List Byte) : FilterCfg := ⟨bitAt b 0 0, bitAt b 0 1⟩

/-! ### Clamping and writing an entry of a shadow -/

def SlotCfg.clamp (e : SlotCfg) : SlotCfg := { e with offset := clampTo 0 4095 e.offset }
def PortCfg.clamp (e : PortCfg) : PortCfg := { e with column := clampTo 0 15 e.column }
def ZoneCfg.clamp (e : ZoneCfg) : ZoneCfg := { e with manifold := clampTo 0 63 e.manifold }
def SchedCfg.clamp (e : SchedCfg) : SchedCfg :=
  ⟨clampTo 1 255 e.tInt, clampTo 10 900 e.purgeMax, clampTo 1 4 e.concurrency⟩
def ClassCfg.clamp (e : ClassCfg) : ClassCfg := { e with credit := clampTo 0 4095 e.credit }
def PlanEntry.clamp (e : PlanEntry) : PlanEntry :=
  match e.kind with
  | .port => { e with assignment := clampTo 0 7 e.assignment }
  | .shelf => { e with assignment := clampTo 0 15 e.assignment }
  | _ => e

/-- Table codes (11_formats.md). -/
def tableOfCode (n : Nat) : Option TableId :=
  match n with
  | 0 => some .slotMap
  | 1 => some .port
  | 2 => some .zone
  | 3 => some .cls
  | 4 => some .limits
  | 5 => some .plan
  | 6 => some .filter
  | _ => none

def TableId.code : TableId → Nat
  | .slotMap => 0
  | .port => 1
  | .zone => 2
  | .cls => 3
  | .limits => 4
  | .plan => 5
  | .filter => 6

/-- The bytes of an entry (11_formats.md); a limits entry is one field in 2 bytes. A zone table index above 16, which is that of
no entry, is given the length of a zone's (DESIGN CHOICE, assumption 70). -/
def entryLength (t : TableId) (index : Nat) : Nat :=
  match t with
  | .slotMap => 3
  | .port => 2
  | .zone => if index = 16 then 4 else 3
  | .cls => 3
  | .limits => 2
  | .plan => 4
  | .filter => 1

/-- The index is one of the table's. -/
def indexOk (t : TableId) (i : Nat) : Bool :=
  match t with
  | .slotMap => i < 960
  | .port => i < 8
  | .zone => i < 17
  | .cls => i < 4
  | .limits => i < 11
  | .plan => 1 ≤ i && i ≤ 63
  | .filter => i < 7

/-- The copy of a live table (R173). -/
def Tables.copy (t : Tables) : TableId → Shadow
  | .slotMap => .slotMap t.slotMap
  | .port => .port t.ports
  | .zone => .zone t.zone
  | .cls => .cls t.classes
  | .limits => .limits t.limits
  | .plan => .plan t.plan
  | .filter => .filter t.filter

/-- A yes-or-no value: 0 or 1 (R193). -/
def yesNo (v : Nat) : Option Bool := if v = 0 then some false else if v = 1 then some true else none

/-- A field of the limits table written (R174): the table and the value stored; `none` for a MANUAL_PORT that is no code
of its field. R193 calls every other table field numeric, so a yes-or-no field above 1 is clamped to 1 (DESIGN CHOICE,
assumption 49). -/
def Limits.write (l : Limits) (i v : Nat) : Option (Limits × Nat) :=
  match i with
  | 0 => some ({ l with eWarn := v }, v)
  | 1 => some ({ l with eHold := v }, v)
  | 2 =>
    if v < 8 then some ({ l with manualPort := some v }, v)
    else if v = 255 then some ({ l with manualPort := none }, v) else none
  | 3 => some ({ l with disableA := v != 0 }, clampTo 0 1 v)
  | 4 => some ({ l with disableB := v != 0 }, clampTo 0 1 v)
  | 5 => some ({ l with clearSpans := clampTo 0 2 v }, clampTo 0 2 v)
  | 6 => some ({ l with moveTimeout := clampTo 10 600 v }, clampTo 10 600 v)
  | 7 => some ({ l with stepWaitMax := clampTo 0 3600 v }, clampTo 0 3600 v)
  | 8 => some ({ l with rollRetry := clampTo 2 60 v }, clampTo 2 60 v)
  | 9 => some ({ l with linkSilence := clampTo 5 255 v }, clampTo 5 255 v)
  | 10 => some ({ l with standaloneOnSilence := v != 0 }, clampTo 0 1 v)
  | _ => none

/-- Write one entry of a shadow (R173): the shadow, the entry as stored and whether a field was clamped; `none` for a
field outside its set of codes. -/
def Shadow.write (s : Shadow) (i : Nat) (b : List Byte) : Option (Shadow × List Byte × Bool) :=
  match s with
  | .slotMap t =>
    let e := SlotCfg.decode b
    some (.slotMap (Store.setD SlotCfg.default t i e.clamp), e.clamp.encode, e.clamp ≠ e)
  | .port t =>
    let e := PortCfg.decode b
    some (.port (Store.setD PortCfg.default t i e.clamp), e.clamp.encode, e.clamp ≠ e)
  | .zone t =>
    if i = 16 then
      let e := SchedCfg.decode b
      some (.zone { t with sched := e.clamp }, e.clamp.encode, e.clamp ≠ e)
    else
      let e := ZoneCfg.decode b
      some (.zone { t with zones := Store.setD ZoneCfg.default t.zones i e.clamp }, e.clamp.encode, e.clamp ≠ e)
  | .cls t =>
    let e := ClassCfg.decode b
    some (.cls (t.set i e.clamp), e.clamp.encode, e.clamp ≠ e)
  | .limits t => (t.write i (field b 0 2)).map fun w => (.limits w.1, toBytes 2 w.2, w.2 ≠ field b 0 2)
  | .plan t =>
    (PlanEntry.decode b).map fun e =>
      (.plan (Store.setD PlanEntry.default t i e.clamp), e.clamp.encode, e.clamp ≠ e)
  | .filter t => some (.filter (t.set i (FilterCfg.decode b)), (FilterCfg.decode b).encode, false)

/-! ### Validation -/

/-- The slot map check of R4: the lowest offending slot. -/
def Part.badSlotMap (c : Part) (t : Store SlotCfg) : Option Nat :=
  (t.find? fun e =>
    let live := c.slotCfg e.1
    (live.enabled && !e.2.enabled && c.occ e.1 != .vacant) ||
    match (c.occ e.1).names.bind c.rec? with
    | some r => accepts live.kinds r.kind && !accepts e.2.kinds r.kind
    | none => false).map (·.1)

/-- The port table check of R4: the lowest offending port. -/
def Part.badPorts (c : Part) (t : Store PortCfg) : Option Nat :=
  (List.range 8).find? fun p =>
    let live := c.portCfg p
    let new := Store.getD PortCfg.default t p
    let pt := c.port p
    (pt.active.isSome && live.column != new.column) ||
    (live.inPlan && !new.inPlan && (pt.active.isSome || !pt.queue.isEmpty || c.occ (posOf p) != .vacant))

/-- The zone table check of R61: the lowest offending entry. -/
def Part.badZones (c : Part) (t : ZoneTable) : Option Nat :=
  ((List.range 16).find? fun z =>
    (c.zone z).pass.isSome && Store.getD ZoneCfg.default t.zones z != c.zoneCfg z) <|>
  (if t.sched.concurrency < c.passes then some 16 else none)

/-- A robot is BUSY or YIELDING. -/
def Robot.engaged (r : Robot) : Bool := r.state = .busy || r.state = .yielding

/-- The present intervals would fail the clearance test under another CLEAR_SPANS (R116). -/
def Part.tooClose (c : Part) (gap : Nat) : Bool :=
  match c.mv.robotA.held, c.mv.robotB.held with
  | some i, some j => !c.parked .a && !c.parked .b && !keepsClear .a gap i j
  | _, _ => false

/-- The limits checks of R54 and R116: the lowest offending entry. -/
def Part.badLimits (c : Part) (t : Limits) : Option Nat :=
  if t.eHold ≤ t.eWarn then some 0
  else if t.disableA && !c.limits.disableA && c.mv.robotA.engaged then some 3
  else if t.disableB && !c.limits.disableB && c.mv.robotB.engaged then some 4
  else if c.tooClose t.clearSpans then some 5
  else none

/-- Another entry of a plan names the same side, port or column (R150). -/
def planTwin (t : Store PlanEntry) (a : Nat) (e : PlanEntry) : Bool :=
  (e.kind == .robot || e.kind == .port || e.kind == .shelf) &&
  t.any fun f => f.1 != a && f.2.kind == e.kind && f.2.assignment == e.assignment

/-- The entry is one manifold too many (R150). Too many robots, ports or shelf nodes always name one assignment
twice. -/
def planExcess (t : Store PlanEntry) (a : Nat) (e : PlanEntry) : Bool :=
  e.kind == .manifold && 8 ≤ (t.filter fun f => f.2.kind == .manifold && f.1 < a).length

/-- The live node of an address is in use: a BUSY or YIELDING robot, or a manifold with a pass in progress
(R150). -/
def Part.nodeInUse (c : Part) (a : Nat) : Bool :=
  let e := c.planOf a
  match e.kind, sideOf e.assignment with
  | .robot, some x => (c.robot x).engaged
  | .manifold, _ => (List.range 16).any fun z => (c.zoneCfg z).manifold == a && (c.zone z).pass.isSome
  | _, _ => false

/-- The node plan check of R150: the lowest offending address. -/
def Part.badPlan (c : Part) (t : Store PlanEntry) : Option Nat :=
  ((List.range 64).drop 1).find? fun a =>
    let e := Store.getD PlanEntry.default t a
    planTwin t a e || planExcess t a e || (e != c.planOf a && c.nodeInUse a)

/-- Validation of a table against live state (R175): the lowest offending index. -/
def Part.badShadow (c : Part) : Shadow → Option Nat
  | .slotMap t => c.badSlotMap t
  | .port t => c.badPorts t
  | .zone t => c.badZones t
  | .cls _ => none
  | .limits t => c.badLimits t
  | .plan t => c.badPlan t
  | .filter _ => none

/-! ### Making a table live -/

/-- The slot map becomes live (R4): slot available for a VACANT slot it enables, whatever its fault flags (R16). -/
def Part.liveSlotMap (c : Part) (t : Store SlotCfg) : Part :=
  let c1 := { c with tables := { c.tables with slotMap := t } }
  if c.inv.occ.any fun e =>
      isSlot e.1 && e.2 == .vacant && !(c.slotCfg e.1).enabled && (c1.slotCfg e.1).enabled
  then c1.signal .slotAvailable else c1

/-- The port table becomes live (R4): an ACTIVE RETURN job of a port turned AUTO ends CANCELLED, a MOVING step of it
first finishing (R89). -/
def Part.livePorts (c : Part) (t : Store PortCfg) : Part :=
  let c1 := { c with tables := { c.tables with ports := t } }
  c1.each 8 fun c1 p =>
    match (c1.port p).active.bind fun j => (c1.job? j).map fun r => (j, r) with
    | some (j, r) =>
      if r.kind = .ret ∧ (c.portCfg p).directed ∧ (c1.portCfg p).directed = false then c1.cancelActive j r else c1
    | none => c1

/-- The zone table becomes live (R61), the zones taken by number, an order that R66 leaves open (DESIGN CHOICE, assumption
61). A zone that is enabled keeps a mark that it has (DESIGN CHOICE, assumption 69). At a warm start the supply faults stand
as they are (R80). -/
def Part.liveZones (c : Part) (t : ZoneTable) (eval : Bool) : Part :=
  let c1 := { c with tables := { c.tables with zone := t } }
  c1.each 16 fun c1 z =>
    let old := c.zoneCfg z
    let new := c1.zoneCfg z
    let r := c1.zone z
    let timer := if new.enabled = old.enabled then r.timer
      else if new.enabled then some (c.now + 60 * t.sched.tInt) else none
    let moved := decide (new.manifold ≠ old.manifold ∨ new.channel ≠ old.channel)
    let fault := if eval && moved then c1.supplyBad z else r.supplyFault
    let c2 := (c1.putZone z { r with timer := timer, supplyFault := fault }).zoneSettled z (c.zoneDisabled z)
      (c.protective z)
    if new.enabled && !old.enabled && c2.zoneHasVacant z then c2.signal .slotAvailable else c2

/-- The class table becomes live (R50), every unprotected record first settled at the old rates, by record number, an order
that the rule leaves open (DESIGN CHOICE, assumption 51). -/
def Part.liveClasses (c : Part) (t : List ClassCfg) : Part :=
  let c1 := (c.inv.recs.filter fun e => e.2.stamp.isSome).foldl (fun c e => c.settle e.1) c
  { c1 with tables := { c1.tables with classes := t } }

/-- The limits table disables a robot. -/
def Limits.disables (l : Limits) : Side → Bool
  | .a => l.disableA
  | .b => l.disableB

/-- A robot becomes disabled or enabled by a limits commit (R116). The pending and held moves of one that becomes disabled
are looked at in the event, whatever its state was. -/
def Part.disableChange (c : Part) (x : Side) (was : Bool) : Part :=
  let r := c.robot x
  match was, c.limits.disables x with
  | false, true =>
    let c1 := (c.setRobot x { r with state := .disabled }).signal .robots
    if c.robotPresent x then
      let held := match r.held, r.span with
        | some i, some s => if r.state = .suspect then some (widen i x.park) else some (hull s x.park)
        | some i, none => some (widen i x.park)
        | none, some s => some (hull s x.park)
        | none, none => some (x.park, x.park)
      (c1.putRobot x { c1.robot x with held := held }).parkTravel x
    else c1.putRobot x { c1.robot x with held := some (x.park, x.park), yieldTo := none }
  | true, false =>
    if r.yieldTo.isSome then c.setRobot x { r with state := .yielding }
    else c.setRobot x { r with state := if c.robotPresent x then .idle else .lost }
  | _, _ => c

/-- The limits table becomes live (R54, R116). The threshold rule takes the records by number, an order that the rules
leave open (DESIGN CHOICE, assumption 51). -/
def Part.liveLimits (c : Part) (t : Limits) : Part :=
  let c1 := { c with tables := { c.tables with limits := t } }
  let c2 := (c.inv.recs.map (·.1)).foldl (fun c n => c.threshold n false) c1
  ((c2.disableChange .a c.limits.disableA).disableChange .b c.limits.disableB)

/-- A roster entry for a newly planned address (R150, R162). -/
def PlanEntry.node (e : PlanEntry) (call : Bool) : Node :=
  ⟨e.kind, e.identity, none, .absent, 0, false, false, [], call, call, false⟩

/-- The exchange in progress is abandoned where it is an order or a poll of an address the plan has changed. A roll-call
in progress runs on as the new entry's (DESIGN CHOICE, assumption 32). -/
def Part.abandon (c : Part) (a : Nat) : Part :=
  match c.bus.exchange with
  | some (.order b) => if a = b then { c with bus := { c.bus with exchange := none } } else c
  | some (.poll b) => if a = b then { c with bus := { c.bus with exchange := none } } else c
  | _ => c

/-- The old entry of a changed address leaves (R150): its roster entry and queue go, its owners as at a loss if it
was PRESENT. The express capability of a port that the new plan gives no node stays as it was (DESIGN CHOICE, assumption
52). An address that was not planned has none: an UNEXPECTED entry there stays until the address is planned
(R151). -/
def Part.dropPlanned (c : Part) (a : Nat) : Part :=
  let e := c.planOf a
  match c.node? a with
  | none => c
  | some n =>
    if e.kind = .none then c
    else
      let c1 := (c.abandon a).putNode a { n with state := .absent }
      let c2 := if n.state = .present then c1.leaveService a e else c1
      let rest := match c2.node? a with
        | some n => n.queue
        | none => []
      (c2.undelivered a rest).dropNode a

/-- A full roster gives up its UNEXPECTED entry of highest address to a planned one (R151; assumption 22). -/
def Part.rosterRoom (c : Part) : Part :=
  if 48 ≤ c.bus.roster.length then
    match (c.bus.roster.filter fun e => e.2.state = .unexpected).getLast? with
    | some e => c.dropNode e.1
    | none => c
  else c

/-- The new entry of a changed address arrives (R150, R153), in the place of an UNEXPECTED one if the roster has one
there (R151). -/
def Part.addPlanned (c : Part) (a : Nat) (e : PlanEntry) (call : Bool) : Part :=
  if e.kind = .none then c
  else
    let c1 := (if (c.node? a).isSome then c else c.rosterRoom).putNode a (e.node call)
    if e.kind = .port then c1.putPort e.assignment { c1.port e.assignment with express := false } else c1

/-- The node plan becomes live (R150). The changed addresses are taken in rising order, and so are the reports of the orders
their queues held, each with the notices of the node's owners, an order that R150 and R172 leave open (DESIGN CHOICE,
assumption 72). -/
def Part.livePlan (c : Part) (t : Store PlanEntry) : Part :=
  let changed := ((List.range 64).drop 1).filter fun a => Store.getD PlanEntry.default t a ≠ c.planOf a
  let c1 := changed.foldl Part.dropPlanned c
  let c2 := { c1 with tables := { c1.tables with plan := t } }
  changed.foldl (fun c a => (c.addPlanned a (c.planOf a) true).rosterChanged a) c2

/-- The filter table becomes live (R171). -/
def Part.liveFilter (c : Part) (t : List FilterCfg) : Part :=
  { c with tables := { c.tables with filter := t } }

/-- A shadow becomes the live table (R175). -/
def Part.makeLive (c : Part) : Shadow → Part
  | .slotMap t => c.liveSlotMap t
  | .port t => c.livePorts t
  | .zone t => c.liveZones t true
  | .cls t => c.liveClasses t
  | .limits t => c.liveLimits t
  | .plan t => c.livePlan t
  | .filter t => c.liveFilter t

/-- A table's live generation. -/
def Part.gen (c : Part) (t : TableId) : Nat := c.gens.getD t.code 0

/-- A generation counts up by one, with 65535 followed by 0 (11_formats.md). -/
def nextGen (g : Nat) : Nat := (g + 1) % 65536

/-- A commit that has passed its checks (R175): the shadow is live and its generation counts up. -/
def Part.commit (c : Part) (s : Shadow) : Part :=
  let c1 := c.makeLive s
  { c1 with gens := c1.gens.set s.table.code (nextGen (c1.gen s.table)) }

/-- The seven tables in table-code order, as shadows. -/
def Tables.shadows (t : Tables) : List Shadow :=
  [.slotMap t.slotMap, .port t.ports, .zone t.zone, .cls t.classes, .limits t.limits, .plan t.plan,
    .filter t.filter]

/-- The first table that fails its owner's validation, with its lowest offending index (R188). -/
def Part.badTables (c : Part) (t : Tables) : Option (TableId × Nat) :=
  t.shadows.findSome? fun s => (c.badShadow s).map fun i => (s.table, i)

/-- Seven tables become live in one event (R188, R189). Each owner applies its consequences in turn, in table-code order,
over those that went before (DESIGN CHOICE, assumption 54). -/
def Part.commitAll (c : Part) (t : Tables) : Part := t.shadows.foldl Part.commit c

/-- The mode takes a commit of a table (R175). -/
def Mode.commits (m : Mode) : TableId → Bool
  | .slotMap | .port | .plan => m = .maintenance
  | .zone => m.admits
  | .cls | .limits | .filter => m ≠ .start

/-- FAIL_SAFE opens the class, limits, filter and zone tables (R173, R185). -/
def TableId.opensInFailSafe : TableId → Bool
  | .cls | .limits | .filter | .zone => true
  | _ => false

end Sys2Proof.Machine
end

