-- ==== Sys2Proof/Machine/Image.lean ====
section
/-! DEFINITION. The stored image: its layout and its CRC-32 (R187, 11_formats.md). -/

namespace Sys2Proof.Machine

/-- One bit of the CRC-32 of R187, most significant bit first. -/
def crc32Bit (r : BitVec 32) (b : Bool) : BitVec 32 :=
  if r.msb ^^ b then (r <<< 1) ^^^ 0x04C11DB7#32 else r <<< 1

/-- One byte of the CRC-32, most significant bit first. The spec states that bit order for the CRC-16 of R192, and it
is taken for this one too (assumption 5). -/
def crc32Byte (r : BitVec 32) (x : Byte) : BitVec 32 :=
  (List.range 8).foldl (fun r i => crc32Bit r (x.getLsbD (7 - i))) r

/-- The CRC-32 over bytes: initial value FFFFFFFFh, the register at the end not inverted (R187). -/
def crc32 (b : List Byte) : BitVec 32 := b.foldl crc32Byte 0xFFFFFFFF#32

/-- The limits part of the image: 14 bytes (11_formats.md). -/
def Limits.encode (l : Limits) : List Byte :=
  toBytes 2 l.eWarn ++ toBytes 2 l.eHold ++ toBytes 1 (l.manualPort.getD 255) ++ [flagByte [l.disableA, l.disableB]]
    ++ toBytes 1 l.clearSpans ++ toBytes 2 l.moveTimeout ++ toBytes 2 l.stepWaitMax ++ toBytes 1 l.rollRetry
    ++ toBytes 1 l.linkSilence ++ toBytes 1 l.standaloneOnSilence.toNat

/-- The limits read from the 14 bytes of the image. -/
def Limits.decode (b : List Byte) : Limits where
  eWarn       := field b 0 2
  eHold       := field b 2 2
  manualPort  := if field b 4 1 < 8 then some (field b 4 1) else none
  disableA    := bitAt b 5 0
  disableB    := bitAt b 5 1
  clearSpans  := field b 6 1
  moveTimeout := field b 7 2
  stepWaitMax := field b 9 2
  rollRetry   := field b 11 1
  linkSilence := field b 12 1
  standaloneOnSilence := bitAt b 13 0

/-- Bytes 0..3246 of the image (11_formats.md). -/
def imageBody (t : Tables) (gens : List Nat) : List Byte :=
  (List.range 7).flatMap (fun i => toBytes 2 (gens.getD i 0))
    ++ (List.range 960).flatMap (fun s => (Store.getD SlotCfg.default t.slotMap s).encode)
    ++ (List.range 8).flatMap (fun p => (Store.getD PortCfg.default t.ports p).encode)
    ++ (List.range 16).flatMap (fun z => (Store.getD ZoneCfg.default t.zone.zones z).encode)
    ++ t.zone.sched.encode
    ++ (List.range 4).flatMap (fun k => (t.classes.getD k ⟨0, 0⟩).encode)
    ++ t.limits.encode
    ++ ((List.range 64).drop 1).flatMap (fun a => (Store.getD PlanEntry.default t.plan a).encode)
    ++ (List.range 7).flatMap (fun i => (t.filter.getD i ⟨false, false⟩).encode)

/-- The image of seven tables and their generations, its CRC-32 last (R187). -/
def encodeImage (t : Tables) (gens : List Nat) : List Byte :=
  let b := imageBody t gens
  b ++ toBytes 4 (crc32 b).toNat

/-- The image passes its check (R187). -/
def imageGood (b : List Byte) : Bool :=
  b.length == 3251 && (crc32 (b.take 3247)).toNat == field b 3247 4

/-- A table with a default read from `n` entries of `w` bytes each, numbered from `base`. -/
def readTable {α : Type} [DecidableEq α] (d : α) (read : List Byte → α) (base n w : Nat) (b : List Byte) : Store α :=
  (List.range n).foldr (fun i t =>
    let e := read ((b.drop (i * w)).take w)
    if e = d then t else (base + i, e) :: t) []

/-- The tables an image holds (11_formats.md). -/
def imageTables (b : List Byte) : Tables where
  slotMap := readTable SlotCfg.default SlotCfg.decode 0 960 3 (b.drop 14)
  ports   := readTable PortCfg.default PortCfg.decode 0 8 2 (b.drop 2894)
  zone    := ⟨readTable ZoneCfg.default ZoneCfg.decode 0 16 3 (b.drop 2910), SchedCfg.decode (b.drop 2958)⟩
  classes := (List.range 4).map fun k => ClassCfg.decode (b.drop (2962 + 3 * k))
  limits  := Limits.decode (b.drop 2974)
  plan    := readTable PlanEntry.default (fun e => (PlanEntry.decode e).getD PlanEntry.default) 1 63 4 (b.drop 2988)
  filter  := (List.range 7).map fun i => FilterCfg.decode (b.drop (3240 + i))

/-- The generations an image records. -/
def imageGens (b : List Byte) : List Nat := (List.range 7).map fun i => field b (2 * i) 2

/-- The tables and generations a start makes live, and whether the image failed its check (R190, R191). -/
def startTables (b : List Byte) : Tables × List Nat × Bool :=
  if imageGood b then (imageTables b, imageGens b, false) else (Tables.default, [0, 0, 0, 0, 0, 0, 0], true)

end Sys2Proof.Machine
end

