-- ==== Sys2Proof/Machine/Starts.lean ====
section
/-! DEFINITION. The values the blocks take at a cold start (R19, R42, R80, R109, R137, R148, R162, R190) and at a
warm start (R20, R42, R58, R80, R109, R137, R148, R162, R191). -/

namespace Sys2Proof.Machine

/-! ### Cold start -/

/-- A robot at cold start (R137). -/
def coldRobot (disabled : Bool) (x : Side) : Robot :=
  if disabled then { Robot.cold with state := .disabled, held := some (x.park, x.park) } else Robot.cold

/-- The zone records at cold start (R80): the timers of enabled zones run a full period. -/
def coldZones (t : ZoneTable) : Store Zone :=
  (t.zones.filter fun e => e.2.enabled).map fun e => (e.1, { Zone.cold with timer := some (60 * t.sched.tInt) })

/-- The roster at cold start: every planned address ABSENT (R162). -/
def coldRoster (t : Store PlanEntry) : Store Node :=
  (t.filter fun e => e.2.kind ≠ .none).map fun e => (e.1, e.2.node false)

/-- The blocks at power-on with given tables (R190), before the lines are sampled and the enumeration begins. -/
def Part.coldWith (t : Tables) (gens : List Nat) (bad : Bool) : Part where
  now    := 0
  tables := t
  gens   := gens
  inv    := ⟨[], [], [], [], [], ⟨false, 0, 0, 0, 0, 0⟩⟩
  zones  := coldZones t.zone
  jobs   := ⟨[], [], []⟩
  mv     := ⟨[], 0, 0, coldRobot t.limits.disableA .a, coldRobot t.limits.disableB .b⟩
  watch  := ⟨[WatchEntry.cold, WatchEntry.cold, WatchEntry.cold, WatchEntry.cold], none⟩
  bus    := ⟨coldRoster t.plan, none, none, 0, 0, none⟩
  window := none
  ctl    := ⟨.start, none, false, FailCauses.none, false, false, false, false, true, bad, false⟩
  out    := []
  work   := []

/-- The blocks at power-on (R190): the lines are sampled, an active one being taken as becoming active in START, ENCLOSURE
ahead of STOP (assumption 37), and the cold enumeration begins. -/
def Part.coldStart (image : List Byte) (enclosure stop : Bool) : Part :=
  let (t, gens, bad) := startTables image
  (((Part.coldWith t gens bad).lineChange .enclosure enclosure).lineChange .stop stop).beginEnum .cold

/-! ### Warm start -/

/-- A record at a warm start (R42): reservations and offers end, job references go. -/
def Rec.warm (r : Rec) : Rec :=
  match r.state with
  | .reserved =>
    match r.place with
    | .loc l => { r with state := if isSlot l then .idle else .returned, job := none }
    | _ => { r with job := none }
  | .presented | .withdrawing => { r with state := .returned, job := none }
  | _ => { r with job := none }

/-- The records whose offers a warm start ends (R109). -/
def Part.offered (c : Part) : List Nat :=
  (c.inv.recs.filter fun e => e.2.state = .presented ∨ e.2.state = .withdrawing).map (·.1)

/-- A port record at a warm start (R109). -/
def Port.warm (p : Port) : Port :=
  { p with window := [], queue := [], active := none, idleSent := false, ret := none }

/-- The Job Engine at a warm start (R109): every job and return is removed, with no notice. -/
def Part.warmJobs (c : Part) : Part :=
  let offers := c.offered
  let c1 := { c with jobs := { c.jobs with jobs := [], offers := offers } }
  c1.each 8 fun c p => c.putPort p (c.port p).warm

/-- The Inventory at a warm start (R20, R42): records as `Rec.warm`, every verified flag no, the cursor inactive. -/
def Part.warmInventory (c : Part) : Part :=
  let recs := c.inv.recs.map fun e => (e.1, e.2.warm)
  let occ := c.inv.occ.map fun e => (e.1, e.2.withVerified false)
  { c with inv := { c.inv with recs := recs, occ := occ, cursor := { c.inv.cursor with active := false } } }

/-- Every JOB enable becomes OFF at a warm start (R148). -/
def Part.warmWatch (c : Part) : Part :=
  let off := fun (w : WatchEntry) => match w.enable with
    | .job _ => { w with enable := .off }
    | _ => w
  { c with watch := { c.watch with entries := c.watch.entries.map off } }

/-- A robot as the limits table reloaded at a warm start disables or enables it (R137). One newly disabled keeps the interval
it holds, and without one takes its park span (DESIGN CHOICE, assumption 53). -/
def Part.warmRobot (c : Part) (x : Side) (was : Bool) : Part :=
  let r := c.robot x
  match was, c.limits.disables x with
  | false, true =>
    c.putRobot x { r with state := .disabled, held := r.held <|> some (x.park, x.park), current := none }
  | true, false => c.putRobot x { r with state := if c.robotPresent x then .idle else .lost }
  | _, _ => c

/-- An entry that stays as its address is planned anew at a warm start (R162): one that has never answered is as planned,
and its port has the express capability of the entry, no where it has none (R151, R153; assumption 52). -/
def Part.replan (c : Part) (a : Nat) (e : PlanEntry) : Part :=
  match c.node? a with
  | none => c
  | some n =>
    let c1 := if n.answered then c else c.putNode a { n with kind := e.kind, identity := e.identity }
    if e.kind = .port then
      c1.putPort e.assignment { c1.port e.assignment with express := n.caps.any Caps.express }
    else c1

/-- Each robot has the state that it had in another part. -/
def Part.withStatesOf (c was : Part) : Part :=
  let d := c.putRobot .a { c.robot .a with state := (was.robot .a).state }
  d.putRobot .b { d.robot .b with state := (was.robot .b).state }

/-- The roster rebuilt against the reloaded plan (R162). A column whose shelf node the plan takes away or puts at another
address has no hints left (R6). A robot takes its roll-call answer by its state before the start (R137), so that one whose
address is dropped keeps its state until then, if the plan has it at another (DESIGN CHOICE, assumption 65). -/
def Part.warmPlan (c : Part) (t : Store PlanEntry) : Part :=
  let all := (List.range 64).drop 1
  let new := fun a => (Store.getD PlanEntry.default t a).kind
  let gone := all.filter fun a => c.planned a && new a == .none
  let added := all.filter fun a => !c.planned a && new a != .none
  let changed := all.filter fun a =>
    c.planned a && new a != .none && Store.getD PlanEntry.default t a != c.planOf a
  let c1 := (gone.foldl Part.dropPlanned c).withStatesOf c
  let c2 := { c1 with tables := { c1.tables with plan := t } }
  let c3 := added.foldl (fun c a => c.addPlanned a (c.planOf a) false) c2
  let c4 := changed.foldl (fun c a => c.replan a (c.planOf a)) c3
  c4.each 16 fun c1 col =>
    if (c1.tables.nodeFor .shelf col).isSome && c1.tables.nodeFor .shelf col == c.tables.nodeFor .shelf col then c1
    else c1.clearHints col

/-- The tables of the image, or the defaults, become live at a warm start (R191), each owner applying what R20, R80,
R137 and R162 say of it, and every record following the reloaded thresholds (R52). -/
def Part.warmTables (c : Part) (t : Tables) (gens : List Nat) (bad : Bool) : Part :=
  let wasA := c.limits.disableA
  let wasB := c.limits.disableB
  let c1 := (c.liveZones t.zone false).warmPlan t.plan
  let tables := { c1.tables with
    slotMap := t.slotMap, ports := t.ports, classes := t.classes, limits := t.limits, filter := t.filter }
  let c2 := { c1 with tables := tables, gens := gens, ctl := { c1.ctl with imageBad := bad } }
  let c3 := (c2.inv.recs.map (·.1)).foldl (fun c n => c.threshold n false) c2
  (c3.warmRobot .a wasA).warmRobot .b wasB

/-- The Mode Controller at a warm start (R191): START, with the lines active now counted as seen. -/
def ModeController.warm (k : ModeController) : ModeController :=
  { k with
    mode := .start, ret := none, pending := false, causes := FailCauses.none
    seenEnclosure := k.enclosure, seenStop := k.stop }

/-- What the blocks do at a warm start (R191), the notice queue apart. Dispatched moves are interrupted and passes
aborted under the outgoing tables, so that a record they settle is settled at the old rates (R58 does not say;
DESIGN CHOICE, assumption 38). The start counts as begun before the plan changes, so that the supply faults stand until
its enumeration ends (R66, R80, R162; assumption 36). -/
def Part.warmStart (c : Part) (image : List Byte) : Part :=
  let (t, gens, bad) := startTables image
  let c1 := c.emptyQueues.abortPasses.warmJobs
  let c2 := c1.interruptAll true
  let c3 := { c2 with mv := { c2.mv with moves := [], nextNum := 0, lastSeq := 0 } }
  let c4 := (c3.warmInventory.warmWatch)
  let c5 := { c4 with
    ctl := c4.ctl.warm, window := none, work := [], bus := { c4.bus with enum := some ⟨.warm, []⟩ } }
  let c6 := c5.warmTables t gens bad
  ((c6.resetRobot .a).resetRobot .b).beginEnum .warm

end Sys2Proof.Machine
end

