-- ==== Sys2Proof/Machine/Upstream.lean ====
section
/-! DEFINITION. The Upstream Port: the receiver and the silence timer (R163 to R165), the transmitter (R166), the
notice queue (R169), the taking of requests (R167, R168, R185), and how a command ends as one event. -/

namespace Sys2Proof.Machine

/-! ### The notice queue -/

/-- Notices the queue holds, the one in transmission among them (R169). -/
def NoticeQueue.size (q : NoticeQueue) : Nat := q.queue.length + (if q.sending.isSome then 1 else 0)

/-- The queue without its oldest minor notice; `none` where it holds none (R169). -/
def dropMinor : List Notice → Option (List Notice)
  | [] => none
  | n :: t => if n.subject.minor then some t else (dropMinor t).map fun t => n :: t

/-- The next sequence number, with 65535 followed by 0 (R169). -/
def nextSeqNo (n : Nat) : Nat := (n + 1) % 65536

/-- A notice is generated (R169): it joins the tail, displaces the oldest minor notice not in transmission, or is
dropped. -/
def NoticeQueue.push (q : NoticeQueue) (time : Nat) (s : Subject) : NoticeQueue :=
  let n : Notice := ⟨q.next, time, s⟩
  let q1 := { q with next := nextSeqNo q.next }
  if q.size < 32 then { q1 with queue := q.queue ++ [n] }
  else if s.minor then { q1 with lost := true }
  else match dropMinor q.queue with
    | some t => { q1 with queue := t ++ [n], lost := true }
    | none => { q1 with lost := true }

/-- The notices of an event join the queue in their order (R169). -/
def NoticeQueue.pushAll (q : NoticeQueue) (time : Nat) (l : List Subject) : NoticeQueue :=
  l.foldl (fun q s => q.push time s) q

/-! ### The end of a command's event -/

/-- The transmitter chooses its next frame when it is free (R166): a reply before any notice, while the link is HUNT
or UP. -/
def State.transmit (s : State) : State :=
  if s.link.state = .down ∨ s.link.sending.isSome ∨ s.notices.sending.isSome then s
  else match s.link.replies with
    | r :: t => { s with link := { s.link with replies := t, sending := some r } }
    | [] =>
      match s.notices.queue with
      | n :: t => { s with notices := { s.notices with queue := t, sending := some n } }
      | [] => s

/-- The notices the blocks generated join the notice queue. -/
def State.flush (s : State) : State :=
  { s with
    notices := s.notices.pushAll s.part.now s.part.out
    part := { s.part with out := [] } }

/-- The end of an event that the blocks took part in. -/
def State.finish (s : State) : State := (State.flush { s with part := s.part.close }).transmit

/-- An event of the blocks alone. -/
def State.run (s : State) (f : Part → Part) : State := State.finish { s with part := f s.part }

/-! ### Frames -/

/-- A good frame is heard (R163, R165): HUNT becomes UP, and the silence timer restarts. -/
def State.heard (s : State) : State :=
  { s with link := { s.link with state := .up, silence := some (s.part.now + s.part.limits.linkSilence) } }

/-- LINK_ERROR is set; a change from clear queues its notice (R164). -/
def State.linkFault (s : State) (overrun : Bool) : State :=
  if s.link.error then s
  else { s with link := { s.link with error := true }, part := s.part.say (.linkError overrun) }

/-- A reply joins the replies awaiting transmission (R167). -/
def State.reply (s : State) (r : Reply) : State :=
  { s with link := { s.link with replies := s.link.replies ++ [r] } }

/-- The link is DOWN, and hears no frame (R163). -/
def State.deaf (s : State) : Bool := s.link.state = .down

/-- The replies awaiting transmission are at their limit of 4 (R164, R166). -/
def State.full (s : State) : Bool := 4 ≤ s.link.replies.length

/-- A good frame that overruns the replies (R164, R166): discarded without effect. -/
def State.overrun (s : State) : State := State.finish (s.heard.linkFault true)

/-- A request is taken whole (R167): `f` is its owner's effect and answer. A frame is not heard while the link is
DOWN, and a good frame that finds 4 replies waiting is an overrun. -/
def State.request (s : State) (addr tag kind : Nat) (f : State → State × Rsp) : State :=
  if s.deaf then s
  else if s.full then s.overrun
  else
    let (s1, r) := f s.heard
    (s1.reply ⟨addr, kind, tag, r⟩).finish

/-- A query is taken (R167): it is answered in every mode and changes nothing but the link's own state. -/
def State.query (s : State) (tag kind : Nat) (f : State → Rsp) : State :=
  if s.deaf then s
  else if s.full then s.overrun
  else (s.heard.reply ⟨0, kind, tag, f s.heard⟩).transmit

/-- The result of a command that goes on, as every one does. -/
abbrev Out := Host.Outcome State Fault Refusal

/-! ### Answers -/

/-- A bare result code (R168). -/
def Rsp.code (r : Result) : Rsp := ⟨r, false, .none⟩

/-- OK with a payload. -/
def Rsp.ok (b : Body) : Rsp := ⟨.ok, false, b⟩

/-- A request the owner refuses: nothing is changed. -/
def State.refuse (s : State) (r : Result) : State × Rsp := (s, Rsp.code r)

/-- A request the owner carries out on the blocks. -/
def State.accept (s : State) (p : Part) (b : Body) : State × Rsp := ({ s with part := p }, Rsp.ok b)

/-- The mode in force. -/
def State.mode (s : State) : Mode := s.part.ctl.mode

/-- Requests refused in START alone (R167, R185). -/
def State.notInStart (s : State) (k : State → State × Rsp) : State × Rsp :=
  if s.mode = .start then s.refuse .wrongMode else k s

/-- Requests refused in START and FAIL_SAFE (R167, R185). -/
def State.inService (s : State) (k : State → State × Rsp) : State × Rsp :=
  if s.mode.admits then k s else s.refuse .wrongMode

/-- Requests taken in one mode alone. -/
def State.inMode (s : State) (m : Mode) (k : State → State × Rsp) : State × Rsp :=
  if s.mode = m then k s else s.refuse .wrongMode

/-- A test whose failure refuses the request. -/
def State.need (s : State) (ok : Bool) (r : Result) (k : State × Rsp) : State × Rsp :=
  if ok then k else s.refuse r

/-- The record a request names by ID (R21): BAD_REQUEST for a bad form, UNKNOWN_RETICLE for an ID no record
carries. -/
def State.named (s : State) (id : RetId) (k : Nat → Rec → State × Rsp) : State × Rsp :=
  if idOk id then
    match s.part.findId id with
    | some (n, r) => k n r
    | none => s.refuse .unknownReticle
  else s.refuse .badRequest

/-! ### The warm start as a whole -/

/-- The warm start (R176, R191): the blocks, then the notice queue emptied but for one MODE_CHANGE, which after a
deferred start carries the outcome of the image write. -/
def State.warmStart (s : State) (written : Option Bool) : State :=
  let old := s.part.ctl.mode
  let s1 := State.flush { s with part := s.part.warmStart s.image.bytes }
  let q := s1.notices
  let note := Subject.modeChange .start old .warmRestart FailCauses.none none written
  { s1 with
    notices := { q with queue := [], lost := q.lost || !q.queue.isEmpty }
    part := s1.part.say note }

end Sys2Proof.Machine
end

