-- ==== Sys2Proof/Machine/Queries.lean ====
section
/-! DEFINITION. The queries: GET_STATUS (R170) and the QUERY requests of the owners (R18, R43, R79, R108, R135, R147,
R161), taken in every mode (R167). -/

namespace Sys2Proof.Machine

/-- The code of a link state, in the order of R163. -/
def LinkState.code : LinkState → Nat
  | .down => 0
  | .hunt => 1
  | .up => 2

/-- The status summary (R170). -/
def State.status (s : State) : Status where
  mode        := s.part.ctl.mode
  ret         := s.part.ctl.ret
  fault       := s.part.ctl.fault
  powerOn     := s.part.ctl.powerOn
  imageBad    := s.part.ctl.imageBad
  lost        := s.notices.lost
  linkError   := s.link.error
  enclosure   := s.part.ctl.enclosure
  stop        := s.part.ctl.stop
  slotFaults  := (List.range 16).map s.part.slotFault
  purgeFaults := (List.range 16).map s.part.purgeFault
  robotA      := s.part.mv.robotA.state
  robotB      := s.part.mv.robotB.state
  nodeFaults  := s.part.nodeFaults
  gens        := s.part.gens
  scanActive  := s.part.inv.cursor.active
  scanNext    := s.part.inv.cursor.next
  scanRemaining := s.part.inv.cursor.remaining
  rescans     := s.part.inv.rescan.length
  link        := s.link.state.code
  notices     := s.notices.size
  nextSeq     := s.notices.next
  window      := s.part.window.map fun w => (w.shadow.table, w.gen)
  writing     := s.image.writing.isSome

/-- GET_STATUS without its clear option (R170). -/
def execGetStatus (tag : Nat) (s : State) : Out :=
  .next (s.query tag 0x01 fun s => Rsp.ok (.status s.status))

/-- The flags GET_STATUS clears with its clear option (R170). -/
def State.clearFlags (s : State) : State :=
  { s with
    part := { s.part with ctl := { s.part.ctl with powerOn := false } }
    notices := { s.notices with lost := false }
    link := { s.link with error := false } }

/-- GET_STATUS with its clear option (R170): the flags are cleared after the reply has been formed. -/
def execGetStatusClear (tag : Nat) (s : State) : Out :=
  .next (if s.deaf then s else if s.full then s.overrun
    else (s.heard.clearFlags.reply ⟨0, 0x01, tag, Rsp.ok (.status s.heard.status)⟩).transmit)

/-- What QUERY_LOCATION returns (R18). -/
def Part.locationRsp (c : Part) (l : Nat) : Rsp :=
  if l < 960 then Rsp.ok (.slot (c.slotCfg l) (c.occ l) (c.hint l) (c.flagsOf l))
  else if l < 968 then Rsp.ok (.position (c.portCfg (l - 960)) (c.occ l))
  else if l = 968 then Rsp.ok (.handEntry .a (c.occ l))
  else if l = 969 then Rsp.ok (.handEntry .b (c.occ l))
  else Rsp.code .badIndex

/-- QUERY_LOCATION (R18). -/
def execQueryLocation (tag l : Nat) (s : State) : Out :=
  .next (s.query tag 0x02 fun s => s.part.locationRsp l)

/-- The record QUERY_RETICLE finds, or the code of its refusal (R43). -/
def Part.selectReticle (c : Part) (sel : RetSel) : Except Result Nat :=
  match sel with
  | .byId x =>
    if idOk x then
      match c.findId x with
      | some (n, _) => .ok n
      | none => .error .unknownReticle
    else .error .badRequest
  | .byNumber n =>
    if 1023 < n then .error .badIndex
    else if (c.rec? n).isSome then .ok n else .error .unknownReticle
  | .next n =>
    if 1023 < n then .error .badIndex
    else match c.inv.recs.find? fun e => n ≤ e.1 with
      | some e => .ok e.1
      | none => .error .unknownReticle

/-- QUERY_RETICLE (R43): the record is settled before the reply is formed. -/
def execQueryReticle (tag : Nat) (sel : RetSel) (s : State) : Out :=
  .next (s.request 0 tag 0x03 fun s =>
    match s.part.selectReticle sel with
    | .error r => s.refuse r
    | .ok n =>
      let c := s.part.settle n
      match c.rec? n with
      | some r => s.accept c (.reticle n r (c.verified n))
      | none => s.refuse .unknownReticle)

/-- What QUERY_ZONE returns (R79). -/
def Part.zoneRsp (c : Part) (z : Nat) : Rsp :=
  if z < 16 then
    Rsp.ok (.zone (c.zoneCfg z) (c.zone z) (c.zoneState z) (c.zoneClosed z) (c.protective z) (c.wanting z))
  else Rsp.code .badIndex

/-- QUERY_ZONE (R79). -/
def execQueryZone (tag z : Nat) (s : State) : Out :=
  .next (s.query tag 0x04 fun s => s.part.zoneRsp z)

/-- What QUERY_JOB returns (R108). -/
def Part.jobRsp (c : Part) (j : Nat) : Rsp :=
  if 15 < j then Rsp.code .badIndex
  else match c.job? j with
    | some r => Rsp.ok (.job j r (r.express && (c.port r.port).express))
    | none => Rsp.code .wrongState

/-- QUERY_JOB (R108). -/
def execQueryJob (tag j : Nat) (s : State) : Out :=
  .next (s.query tag 0x05 fun s => s.part.jobRsp j)

/-- What QUERY_PORT returns (R3, R108). -/
def Part.portRsp (c : Part) (p : Nat) : Rsp :=
  if 8 ≤ p then Rsp.code .badIndex
  else if (c.portCfg p).inPlan then Rsp.ok (.port (c.port p))
  else Rsp.code .noPort

/-- QUERY_PORT (R108). -/
def execQueryPort (tag p : Nat) (s : State) : Out :=
  .next (s.query tag 0x06 fun s => s.part.portRsp p)

/-- What QUERY_MOVE returns (R135). A walk that finds no further move is refused as a number no move carries
(assumption 25). -/
def Part.moveRsp (c : Part) (sel : MoveSel) : Rsp :=
  match sel with
  | .byNumber n =>
    if 255 < n then Rsp.code .badIndex
    else match c.move? n with
      | some m => Rsp.ok (.move m)
      | none => Rsp.code .wrongState
  | .next seq =>
    match c.mv.moves.find? fun m => seq < m.seq with
    | some m => Rsp.ok (.move m)
    | none => Rsp.code .wrongState

/-- QUERY_MOVE (R135). -/
def execQueryMove (tag : Nat) (sel : MoveSel) (s : State) : Out :=
  .next (s.query tag 0x07 fun s => s.part.moveRsp sel)

/-- What QUERY_ROBOT returns (R135). -/
def Part.robotRsp (c : Part) (n : Nat) : Rsp :=
  match sideOf n with
  | some x => Rsp.ok (.robot (c.robot x) (c.occ (handOf x)))
  | none => Rsp.code .badIndex

/-- QUERY_ROBOT (R135). -/
def execQueryRobot (tag n : Nat) (s : State) : Out :=
  .next (s.query tag 0x08 fun s => s.part.robotRsp n)

/-- QUERY_WATCH (R147). -/
def execQueryWatch (tag : Nat) (s : State) : Out :=
  .next (s.query tag 0x09 fun s => Rsp.ok (.watch s.part.watch))

/-- What QUERY_NODE returns (R161). -/
def Part.nodeRsp (c : Part) (a : Nat) : Rsp :=
  if 1 ≤ a ∧ a ≤ 63 then Rsp.ok (.node (c.planOf a) (c.node? a)) else Rsp.code .badIndex

/-- QUERY_NODE (R161). -/
def execQueryNode (tag a : Nat) (s : State) : Out :=
  .next (s.query tag 0x0A fun s => s.part.nodeRsp a)

end Sys2Proof.Machine
end

