-- ==== Sys2Proof/Machine/Stock.lean ====
section
/-! DEFINITION. The requests of the Inventory and of the Purge Scheduler: DECLARE, RETIRE, HOLD, UNHOLD, CLEAR_FAULT,
SCAN_RANGE, CANCEL_SCAN and SET_EXPOSURE (R11, R25, R27, R36, R38, R57, R78). -/

namespace Sys2Proof.Machine

/-! ### DECLARE -/

/-- The place a DECLARE names (R25, 11_formats.md): a slot, or SCANNER(p) as 1000 + p. -/
def declaredPlace (loc : Nat) : Option Place :=
  if loc < 960 then some (.loc loc)
  else if 1000 ≤ loc ∧ loc < 1008 then some (.scanner (loc - 1000))
  else none

/-- The last two checks of R25: the code of the refusal, if any. The reserved destinations are those of moves that
place a pod; a SCAN only reads its location. -/
def Part.declareBar (c : Part) : Place → Option Result
  | .loc l =>
    if (c.occ l = .vacant ∨ c.occ l = .unknown) ∧
        ¬(c.mv.moves.any fun m => m.kind != .scan && m.dst == some l) then none
    else some .wrongState
  | .scanner p => if (c.portCfg p).inPlan then none else some .noPort
  | .none => some .badIndex

/-- The state of a declared record (R25): IDLE in a slot, OUT at a scanner. -/
def Place.declared : Place → RState
  | .loc _ => .idle
  | _ => .out

/-- The record a declaration creates takes its place (R25), the account and the hold of R52 with it. -/
def Part.declare (c : Part) (n : Nat) (r : Rec) : Part :=
  let c1 := (c.putRec n r).signal (.reticle n)
  let c2 := match r.place with
    | .loc l => c1.setOcc l (.occupied n false)
    | _ => c1
  (c2.fixProtection n).threshold n false

/-- The exposure a DECLARE gives: 0 where it gives none (R25); `none` for a presence byte of no code (R193). -/
def declaredE : OptArg Nat → Option Nat
  | .absent => some 0
  | .given e => some e
  | .bad => none

/-- DECLARE (R25). -/
def execDeclare (tag : Nat) (id : RetId) (cls kind : Nat) (e : OptArg Nat) (loc : Nat) (s : State) : Out :=
  .next (s.request 0 tag 0x10 fun s =>
    s.inService fun s =>
    s.need (idOk id && decide (cls < 4) && (declaredE e).isSome) .badRequest <|
    s.need (s.part.findId id).isNone .duplicateId <|
    match s.part.freeRec, declaredPlace loc with
    | none, _ => s.refuse .tableFull
    | some _, none => s.refuse .badIndex
    | some n, some p =>
      match s.part.declareBar p with
      | some r => s.refuse r
      | none =>
        s.accept (s.part.declare n ⟨id, cls, kindField kind, p, p.declared, false, false, false, (declaredE e).getD 0, 0, none,
          none⟩) (.number n))

/-! ### RETIRE -/

/-- A step that has not ended names an ID (R27). -/
def Part.stepNames (c : Part) (x : RetId) : Bool :=
  c.jobs.jobs.any fun e => e.2.steps.any fun st =>
    st.state != .ended &&
    match st.work with
    | .deliver id _ => decide (id = x)
    | .ret _ expect => decide (expect = some x)

/-- The port at whose position a record may be retired: it stands RETURNED at MANUAL_PORT (R27). -/
def Part.manualAt (c : Part) (r : Rec) : Option Nat :=
  match c.limits.manualPort with
  | some p => if r.state = .returned ∧ r.place = .loc (posOf p) then some p else none
  | none => none

/-- A record in a standing that RETIRE takes (R27). -/
def Part.retirable (c : Part) (r : Rec) : Bool :=
  (r.state = .out || r.state = .lost || (c.manualAt r).isSome) && !c.stepNames r.id

/-- A record is retired (R27): at the manual port its moves end, its return with its window entry, and the position
becomes VACANT. -/
def Part.retire (c : Part) (n : Nat) (r : Rec) : Part :=
  match c.manualAt r with
  | none => (c.vacate n .unknown).dropRec n
  | some p => ((((c.endPendingOf n .retired).endReturn p).serveReturn p).vacate n .vacant).dropRec n

/-- RETIRE (R27). -/
def execRetire (tag : Nat) (id : RetId) (s : State) : Out :=
  .next (s.request 0 tag 0x11 fun s =>
    s.inService fun s => s.named id fun n r =>
    s.need (s.part.retirable r) .wrongState (s.accept (s.part.retire n r) .none))

/-! ### HOLD and UNHOLD -/

/-- The reply of HOLD and UNHOLD: the record number and the reasons it carries after the request (R38). -/
def Part.holdsBody (c : Part) (n : Nat) : Body :=
  match c.rec? n with
  | some r => .holds n r.operator r.exposure r.mismatch
  | none => .none

/-- HOLD (R38). -/
def execHold (tag : Nat) (id : RetId) (s : State) : Out :=
  .next (s.request 0 tag 0x12 fun s =>
    s.notInStart fun s => s.named id fun n _ =>
    let c := s.part.addHold n .operator
    s.accept c (c.holdsBody n))

/-- The reason an UNHOLD names (R38): OPERATOR where it names none; `none` for EXPOSURE and for a value of no reason. The code of
a reason is the number of its bit in the set of the formats chapter, 0 OPERATOR, 1 EXPOSURE and 2 MISMATCH (DEDUCED,
assumption 74). -/
def unheldReason : OptArg Nat → Option HoldReason
  | .absent => some .operator
  | .given 0 => some .operator
  | .given 2 => some .mismatch
  | _ => none

/-- UNHOLD (R38). -/
def execUnhold (tag : Nat) (id : RetId) (reason : OptArg Nat) (s : State) : Out :=
  .next (s.request 0 tag 0x13 fun s =>
    s.notInStart fun s => s.named id fun n _ =>
    match unheldReason reason with
    | none => s.refuse .badRequest
    | some h =>
      let c := s.part.clearHold n h false
      s.accept c (c.holdsBody n))

/-! ### CLEAR_FAULT -/

/-- The flags of a slot are cleared (R11): a cleared SEAL_FAULT lets protection return, a cleared PRESENCE_CONFLICT
makes the hint missing, and a VACANT slot that becomes eligible signals slot available. One that is not eligible after the
clear either, since it is disabled, gives no signal, as R16 says and R11 does not (DESIGN CHOICE, assumption 66). -/
def Part.clearSlot (c : Part) (l : Nat) : Part :=
  let f := c.flagsOf l
  let c1 := c.putFlags l SlotFlags.clear
  let c2 := if f.conflict then c1.setHint l .missing else c1
  let c3 := c2.fixSlot l
  if c3.occ l = .vacant ∧ c3.eligibleSrc l ∧ ¬c.eligibleSrc l then c3.signal .slotAvailable else c3

/-- CLEAR_FAULT of a slot (R11), and of a subject that is neither a slot nor a zone (R193). -/
def execClearFault (tag : Nat) (slot : Option Nat) (s : State) : Out :=
  .next (s.request 0 tag 0x14 fun s =>
    s.notInStart fun s =>
    match slot with
    | none => s.refuse .badRequest
    | some l => s.need (l < 960) .badIndex (s.accept (s.part.clearSlot l) .none))

/-- CLEAR_FAULT of a zone (R78). -/
def execClearFaultZone (tag zone : Nat) (s : State) : Out :=
  .next (s.request 0 tag 0x14 fun s =>
    s.notInStart fun s =>
    s.need (zone < 16) .badIndex <|
    s.accept (s.part.updZone zone fun r => { r with overrunFlag := false, failedFlag := false, failures := 0 }) .none)

/-! ### The scan cursor -/

/-- SCAN_RANGE (R36). -/
def execScanRange (tag first count : Nat) (s : State) : Out :=
  .next (s.request 0 tag 0x15 fun s =>
    s.inService fun s =>
    s.need (first < 960) .badIndex <|
    s.need (1 ≤ count ∧ first + count ≤ 960) .badLength <|
    s.need (!s.part.inv.cursor.active) .busy <|
    s.accept (s.part.setCursor ⟨true, first, count, first, count, 0⟩) .none)

/-- CANCEL_SCAN (R36). -/
def execCancelScan (tag : Nat) (s : State) : Out :=
  .next (s.request 0 tag 0x16 fun s =>
    s.notInStart fun s => s.accept s.part.cancelScan .none)

/-! ### SET_EXPOSURE -/

/-- The value an account carries after the write of R57. -/
def Part.writeExposure (c : Part) (n e : Nat) : Part :=
  ((c.accrueRec n).updRec n fun r => { r with e := e, frac := 0 }).threshold n true

/-- The reply of SET_EXPOSURE: the settled account the write replaced, and the hold reasons after it (R57). -/
def Part.exposureBody (c c1 : Part) (n : Nat) : Body :=
  match (c.accrueRec n).rec? n, c1.rec? n with
  | some r, some r1 => .account r.e r.frac r1.operator r1.exposure r1.mismatch
  | _, _ => .none

/-- SET_EXPOSURE (R57). -/
def execSetExposure (tag : Nat) (id : RetId) (e : Nat) (s : State) : Out :=
  .next (s.request 0 tag 0x17 fun s =>
    s.inMode .maintenance fun s => s.named id fun n _ =>
    let c := s.part.writeExposure n e
    s.accept c (s.part.exposureBody c n))

end Sys2Proof.Machine
end

