-- ==== Sys2Proof/Machine/Work.lean ====
section
/-! DEFINITION. The requests of the Job Engine, the Move Scheduler and the Watch Unit: DELIVER, RETURN, CANCEL_JOB,
MASK_PORT and UNMASK_PORT (R84, R87, R88, R91), RELOCATE and RECOVER_ROBOT (R132, R133), and the watch requests (R139,
R144, R145, R147). -/

namespace Sys2Proof.Machine

/-! ### Jobs -/

/-- A port can be given a job (R87, R88): in plan, with a planned port node whose entry is not ABSENT. -/
def Part.takesJobs (c : Part) (p : Nat) : Bool :=
  (c.portCfg p).inPlan &&
  match (c.portAddr p).bind c.node? with
  | some n => n.state != .absent
  | none => false

/-- Jobs queued or active at a port (R85): every job record is one or the other, since a job that ends is freed. -/
def Part.jobsAt (c : Part) (p : Nat) : Nat := (c.jobs.jobs.filter fun e => e.2.port = p).length

/-- The lowest free number of the job pool (R85). -/
def Part.freeJob (c : Part) : Option Nat :=
  let j := Store.lowestFree c.jobs.jobs 0
  if j < 16 then some j else none

/-- A new step (R85). -/
def Step.new (w : StepWork) : Step := ⟨w, .pending, none, none, none, none⟩

/-- A use duration above 1023 is taken as 1023 (R87). -/
def durationField (d : Nat) : Nat := clampTo 0 1023 d

/-- The steps of a DELIVER request (R87). -/
def deliverySteps (steps : List DStep) : List Step :=
  steps.map fun d => Step.new (.deliver d.id (durationField d.d))

/-- The steps of a RETURN request (R88). -/
def returnSteps (steps : List RStep) : List Step :=
  steps.map fun r => Step.new (.ret r.dest r.expect)

/-- A CONTINUE successor, if given, is a job number (R87, R88). -/
def contOk (f : JobFlags) : Bool :=
  match f.cont with
  | some q => q < 16
  | none => true

/-- An accepted job (R87, R88): QUEUED at the tail of its port's queue. -/
def Part.addJob (c : Part) (j p : Nat) (k : JobKind) (steps : List Step) (f : JobFlags) : Part :=
  (c.putJob j ⟨p, k, false, steps, f.stop, f.express, f.cont, false, false⟩).putPort p
    { c.port p with queue := (c.port p).queue ++ [j] }

/-- EXPRESS is requested of a port without the capability (R87). -/
def Part.expressMissing (c : Part) (p : Nat) (f : JobFlags) : Bool := f.express && !(c.port p).express

/-- The last checks of DELIVER and RETURN, and the job's creation (R87, R88). -/
def State.takeJob (s : State) (p : Nat) (k : JobKind) (steps : List Step) (f : JobFlags) (res : Result) :
    State × Rsp :=
  s.need (contOk f) .badIndex <|
  match s.part.freeJob with
  | none => s.refuse .noJobSpace
  | some j =>
    s.need (s.part.jobsAt p < 4) .portQueueFull
      ({ s with part := s.part.addJob j p k steps f }, ⟨res, s.part.expressMissing p f, .number j⟩)

/-- The first step of a list whose ID no record carries, counted from 1 (R87). -/
def Part.unknownStep (c : Part) (steps : List DStep) : Option Nat :=
  (steps.findIdx? fun d => (c.findId d.id).isNone).map (· + 1)

/-- DELIVER (R87). -/
def execDeliver (tag port : Nat) (steps : List DStep) (flags : JobFlags) (s : State) : Out :=
  .next (s.request 0 tag 0x20 fun s =>
    s.inService fun s =>
    s.need (1 ≤ steps.length ∧ steps.length ≤ 8) .badLength <|
    s.need (port < 8) .badIndex <|
    s.need (s.part.takesJobs port) .noPort <|
    s.need (steps.all fun d => idOk d.id) .badRequest <|
    match s.part.unknownStep steps with
    | some i => (s, ⟨.unknownReticle, false, .number i⟩)
    | none =>
      s.takeJob port .deliver (deliverySteps steps) flags
        (if steps.any fun d => 1023 < d.d then .clamped else .ok))

/-- A named destination of a RETURN step is a slot (R88). -/
def destOk (r : RStep) : Bool :=
  match r.dest with
  | .slot n => n < 960
  | .any => true

/-- An expected ID, if given, has the form of R21 (R88). -/
def expectOk (r : RStep) : Bool :=
  match r.expect with
  | some x => idOk x
  | none => true

/-- RETURN (R88). -/
def execReturnJob (tag port : Nat) (steps : List RStep) (flags : JobFlags) (s : State) : Out :=
  .next (s.request 0 tag 0x21 fun s =>
    s.inService fun s =>
    s.need (1 ≤ steps.length ∧ steps.length ≤ 8) .badLength <|
    s.need (port < 8) .badIndex <|
    s.need (s.part.takesJobs port) .noPort <|
    s.need (s.part.portCfg port).directed .wrongState <|
    s.need (steps.all destOk) .badIndex <|
    s.need (steps.all expectOk) .badRequest <|
    s.takeJob port .ret (returnSteps steps) flags .ok)

/-- CANCEL_JOB (R91). -/
def execCancelJob (tag job : Nat) (s : State) : Out :=
  .next (s.request 0 tag 0x22 fun s =>
    s.notInStart fun s =>
    s.need (job < 16) .badIndex <|
    match s.part.job? job with
    | none => s.refuse .wrongState
    | some r => s.accept (s.part.cancelJob job r) .none)

/-- MASK_PORT (R84). -/
def execMaskPort (tag port : Nat) (s : State) : Out :=
  .next (s.request 0 tag 0x23 fun s =>
    s.notInStart fun s =>
    s.need (port < 8) .badIndex <|
    s.accept (s.part.putPort port { s.part.port port with masked := true }) .none)

/-- UNMASK_PORT (R84): the port takes up its work in the same event. -/
def execUnmaskPort (tag port : Nat) (s : State) : Out :=
  .next (s.request 0 tag 0x24 fun s =>
    s.notInStart fun s =>
    s.need (port < 8) .badIndex <|
    s.accept (s.part.unmask port) .none)

/-! ### Moves and robots -/

/-- A destination named by RELOCATE is a slot (R133). -/
def isSlotOrAny : Dest → Bool
  | .slot n => n < 960
  | .any => true

/-- A named destination as the Move Scheduler is asked for it. -/
def namedDest : Dest → Option Nat
  | .slot n => some n
  | .any => none

/-- A record reserved by RELOCATE (R133): RESERVED without a job reference if it carries no hold, else left IDLE. -/
def Rec.relocating (r : Rec) : Rec := if r.held then r else { r with state := .reserved, job := none }

/-- The reply of an admission (R114, R133): the number, PENDING or HELD, and the destination chosen for ANY. -/
def Move.body (m : Move) : Body :=
  .admitted m.num (m.state = .held) (if m.refColumn.isSome then m.dst else none)

/-- RELOCATE (R133). -/
def execRelocate (tag : Nat) (id : RetId) (dest : Dest) (s : State) : Out :=
  .next (s.request 0 tag 0x30 fun s =>
    s.inService fun s => s.named id fun n r =>
    s.need (isSlotOrAny dest) .badIndex <|
    s.need (r.state = .idle ∧ s.part.inMove n = false) .wrongState <|
    match r.place with
    | .loc src =>
      match s.part.admitAsk ⟨.relocate, some src, namedDest dest, columnOf src, r.kind, .relocate, none, false, none,
          false⟩ with
      | .error e => s.refuse e
      | .ok (c, m) => s.accept (c.updRec n Rec.relocating) m.body
    | _ => s.refuse .wrongState)

/-- RECOVER_ROBOT (R132). -/
def execRecoverRobot (tag robot : Nat) (s : State) : Out :=
  .next (s.request 0 tag 0x31 fun s =>
    s.inService fun s =>
    match sideOf robot with
    | none => s.refuse .badIndex
    | some x =>
      s.need ((s.part.robot x).state = .suspect ∧ s.part.robotPresent x) .wrongState <|
      s.need (!(s.part.robot x).awaited) .busy <|
      s.accept (s.part.askHand x) .none)

/-- RELEASE_MOVE (R144). -/
def execReleaseMove (tag move : Nat) (s : State) : Out :=
  .next (s.request 0 tag 0x41 fun s =>
    s.inService fun s =>
    s.need (move < 256) .badIndex <|
    match s.part.move? move with
    | none => s.refuse .notHeld
    | some m =>
      s.need (m.state = .held) .notHeld <|
      s.accept (s.part.putMove { m with state := .pending, passed := true }) .none)

/-- CANCEL_MOVE (R145, R146). -/
def execCancelMove (tag move : Nat) (s : State) : Out :=
  .next (s.request 0 tag 0x42 fun s =>
    s.inService fun s =>
    s.need (move < 256) .badIndex <|
    match s.part.move? move with
    | none => s.refuse .wrongState
    | some m =>
      s.need (!m.granted) .wrongState <|
      s.accept (s.part.cancelMove m .cancelMove) .none)

/-! ### Watch entries -/

/-- The qualifier of a code (R138). -/
def qualOf (n : Nat) : Option WatchQual :=
  match n with
  | 0 => some .before
  | 1 => some .after
  | 2 => some .both
  | _ => none

/-- The match kinds and the enables have three codes each (R138). -/
def watchCodesOk (a : WatchArgs) : Bool := a.kind < 3 && a.enable < 3

/-- What the entry compares a move with, its range base aligned (R139). -/
def watchMatch (a : WatchArgs) : WatchMatch :=
  if a.kind = 0 then .reticle a.id
  else if a.kind = 1 then .range (a.base - a.base % a.len) a.len
  else .port a.port

/-- The enable of an entry (R138). -/
def watchEnabled (a : WatchArgs) : WatchEnable :=
  if a.enable = 0 then .off else if a.enable = 1 then .global else .job a.job

/-- The checks of R139 on the match value and the enable, in their order: the code of the first that fails. -/
def Part.watchBar (c : Part) (a : WatchArgs) : Option Result :=
  if a.kind = 0 ∧ idOk a.id = false then some .badRequest
  else if a.kind = 1 ∧ a.len ≠ 1 ∧ a.len ≠ 2 ∧ a.len ≠ 4 ∧ a.len ≠ 8 then some .badLength
  else if a.kind = 1 ∧ 960 ≤ a.base then some .badIndex
  else if a.kind = 2 ∧ 8 ≤ a.port then some .badIndex
  else if a.enable = 2 ∧ 16 ≤ a.job then some .badIndex
  else if a.enable = 2 ∧ (c.job? a.job).isNone then some .wrongState
  else none

/-- An entry is written (R139); its match flag stays as it was. -/
def Part.setWatchEntry (c : Part) (i : Nat) (w : WatchEntry) : Part :=
  { c with watch := { c.watch with entries := c.watch.entries.set i w } }

/-- SET_WATCH (R139). -/
def execSetWatch (tag index : Nat) (args : WatchArgs) (s : State) : Out :=
  .next (s.request 0 tag 0x40 fun s =>
    s.inService fun s =>
    s.need (index < 4) .badIndex <|
    s.need (watchCodesOk args) .badRequest <|
    match qualOf args.qual with
    | none => s.refuse .badRequest
    | some q =>
      match s.part.watchBar args with
      | some r => s.refuse r
      | none =>
        let old := s.part.watch.entries.getD index WatchEntry.cold
        let w : WatchEntry := ⟨watchMatch args, q, watchEnabled args, old.flag⟩
        s.accept (s.part.setWatchEntry index w) (.watchEntry w))

/-- The watch status cleared (R147). -/
def WatchUnit.cleared (w : WatchUnit) : WatchUnit :=
  ⟨w.entries.map fun e => { e with flag := false }, none⟩

/-- CLEAR_WATCH_FLAGS (R147). -/
def execClearWatchFlags (tag : Nat) (s : State) : Out :=
  .next (s.request 0 tag 0x43 fun s =>
    s.inService fun s => s.accept { s.part with watch := s.part.watch.cleared } .none)

end Sys2Proof.Machine
end

