-- ==== Sys2Proof/Machine/Control.lean ====
section
/-! DEFINITION. The requests of the load window, the Image Store and the Mode Controller, BUS_RESET and the starts
(R160, R173, R175, R179, R180, R182, R184, R186 to R191), and a request of no known kind (R167). -/

namespace Sys2Proof.Machine

/-! ### The load window -/

/-- The table a request names (R173, R193). -/
def State.tableNamed (s : State) (code : Nat) (k : TableId → State × Rsp) : State × Rsp :=
  match tableOfCode code with
  | some t => k t
  | none => s.refuse .badIndex

/-- FAIL_SAFE opens four of the tables only (R173, R185). -/
def State.windowMode (s : State) (t : TableId) (k : State × Rsp) : State × Rsp :=
  s.need (s.mode ≠ .failSafe || t.opensInFailSafe) .wrongMode k

/-- The window opens on a copy of a live table (R173). -/
def Part.openWindow (c : Part) (t : TableId) : Part :=
  { c with window := some ⟨c.tables.copy t, nextGen (c.gen t)⟩ }

/-- LOAD_OPEN (R173). A code of no table is BAD_INDEX in FAIL_SAFE too, since the mode's bar is on the tables (DESIGN
CHOICE, assumption 7). -/
def execLoadOpen (tag table : Nat) (s : State) : Out :=
  .next (s.request 0 tag 0x60 fun s =>
    s.notInStart fun s => s.tableNamed table fun t =>
    s.windowMode t <|
    s.need s.part.window.isNone .windowBusy <|
    s.accept (s.part.openWindow t) (.number (nextGen (s.part.gen t))))

/-- The window open for a table (R173). -/
def Part.windowFor (c : Part) (t : TableId) : Option Window :=
  c.window.bind fun w => if w.shadow.table = t then some w else none

/-- The bytes of an entry do not fit the table it names (R167). -/
def entryMisfits (code index : Nat) (entry : List Byte) : Bool :=
  match tableOfCode code with
  | some t => entry.length != entryLength t index
  | none => false

/-- LOAD_ENTRY (R173, R174, R193). -/
def execLoadEntry (tag table index : Nat) (entry : List Byte) (s : State) : Out :=
  .next (s.request 0 tag 0x61 fun s =>
    s.need (!entryMisfits table index entry) .badRequest <|
    s.notInStart fun s => s.tableNamed table fun t =>
    s.windowMode t <|
    match s.part.windowFor t with
    | none => s.refuse .noWindow
    | some w =>
      s.need (indexOk t index) .badIndex <|
      match w.shadow.write index entry with
      | none => s.refuse .badRequest
      | some (sh, stored, clamped) =>
        ({ s with part := { s.part with window := some { w with shadow := sh } } },
          ⟨if clamped then .clamped else .ok, false, .entry stored⟩))

/-- LOAD_COMMIT (R175). -/
def execLoadCommit (tag table : Nat) (s : State) : Out :=
  .next (s.request 0 tag 0x62 fun s =>
    s.notInStart fun s => s.tableNamed table fun t =>
    match s.part.windowFor t with
    | none => s.refuse .noWindow
    | some w =>
      s.need (s.mode.commits t) .wrongMode <|
      s.need s.image.writing.isNone .busy <|
      match s.part.badShadow w.shadow with
      | some i => (s, ⟨.commitRefused, false, .number i⟩)
      | none =>
        let c := { s.part with window := none }.commit w.shadow
        s.accept c (.number (c.gen t)))

/-- LOAD_DISCARD (R173). -/
def execLoadDiscard (tag : Nat) (s : State) : Out :=
  .next (s.request 0 tag 0x63 fun s =>
    s.notInStart fun s => s.accept { s.part with window := none } .none)

/-! ### The stored image -/

/-- The write of an image begins (R187): the copy of the live tables is what it writes. -/
def State.beginWrite (s : State) : State :=
  { s with image := { s.image with writing := some (s.part.tables, s.part.gens) } }

/-- STORE_IMAGE (R187). -/
def execStoreImage (tag : Nat) (s : State) : Out :=
  .next (s.request 0 tag 0x64 fun s =>
    s.inService fun s =>
    s.need s.image.writing.isNone .busy (s.beginWrite, Rsp.ok .none))

/-- Seven tables are validated and become live together (R188, R189). `c` is the blocks with IMAGE_BAD as the request
leaves it when it succeeds. -/
def State.restore (s : State) (t : Tables) (c : Part) : State × Rsp :=
  match s.part.badTables t with
  | some (k, i) => ({ s with part := c }, ⟨.commitRefused, false, .refused k i⟩)
  | none =>
    let c1 := c.commitAll t
    s.accept c1 (.gens c1.gens)

/-- IMAGE_BAD takes a value. -/
def Part.setImageBad (c : Part) (v : Bool) : Part := { c with ctl := { c.ctl with imageBad := v } }

/-- RELOAD_IMAGE (R188): the check of the image sets or clears IMAGE_BAD. -/
def execReloadImage (tag : Nat) (s : State) : Out :=
  .next (s.request 0 tag 0x65 fun s =>
    s.inMode .maintenance fun s =>
    s.need s.part.window.isNone .windowBusy <|
    s.need s.image.writing.isNone .busy <|
    if imageGood s.image.bytes then s.restore (imageTables s.image.bytes) (s.part.setImageBad false)
    else ({ s with part := s.part.setImageBad true }, Rsp.code .wrongState))

/-- RESTORE_DEFAULTS (R189). -/
def execRestoreDefaults (tag : Nat) (s : State) : Out :=
  .next (s.request 0 tag 0x66 fun s =>
    s.inMode .maintenance fun s =>
    s.need s.part.window.isNone .windowBusy <|
    s.need s.image.writing.isNone .busy <|
    s.restore Tables.default s.part)

/-! ### Modes -/

/-- ENTER_MAINTENANCE (R179): the returns that wait are handled again (R101). -/
def execEnterMaintenance (tag : Nat) (s : State) : Out :=
  .next (s.request 0 tag 0x70 fun s =>
    s.inMode .normal fun s => s.accept (s.part.setMode .maintenance .request).resume .none)

/-- EXIT_MAINTENANCE (R179): the ports take up their work. -/
def execExitMaintenance (tag : Nat) (s : State) : Out :=
  .next (s.request 0 tag 0x71 fun s =>
    s.inMode .maintenance fun s => s.accept (s.part.setMode .normal .request).resume .none)

/-- A standalone entry becomes pending (R180). It completes, in this event or a later one, by
`Part.standaloneOnce`. -/
def Part.beginStandalone (c : Part) : Part := { c with ctl := { c.ctl with pending := true } }

/-- ENTER_STANDALONE (R180). -/
def execEnterStandalone (tag : Nat) (s : State) : Out :=
  .next (s.request 0 tag 0x72 fun s =>
    s.need (s.mode = .normal || s.mode = .maintenance) .wrongMode <|
    s.need (!s.part.ctl.pending) .busy <|
    s.accept s.part.beginStandalone .none)

/-- The exit from STANDALONE (R182). -/
def Part.leaveStandalone (c : Part) (abort : Bool) : Part :=
  let c1 := { c with ctl := { c.ctl with ret := none } }.setMode (c.ctl.ret.getD .normal) .request
  let c2 := if abort then c1.abortPasses else c1
  c2.clearMarks.resume

/-- EXIT_STANDALONE (R182): the option is a yes-or-no byte (R193). -/
def execExitStandalone (tag abortPasses : Nat) (s : State) : Out :=
  .next (s.request 0 tag 0x73 fun s =>
    s.inMode .standalone fun s =>
    s.need (abortPasses < 2) .badRequest <|
    s.accept (s.part.leaveStandalone (abortPasses = 1)) .none)

/-- FORCE_FAIL_SAFE (R184). -/
def execForceFailSafe (tag : Nat) (s : State) : Out :=
  .next (s.request 0 tag 0x74 fun s =>
    s.inService fun s => s.accept (s.part.enterFailSafe .forced ⟨false, false, true, false⟩) .none)

/-- EXIT_FAIL_SAFE (R186). -/
def execExitFailSafe (tag : Nat) (s : State) : Out :=
  .next (s.request 0 tag 0x75 fun s =>
    s.inMode .failSafe fun s =>
    s.need (!(s.part.ctl.enclosure || s.part.ctl.stop)) .interlockActive <|
    s.accept s.part.leaveFailSafe .none)

/-! ### The bus -/

/-- BUS_RESET (R160). -/
def execBusReset (tag : Nat) (s : State) : Out :=
  .next (s.request 0 tag 0x50 fun s =>
    s.inService fun s =>
    s.need s.part.bus.enum.isNone .busy (s.accept s.part.busReset .none))

/-! ### Starts -/

/-- SOFT_RESET (R191): the warm start at once, or deferred while an image write is in progress. -/
def execSoftReset (tag : Nat) (s : State) : Out :=
  .next (s.request 0 tag 0x76 fun s =>
    s.notInStart fun s =>
    if s.image.writing.isSome then ({ s with image := { s.image with deferred := true } }, Rsp.ok .none)
    else (s.warmStart none, Rsp.ok .none))

/-- The image as a power failure leaves it (R187): whole, or cut if a write was in progress (assumption 1). -/
def ImageStore.atPowerOn (i : ImageStore) : ImageStore :=
  if i.writing.isSome then ⟨Config.brokenImage i.broken, none, false, i.broken + 1⟩
  else ⟨i.bytes, none, false, i.broken⟩

/-- COLD_START (R190): power-on. Nothing but the image outlives it. -/
def execColdStart (enclosure stop : Bool) (s : State) : Out :=
  let image := s.image.atPowerOn
  .next (State.finish ⟨Part.coldStart image.bytes enclosure stop, ⟨[], 0, false, none⟩,
    ⟨.down, none, [], none, false⟩, image, s.pending⟩)

/-! ### Requests of no known kind -/

/-- UNKNOWN_REQUEST (R167, R192). -/
def execUnknownRequest (tag kind : Nat) (s : State) : Out :=
  .next (s.request 0 tag kind fun s => s.refuse .badRequest)

end Sys2Proof.Machine
end

