-- ==== Sys2Proof/Machine/PassThrough.lean ====
section
/-! DEFINITION. Pass-through frames (R134, R171, R172). -/

namespace Sys2Proof.Machine

/-- The order kinds of R156 that belong to a node kind; ROLL_CALL and POLL belong to any. -/
def ordersOf : NodeKind → List Nat
  | .robot => [0x01, 0x02, 0x10, 0x11, 0x12, 0x13, 0x14, 0x15]
  | .manifold => [0x01, 0x02, 0x20, 0x21]
  | .port => [0x01, 0x02, 0x30, 0x31, 0x32, 0x33]
  | .shelf => [0x01, 0x02]
  | .none => []

/-- The filter index of a forwardable order kind (R171). -/
def filterIndex (kind : Nat) : Option Nat :=
  match kind with
  | 0x10 => some 0
  | 0x14 => some 1
  | 0x15 => some 2
  | 0x21 => some 3
  | 0x31 => some 4
  | 0x32 => some 5
  | 0x33 => some 6
  | _ => none

/-- The filter column for the present mode (R171): in STANDALONE that of the mode it returns to. -/
def Part.filterAllows (c : Part) (i : Nat) : Bool :=
  let e := c.tables.filter.getD i ⟨false, false⟩
  match c.ctl.mode, c.ctl.ret with
  | .normal, _ => e.normal
  | .maintenance, _ => e.maintenance
  | .standalone, some .normal => e.normal
  | .standalone, some .maintenance => e.maintenance
  | _, _ => false

/-- The checks of R171, in their order: the code of the first that fails. A frame addressed to 64 or above is
BAD_INDEX before any of them. -/
def Part.passBar (c : Part) (addr kind : Nat) : Option Result :=
  if 64 ≤ addr then some .badIndex
  else if !c.ctl.mode.admits then some .wrongMode
  else if addr = 0 ∨ c.planned addr = false then some .badIndex
  else if kind ∉ ordersOf (c.planOf addr).kind then some .badRequest
  else match filterIndex kind with
    | none => some .filtered
    | some i => if c.filterAllows i then none else some .filtered

/-- A pass-through MOVE_LEG that has passed R171 is admitted as a MANUAL move (R134). -/
def State.passLeg (s : State) (tag addr src dst kind : Nat) : State × Rsp :=
  s.need (src < 968 ∧ dst < 968) .badIndex <|
  match s.part.admitAsk ⟨.manual, some src, some dst, 0, kindField kind, .pass tag,
      sideOf (s.part.planOf addr).assignment, false, none, false⟩ with
  | .error e => s.refuse e
  | .ok (c, m) => s.accept c (.number m.num)

/-- PASS_THROUGH_MOVE_LEG (R134, R171, R172). -/
def execPassThroughMoveLeg (tag addr src dst kind : Nat) (s : State) : Out :=
  .next (s.request addr tag 0x10 fun s =>
    match s.part.passBar addr 0x10 with
    | some r => s.refuse r
    | none => s.passLeg tag addr src dst kind)

/-- A PORT_JOB payload (11_formats.md): active or idle, job number, kind. A code of no set is BAD_REQUEST ahead of a job
number out of range, which is BAD_INDEX (R193; DESIGN CHOICE, assumption 8). -/
def passPortJob (b : List Byte) : Except Result Order :=
  let a := field b 0 1
  let j := field b 1 1
  let k := field b 2 1
  if b.length ≠ 3 ∨ 1 < a ∨ 1 < k then .error .badRequest
  else if 15 < j then .error .badIndex
  else .ok (.portJob (a = 0) j (if k = 0 then .deliver else .ret))

/-- A PORT_PRESENT payload: ID, pod kind, D. -/
def passPresent (b : List Byte) : Except Result Order :=
  if b.length = 15 ∧ idOk (b.take 12) then .ok (.portPresent (b.take 12) (kindField (field b 12 1)) (field b 13 2))
  else .error .badRequest

/-- The order a pass-through frame other than a MOVE_LEG carries (11_formats.md), or the code of its refusal: a payload
that does not fit its kind is BAD_REQUEST. -/
def passOrder (kind : Nat) (b : List Byte) : Except Result Order :=
  match kind with
  | 0x14 => if b.length = 0 then .ok .abortMotion else .error .badRequest
  | 0x15 => if b.length = 0 then .ok .handSnapshot else .error .badRequest
  | 0x21 => if b.length = 1 then .ok (.purgeAbort (field b 0 1 % 4)) else .error .badRequest
  | 0x31 => passPortJob b
  | 0x32 => passPresent b
  | 0x33 => if b.length = 12 ∧ idOk b then .ok (.withdraw b) else .error .badRequest
  | _ => .error .badRequest

/-- The pass-through orders a node's queue holds (R156). -/
def Node.passes (n : Node) : Nat := (n.queue.filter fun o => o.pass.isSome).length

/-- A pass-through order that has passed R171 joins the tail of its node's queue, or finds 4 there (R172). -/
def State.passQueue (s : State) (tag addr : Nat) (o : Order) : State × Rsp :=
  match s.part.node? addr with
  | none => s.refuse .badIndex
  | some n =>
    s.need (n.passes < 4) .busy <|
    s.accept (s.part.queueOrder (some addr) ⟨o, some tag⟩) .none

/-- PASS_THROUGH_ORDER (R171, R172). A MOVE_LEG so carried is taken as the MANUAL move it is. -/
def execPassThroughOrder (tag addr kind : Nat) (payload : List Byte) (s : State) : Out :=
  .next (s.request addr tag kind fun s =>
    match s.part.passBar addr kind with
    | some r => s.refuse r
    | none =>
      if kind = 0x10 then
        s.need (payload.length = 5) .badRequest
          (s.passLeg tag addr (field payload 0 2) (field payload 2 2) (field payload 4 1))
      else match passOrder kind payload with
        | .error r => s.refuse r
        | .ok o => s.passQueue tag addr o)

end Sys2Proof.Machine
end

