-- ==== Sys2Proof/Machine/Events.lean ====
section
/-! DEFINITION. The events that are no requests: those of the upstream line (R163 to R166), of the bus (R155 to R159),
of the timers (R63, R72, R95, R120, R130), of the Image Store (R187) and of the interlock lines (R183). -/

namespace Sys2Proof.Machine

/-! ### Time -/

/-- One second of part time passes, with no other effect: an expiry is an event of its own (assumption 26). -/
def State.tick (s : State) : State := { s with part := { s.part with now := s.part.now + 1 } }

/-! ### The upstream line -/

/-- FRAME_CHECK_FAILED (R163, R164): in UP it sets LINK_ERROR. -/
def execFrameCheckFailed (s : State) : Out :=
  .next (if s.link.state = .up then (s.linkFault false).finish else s)

/-- REPLY_OVERRUN (R164, R166). With room for its reply the frame is no overrun, and nothing is known of it. -/
def execReplyOverrun (s : State) : Out :=
  .next (if s.deaf then s else if s.full then s.overrun else s)

/-- LINE_SIGNAL_UP (R163). -/
def execLineSignalUp (s : State) : Out :=
  .next (if s.deaf then { s with link := { s.link with state := .hunt } }.transmit else s)

/-- LINE_SIGNAL_LOST (R166): replies are discarded, a notice being sent stays at the head of the queue. -/
def execLineSignalLost (s : State) : Out :=
  .next { s with
    link := { s.link with state := .down, replies := [], sending := none }
    notices := { s.notices with queue := s.notices.sending.toList ++ s.notices.queue, sending := none } }

/-- ABORT_SYMBOL (R163): the frame being received is discarded. -/
def execAbortSymbol (s : State) : Out := .next s

/-- ABORT_RESYNC (R163): HUNT from any state. -/
def execAbortResync (s : State) : Out :=
  .next { s with link := { s.link with state := .hunt } }.transmit

/-- FRAME_TRANSMITTED (R166): a notice sent leaves the queue, and the next frame is chosen. -/
def execFrameTransmitted (s : State) : Out :=
  .next { s with
    link := { s.link with sending := none }
    notices := { s.notices with sending := none } }.transmit

/-- LINK_SILENCE_EXPIRY (R165, R181): the timer stops. A stopped one does not expire. -/
def execLinkSilenceExpiry (s : State) : Out :=
  .next (match s.link.silence with
    | none => s
    | some t => State.run { s with link := { s.link with silence := none } } fun c => (c.reach t).linkSilence)

/-! ### The stocker bus -/

/-- EXCHANGE_ANSWERED (R155 to R157). -/
def execExchangeAnswered (answer : Answer) (s : State) : Out := .next (s.run fun c => c.answered answer)

/-- EXCHANGE_UNANSWERED (R155, R158). -/
def execExchangeUnanswered (s : State) : Out := .next (s.run Part.unanswered)

/-- ROLL_RETRY_EXPIRY (R159). -/
def execRollRetryExpiry (s : State) : Out := .next (s.run Part.retryExpired)

/-! ### Timers -/

/-- MOVE_TIMEOUT_EXPIRY (R130). -/
def execMoveTimeoutExpiry (move : Nat) (s : State) : Out := .next (s.run fun c => c.moveTimedOut move)

/-- YIELD_EXPIRY (R120). -/
def execYieldExpiry (robot : Side) (s : State) : Out := .next (s.run fun c => c.yieldExpired robot)

/-- PASS_TIMER_EXPIRY (R72). -/
def execPassTimerExpiry (zone : Nat) (s : State) : Out := .next (s.run fun c => c.passExpired zone)

/-- INTERVAL_EXPIRY (R63). -/
def execIntervalExpiry (zone : Nat) (s : State) : Out := .next (s.run fun c => c.intervalExpired zone)

/-- STEP_WAIT_EXPIRY (R95). -/
def execStepWaitExpiry (job : Nat) (s : State) : Out := .next (s.run fun c => c.stepWaitExpired job)

/-! ### The Image Store and the lines -/

/-- What the end of a write leaves (R187): the copy, or contents that nothing fixes (assumption 1). -/
def ImageStore.written (i : ImageStore) (copy : Tables × List Nat) (ok : Bool) : ImageStore :=
  if ok then ⟨encodeImage copy.1 copy.2, none, false, i.broken⟩
  else ⟨Config.brokenImage i.broken, none, false, i.broken + 1⟩

/-- The notice and the flag of a write's end (R187). -/
def Part.imageWritten (c : Part) (gens : List Nat) (ok : Bool) : Part :=
  (c.setImageBad !ok).say (if ok then .imageStored gens else .imageWriteFailed)

/-- IMAGE_WRITE_DONE (R187, R191): a deferred warm start follows in the same event. -/
def execImageWriteDone (ok : Bool) (s : State) : Out :=
  .next (match s.image.writing with
    | none => s
    | some copy =>
      let s1 := { s with part := s.part.imageWritten copy.2 ok, image := s.image.written copy ok }
      if s.image.deferred then (s1.warmStart (some ok)).finish else s1.finish)

/-- INTERLOCK_LINE_CHANGE (R183). -/
def execInterlockLineChange (line : Line) (active : Bool) (s : State) : Out :=
  .next (s.run fun c => c.lineChange line active)

end Sys2Proof.Machine
end

