-- ==== Sys2Proof/Machine/Dispatch.lean ====
section
/-! DEFINITION. The dispatch: one arm for each command, one direct call of its meaning. -/

namespace Sys2Proof.Machine

def exec (i : Instr) (s : State) : Host.Outcome State Fault Refusal :=
  match i with
  | .coldStart enclosure stop => Sys2Proof.Machine.execColdStart enclosure stop s
  | .softReset tag => Sys2Proof.Machine.execSoftReset tag s
  | .getStatus tag => Sys2Proof.Machine.execGetStatus tag s
  | .getStatusClear tag => Sys2Proof.Machine.execGetStatusClear tag s
  | .queryLocation tag loc => Sys2Proof.Machine.execQueryLocation tag loc s
  | .queryReticle tag sel => Sys2Proof.Machine.execQueryReticle tag sel s
  | .queryZone tag zone => Sys2Proof.Machine.execQueryZone tag zone s
  | .queryJob tag job => Sys2Proof.Machine.execQueryJob tag job s
  | .queryPort tag port => Sys2Proof.Machine.execQueryPort tag port s
  | .queryMove tag sel => Sys2Proof.Machine.execQueryMove tag sel s
  | .queryRobot tag robot => Sys2Proof.Machine.execQueryRobot tag robot s
  | .queryWatch tag => Sys2Proof.Machine.execQueryWatch tag s
  | .queryNode tag addr => Sys2Proof.Machine.execQueryNode tag addr s
  | .declare tag id cls kind e loc => Sys2Proof.Machine.execDeclare tag id cls kind e loc s
  | .retire tag id => Sys2Proof.Machine.execRetire tag id s
  | .hold tag id => Sys2Proof.Machine.execHold tag id s
  | .unhold tag id reason => Sys2Proof.Machine.execUnhold tag id reason s
  | .clearFault tag slot => Sys2Proof.Machine.execClearFault tag slot s
  | .clearFaultZone tag zone => Sys2Proof.Machine.execClearFaultZone tag zone s
  | .scanRange tag first count => Sys2Proof.Machine.execScanRange tag first count s
  | .cancelScan tag => Sys2Proof.Machine.execCancelScan tag s
  | .setExposure tag id e => Sys2Proof.Machine.execSetExposure tag id e s
  | .deliver tag port steps flags => Sys2Proof.Machine.execDeliver tag port steps flags s
  | .returnJob tag port steps flags => Sys2Proof.Machine.execReturnJob tag port steps flags s
  | .cancelJob tag job => Sys2Proof.Machine.execCancelJob tag job s
  | .maskPort tag port => Sys2Proof.Machine.execMaskPort tag port s
  | .unmaskPort tag port => Sys2Proof.Machine.execUnmaskPort tag port s
  | .relocate tag id dest => Sys2Proof.Machine.execRelocate tag id dest s
  | .recoverRobot tag robot => Sys2Proof.Machine.execRecoverRobot tag robot s
  | .setWatch tag index args => Sys2Proof.Machine.execSetWatch tag index args s
  | .releaseMove tag move => Sys2Proof.Machine.execReleaseMove tag move s
  | .cancelMove tag move => Sys2Proof.Machine.execCancelMove tag move s
  | .clearWatchFlags tag => Sys2Proof.Machine.execClearWatchFlags tag s
  | .busReset tag => Sys2Proof.Machine.execBusReset tag s
  | .loadOpen tag table => Sys2Proof.Machine.execLoadOpen tag table s
  | .loadEntry tag table index entry => Sys2Proof.Machine.execLoadEntry tag table index entry s
  | .loadCommit tag table => Sys2Proof.Machine.execLoadCommit tag table s
  | .loadDiscard tag => Sys2Proof.Machine.execLoadDiscard tag s
  | .storeImage tag => Sys2Proof.Machine.execStoreImage tag s
  | .reloadImage tag => Sys2Proof.Machine.execReloadImage tag s
  | .restoreDefaults tag => Sys2Proof.Machine.execRestoreDefaults tag s
  | .enterMaintenance tag => Sys2Proof.Machine.execEnterMaintenance tag s
  | .exitMaintenance tag => Sys2Proof.Machine.execExitMaintenance tag s
  | .enterStandalone tag => Sys2Proof.Machine.execEnterStandalone tag s
  | .exitStandalone tag abortPasses => Sys2Proof.Machine.execExitStandalone tag abortPasses s
  | .forceFailSafe tag => Sys2Proof.Machine.execForceFailSafe tag s
  | .exitFailSafe tag => Sys2Proof.Machine.execExitFailSafe tag s
  | .unknownRequest tag kind => Sys2Proof.Machine.execUnknownRequest tag kind s
  | .passThroughMoveLeg tag addr src dst kind => Sys2Proof.Machine.execPassThroughMoveLeg tag addr src dst kind s
  | .passThroughOrder tag addr kind payload => Sys2Proof.Machine.execPassThroughOrder tag addr kind payload s
  | .frameCheckFailed => Sys2Proof.Machine.execFrameCheckFailed s
  | .replyOverrun => Sys2Proof.Machine.execReplyOverrun s
  | .lineSignalUp => Sys2Proof.Machine.execLineSignalUp s
  | .lineSignalLost => Sys2Proof.Machine.execLineSignalLost s
  | .abortSymbol => Sys2Proof.Machine.execAbortSymbol s
  | .abortResync => Sys2Proof.Machine.execAbortResync s
  | .frameTransmitted => Sys2Proof.Machine.execFrameTransmitted s
  | .linkSilenceExpiry => Sys2Proof.Machine.execLinkSilenceExpiry s
  | .exchangeAnswered answer => Sys2Proof.Machine.execExchangeAnswered answer s
  | .exchangeUnanswered => Sys2Proof.Machine.execExchangeUnanswered s
  | .rollRetryExpiry => Sys2Proof.Machine.execRollRetryExpiry s
  | .moveTimeoutExpiry move => Sys2Proof.Machine.execMoveTimeoutExpiry move s
  | .yieldExpiry robot => Sys2Proof.Machine.execYieldExpiry robot s
  | .passTimerExpiry zone => Sys2Proof.Machine.execPassTimerExpiry zone s
  | .intervalExpiry zone => Sys2Proof.Machine.execIntervalExpiry zone s
  | .stepWaitExpiry job => Sys2Proof.Machine.execStepWaitExpiry job s
  | .imageWriteDone ok => Sys2Proof.Machine.execImageWriteDone ok s
  | .interlockLineChange line active => Sys2Proof.Machine.execInterlockLineChange line active s

end Sys2Proof.Machine
end

