-- ==== Sys2Proof/Machine/Frames.lean ====
section
/-! DEFINITION. The frames of both links (11_formats.md, R192, R193): the CRC-16, the request frames and the commands
they carry, the frames the K64 sends upstream, the frames of the stocker bus, and the FAULT_OUT line. Nothing here
changes the state: it says which bytes are which command, and which bytes the state puts on a link. Layouts that the
chapter leaves open are assumption 27. -/

namespace Sys2Proof.Machine

/-! ### The CRC-16 -/

/-- One bit of the CRC-16 of R192, most significant bit first. -/
def crc16Bit (r : BitVec 16) (b : Bool) : BitVec 16 :=
  if r.msb ^^ b then (r <<< 1) ^^^ 0x1021#16 else r <<< 1

/-- One byte of the CRC-16 (R192). -/
def crc16Byte (r : BitVec 16) (x : Byte) : BitVec 16 :=
  (List.range 8).foldl (fun r i => crc16Bit r (x.getLsbD (7 - i))) r

/-- The CRC-16 over bytes: initial value FFFFh, the register at the end not inverted (R192). -/
def crc16 (b : List Byte) : BitVec 16 := b.foldl crc16Byte 0xFFFF#16

/-- Bytes followed by their CRC-16, most significant byte first (R192). -/
def sealed (b : List Byte) : List Byte := b ++ toBytes 2 (crc16 b).toNat

/-- The last two bytes are the CRC-16 of the others (R192). -/
def sealOk (b : List Byte) : Bool :=
  2 ≤ b.length && (crc16 (b.take (b.length - 2))).toNat == field b (b.length - 2) 2

/-! ### The upstream frame -/

/-- An upstream frame: address, class, tag, kind, result, information, payload (11_formats.md). -/
def upFrame (addr cls tag kind result info : Nat) (payload : List Byte) : List Byte :=
  sealed (toBytes 1 addr ++ toBytes 1 cls ++ toBytes 1 tag ++ toBytes 1 kind ++ toBytes 1 result ++ toBytes 1 info
    ++ toBytes 2 payload.length ++ payload)

/-- An upstream frame passes its check (R164, R192). -/
def goodFrame (b : List Byte) : Bool :=
  10 ≤ b.length && field b 6 2 + 10 == b.length && b.length ≤ 1034 && sealOk b

/-! ### Requests as bytes -/

/-- A yes-or-no argument: 0 or 1 (R193). -/
def yesNoAt (b : List Byte) (at_ : Nat) : Option Bool := yesNo (field b at_ 1)

/-- An optional argument behind its presence byte; absent, its bytes are there all the same, as zeros. A presence byte
of no code is the owner's to refuse (R193). -/
def optional {α : Type} (b : List Byte) (at_ : Nat) (value : α) : OptArg α :=
  match yesNoAt b at_ with
  | some true => .given value
  | some false => .absent
  | none => .bad

/-- Identity bytes. -/
def idAt (b : List Byte) (at_ : Nat) : RetId := (b.drop at_).take 12

/-- A destination: a slot number, or FFFFh for ANY. -/
def destOf (n : Nat) : Dest := if n = 65535 then .any else .slot n

/-- The flags of DELIVER and RETURN, bytes 2 and 3 of their payloads. -/
def flagsAt (b : List Byte) : JobFlags :=
  ⟨bitAt b 2 0, bitAt b 2 1, if bitAt b 2 2 then some (field b 3 1) else none⟩

/-- The steps of a DELIVER payload. -/
def dStepsAt (b : List Byte) : List DStep :=
  (List.range (field b 1 1)).map fun k => ⟨idAt b (4 + 14 * k), field b (16 + 14 * k) 2⟩

/-- The steps of a RETURN payload. -/
def rStepsAt (b : List Byte) : List RStep :=
  (List.range (field b 1 1)).map fun k =>
    ⟨destOf (field b (4 + 15 * k) 2), if bitAt b (6 + 15 * k) 0 then some (idAt b (7 + 15 * k)) else none⟩

/-- The bytes a watch match value occupies, by match kind: an ID, a base and a length, or a port. -/
def watchWidth (kind : Nat) : Nat := if kind = 0 then 12 else if kind = 1 then 3 else 1

/-- The arguments of SET_WATCH behind its index. -/
def watchAt (b : List Byte) : WatchArgs :=
  let k := field b 1 1
  let v := b.drop 2
  let e := b.drop (2 + watchWidth k)
  { kind := k
    id := if k = 0 then idAt v 0 else List.replicate 12 0#8
    base := if k = 1 then field v 0 2 else 0
    len := if k = 1 then field v 2 1 else 0
    port := if k = 2 then field v 0 1 else 0
    qual := field e 0 1, enable := field e 1 1, job := field e 2 1 }

/-- A command whose payload has `n` bytes. -/
def sized (b : List Byte) (n : Nat) (i : Instr) : Option Instr := if b.length = n then some i else none

/-- The request a kind and a payload spell; `none` for an unknown kind or a payload that does not fit its kind (R167,
R193). A code of no set is the owner's to refuse, but where the code decides the payload's form: a query taken in every
mode, which has no earlier check to pass. -/
def requestOf (tag kind : Nat) (b : List Byte) : Option Instr :=
  match kind with
  | 0x01 => (yesNoAt b 0).bind fun c => sized b 1 (if c then .getStatusClear tag else .getStatus tag)
  | 0x02 => sized b 2 (.queryLocation tag (field b 0 2))
  | 0x03 =>
    match field b 0 1 with
    | 0 => sized b 13 (.queryReticle tag (.byId (idAt b 1)))
    | 1 => sized b 3 (.queryReticle tag (.byNumber (field b 1 2)))
    | 2 => sized b 3 (.queryReticle tag (.next (field b 1 2)))
    | _ => none
  | 0x04 => sized b 1 (.queryZone tag (field b 0 1))
  | 0x05 => sized b 1 (.queryJob tag (field b 0 1))
  | 0x06 => sized b 1 (.queryPort tag (field b 0 1))
  | 0x07 =>
    if b.length = 5 ∧ field b 4 1 = 1 then some (.queryMove tag (.next (field b 0 4)))
    else if b.length = 2 ∧ field b 1 1 = 0 then some (.queryMove tag (.byNumber (field b 0 1)))
    else none
  | 0x08 => sized b 1 (.queryRobot tag (field b 0 1))
  | 0x09 => sized b 0 (.queryWatch tag)
  | 0x0A => sized b 1 (.queryNode tag (field b 0 1))
  | 0x10 =>
    sized b 19 (.declare tag (idAt b 0) (field b 12 1) (field b 13 1) (optional b 14 (field b 15 2)) (field b 17 2))
  | 0x11 => sized b 12 (.retire tag (idAt b 0))
  | 0x12 => sized b 12 (.hold tag (idAt b 0))
  | 0x13 => sized b 14 (.unhold tag (idAt b 0) (optional b 12 (field b 13 1)))
  | 0x14 =>
    match field b 0 1 with
    | 0 => sized b 3 (.clearFault tag (some (field b 1 2)))
    | 1 => sized b 2 (.clearFaultZone tag (field b 1 1))
    | _ =>
      -- a subject of no code is the owner's to refuse, whichever of the two lengths its number has
      if b.length = 2 then some (.clearFault tag none) else sized b 3 (.clearFault tag none)
  | 0x15 => sized b 4 (.scanRange tag (field b 0 2) (field b 2 2))
  | 0x16 => sized b 0 (.cancelScan tag)
  | 0x17 => sized b 14 (.setExposure tag (idAt b 0) (field b 12 2))
  | 0x20 =>
    if 4 ≤ b.length ∧ b.length = 4 + 14 * field b 1 1 then
      some (.deliver tag (field b 0 1) (dStepsAt b) (flagsAt b))
    else none
  | 0x21 =>
    if 4 ≤ b.length ∧ b.length = 4 + 15 * field b 1 1 then
      some (.returnJob tag (field b 0 1) (rStepsAt b) (flagsAt b))
    else none
  | 0x22 => sized b 1 (.cancelJob tag (field b 0 1))
  | 0x23 => sized b 1 (.maskPort tag (field b 0 1))
  | 0x24 => sized b 1 (.unmaskPort tag (field b 0 1))
  | 0x30 => sized b 14 (.relocate tag (idAt b 0) (destOf (field b 12 2)))
  | 0x31 => sized b 1 (.recoverRobot tag (field b 0 1))
  | 0x40 =>
    if b.length = 5 + watchWidth (field b 1 1) then some (.setWatch tag (field b 0 1) (watchAt b)) else none
  | 0x41 => sized b 1 (.releaseMove tag (field b 0 1))
  | 0x42 => sized b 1 (.cancelMove tag (field b 0 1))
  | 0x43 => sized b 0 (.clearWatchFlags tag)
  | 0x50 => sized b 0 (.busReset tag)
  | 0x60 => sized b 1 (.loadOpen tag (field b 0 1))
  | 0x61 => if 3 ≤ b.length then some (.loadEntry tag (field b 0 1) (field b 1 2) (b.drop 3)) else none
  | 0x62 => sized b 1 (.loadCommit tag (field b 0 1))
  | 0x63 => sized b 0 (.loadDiscard tag)
  | 0x64 => sized b 0 (.storeImage tag)
  | 0x65 => sized b 0 (.reloadImage tag)
  | 0x66 => sized b 0 (.restoreDefaults tag)
  | 0x70 => sized b 0 (.enterMaintenance tag)
  | 0x71 => sized b 0 (.exitMaintenance tag)
  | 0x72 => sized b 0 (.enterStandalone tag)
  | 0x73 => sized b 1 (.exitStandalone tag (field b 0 1))
  | 0x74 => sized b 0 (.forceFailSafe tag)
  | 0x75 => sized b 0 (.exitFailSafe tag)
  | 0x76 => sized b 0 (.softReset tag)
  | _ => none

/-- The command a received upstream frame is (R163, R164, R167, R171, R192): a frame that fails its check, a frame of
another class than 00h, whose refusal carries address 0 whatever address the frame names (DESIGN CHOICE, assumption 55), a
pass-through frame, or a request. -/
def commandOf (b : List Byte) : Instr :=
  let addr := field b 0 1
  let tag := field b 2 1
  let kind := field b 3 1
  let p := (b.drop 8).take (field b 6 2)
  if goodFrame b = false then .frameCheckFailed
  else if field b 1 1 ≠ 0 then .unknownRequest tag kind
  else if addr = 0 then (requestOf tag kind p).getD (.unknownRequest tag kind)
  else if kind = 0x10 ∧ p.length = 5 then .passThroughMoveLeg tag addr (field p 0 2) (field p 2 2) (field p 4 1)
  else .passThroughOrder tag addr kind p

/-! ### Codes of the records -/

/-- The position of a value in the order in which its rule lists the values (11_formats.md). -/
def codeIn {α : Type} [DecidableEq α] (values : List α) (v : α) : Nat := (values.findIdx? (· == v)).getD 255

def Result.code (r : Result) : Nat :=
  codeIn [.ok, .clamped, .badRequest, .badIndex, .badLength, .unknownReticle, .duplicateId, .tableFull, .noPort,
    .noJobSpace, .portQueueFull, .noSlot, .noRobot, .wrongState, .wrongMode, .busy, .windowBusy, .noWindow,
    .commitRefused, .notHeld, .filtered, .interlockActive] r

def RState.code (r : RState) : Nat :=
  codeIn [.idle, .reserved, .inTransit, .presented, .withdrawing, .out, .returned, .inDoubt, .lost] r

def StepState.code (r : StepState) : Nat :=
  codeIn [StepState.pending, .waiting, .reserved, .moving, .presented, .ended] r

def StepResult.code (r : StepResult) : Nat :=
  codeIn [.done, .skippedExposure, .skippedHold, .slotFault, .waitTimeout, .pickFailed, .mismatch, .interrupted,
    .timedOut, .cancelled, .skippedEarlyEnd] r

def MoveResult.code : MoveResult → Nat
  | .completed => 0
  | .pickEmpty => 1
  | .pickMismatch => 2
  | .placeOccupied => 3
  | .timedOut => 4
  | .interrupted => 5
  | .cancelled _ => 6

def MoveKind.code (k : MoveKind) : Nat :=
  codeIn [MoveKind.deliver, .store, .cross, .relocate, .scan, .manual] k

def JobKind.code (k : JobKind) : Nat := codeIn [JobKind.deliver, .ret] k
def JobOutcome.code (o : JobOutcome) : Nat := codeIn [JobOutcome.done, .failed, .cancelled, .early] o
def reasonCode (h : HoldReason) : Nat := codeIn [HoldReason.operator, .exposure, .mismatch] h
def SlotFlag.code (f : SlotFlag) : Nat := codeIn [SlotFlag.conflict, .mismatch, .sealed] f
def Mode.code (m : Mode) : Nat := codeIn [Mode.start, .normal, .maintenance, .standalone, .failSafe] m
def ModeCause.code (c : ModeCause) : Nat :=
  codeIn [ModeCause.startDone, .request, .linkSilence, .imageBad, .enclosure, .stop, .forced, .warmRestart] c
def LostCause.code (c : LostCause) : Nat := codeIn [LostCause.presence, .otherPod, .noPod, .pickEmpty] c
def PassFail.code (c : PassFail) : Nat := codeIn [PassFail.fail, .timeout, .nodeLost] c
def FaultCause.code (c : FaultCause) : Nat :=
  codeIn [FaultCause.position, .lateReport, .timeout, .nodeLost, .putBackOccupied, .handOccupied] c
def EnumCause.code (c : EnumCause) : Nat := codeIn [EnumCause.cold, .warm, .busReset] c
def DiscardCause.code (c : DiscardCause) : Nat := codeIn [DiscardCause.standalone, .busReset] c

def MoveState.code (s : MoveState) : Nat :=
  codeIn [MoveState.pending, .held, .dispatched, .picked, .puttingBack] s

def RobotState.code (s : RobotState) : Nat :=
  codeIn [RobotState.idle, .busy, .yielding, .suspect, .disabled, .lost] s

def ZoneState.code (s : ZoneState) : Nat := codeIn [ZoneState.disabled, .purging, .urgent, .due, .current] s
def NodeState.code (s : NodeState) : Nat := codeIn [NodeState.present, .absent, .lost, .unexpected] s
def WatchQual.code (q : WatchQual) : Nat := codeIn [WatchQual.before, .after, .both] q
def Hint.code (h : Hint) : Nat := codeIn [Hint.present, .absent, .missing] h

def Occ.code : Occ → Nat
  | .unknown => 0
  | .vacant => 1
  | .occupied .. => 2
  | .foreign _ => 3
  | .inbound _ => 4
  | .outbound .. => 5

/-- The code of a request that ACK and a window entry name (R81, R82). -/
def WinKind.code : WinKind → Nat
  | .ready => 0
  | .returnWaiting .. => 1
  | .lastNeeded => 2

/-- The report kind a MOVE_FAULT names, by its code on the bus. -/
def RobotReport.code : RobotReport → Nat
  | .picked => 0x10
  | .placed => 0x11
  | .scanned => 0x12
  | .position => 0x13

/-! ### Fields of the records -/

def byte1 (n : Nat) : List Byte := toBytes 1 n
def boolByte (b : Bool) : List Byte := [flagByte [b]]

/-- A record number, FFFFh for none. -/
def recordField (n : Option Nat) : List Byte := toBytes 2 (n.getD 65535)

/-- A physical location, FFFFh for NONE. -/
def locField (l : Option Nat) : List Byte := toBytes 2 (l.getD 65535)

/-- The location of a record: 1000 + p for SCANNER(p), FFFFh for NONE. -/
def placeField : Place → List Byte
  | .loc l => toBytes 2 l
  | .scanner p => toBytes 2 (1000 + p)
  | .none => toBytes 2 65535

/-- A field behind its presence byte, zeros when absent. -/
def optBytes (width : Nat) (b : Option (List Byte)) : List Byte :=
  match b with
  | some x => byte1 1 ++ x
  | none => byte1 0 ++ List.replicate width 0#8

/-- A move number where it is optional. -/
def moveField (m : Option Nat) : List Byte := optBytes 1 (m.map byte1)

/-- A read result: its code and 12 ID bytes (11_formats.md). -/
def readField : Read → List Byte
  | .empty => byte1 0 ++ List.replicate 12 0#8
  | .id x => byte1 1 ++ x
  | .unreadable => byte1 2 ++ List.replicate 12 0#8

/-- A set of indexes as the bits of one byte. -/
def setField (l : List Nat) : List Byte := [flagByte ((List.range 8).map l.contains)]

/-- A pod of a port return: its record number, FFFFh for a FOREIGN pod, and the FOREIGN pod's kind. -/
def podField : Pod → List Byte
  | .record n => recordField (some n) ++ byte1 0
  | .foreign k => recordField none ++ byte1 k

/-- The owner of a move in the order of R110: a code, and the numbers that belong to it. -/
def ownerField : Owner → List Byte
  | .step j k => byte1 0 ++ byte1 j ++ byte1 (k + 1)
  | .portReturn p => byte1 1 ++ byte1 p ++ byte1 0
  | .inventory _ => byte1 2 ++ byte1 0 ++ byte1 0
  | .robot x => byte1 3 ++ byte1 x.index ++ byte1 0
  | .relocate => byte1 4 ++ byte1 0 ++ byte1 0
  | .pass tag => byte1 5 ++ byte1 tag ++ byte1 0

/-- The bytes of the answer data a PASS_REPORT carries. -/
def dataField : AnswerData → List Byte
  | .none => []
  | .hand s r k => byte1 s ++ readField r ++ byte1 k
  | .bytes b => b

/-- The three hold reasons as bits (11_formats.md). -/
def holdField (o e m : Bool) : List Byte := [flagByte [o, e, m]]

/-- The fail-safe causes as bits (R177). -/
def causesField (c : FailCauses) : List Byte := [flagByte [c.enclosure, c.stop, c.forced, c.imageBad]]

def sideField (x : Side) : List Byte := byte1 x.index
def lineField (l : Line) : List Byte := boolByte (l = .stop)
def modeField (m : Option Mode) : List Byte := optBytes 1 (m.map fun m => byte1 m.code)

/-! ### Notice records -/

/-- The kind code of a notice (11_formats.md). -/
def Subject.code : Subject → Nat
  | .modeChange .. => 0x01
  | .interlock .. => 0x02
  | .linkError _ => 0x03
  | .linkSilent => 0x04
  | .windowDiscarded .. => 0x05
  | .standaloneCancelled _ => 0x06
  | .imageStored _ => 0x07
  | .imageWriteFailed => 0x08
  | .slotFlag .. => 0x10
  | .reticleLost .. => 0x11
  | .reconciled .. => 0x12
  | .holdChanged .. => 0x13
  | .tableFull .. => 0x14
  | .scanDone .. => 0x15
  | .heldReticleTaken .. => 0x16
  | .purgeOverrun _ => 0x20
  | .purgeFailed .. => 0x21
  | .purgeLate .. => 0x22
  | .zoneDisabled .. => 0x23
  | .zoneRestored _ => 0x24
  | .stepResult .. => 0x30
  | .jobEnded .. => 0x31
  | .chainBroken .. => 0x32
  | .noSlot .. => 0x33
  | .returnWaiting .. => 0x34
  | .offerDeclined .. => 0x35
  | .portLate .. => 0x36
  | .moveFault .. => 0x40
  | .robotRecovered _ => 0x41
  | .relocateDone .. => 0x42
  | .passMove .. => 0x43
  | .passOrder .. => 0x43
  | .watchHold .. => 0x50
  | .watchSeen .. => 0x51
  | .nodeLost .. => 0x60
  | .nodeReturned .. => 0x61
  | .nodeAbsent .. => 0x62
  | .nodeMismatch .. => 0x63
  | .nodeUnexpected .. => 0x64
  | .enumerationDone .. => 0x65
  | .busReject .. => 0x66

/-- The subject fields of a notice, in the order its owning rule lists them (11_formats.md). -/
def Subject.fields : Subject → List Byte
  | .modeChange new old cause causes ret written =>
    byte1 new.code ++ byte1 old.code ++ byte1 cause.code ++ causesField causes ++ modeField ret
      ++ optBytes 1 (written.map fun ok => byte1 (if ok then 0 else 1))
  | .interlock l active mode => lineField l ++ boolByte active ++ byte1 mode.code
  | .linkError overrun => boolByte overrun
  | .linkSilent => []
  | .windowDiscarded t cause => byte1 t.code ++ byte1 cause.code
  | .standaloneCancelled cause => byte1 cause.code
  | .imageStored g => g.flatMap (toBytes 2)
  | .imageWriteFailed => []
  | .slotFlag s f => toBytes 2 s ++ byte1 f.code
  | .reticleLost n id place cause => recordField (some n) ++ id ++ placeField place ++ byte1 cause.code
  | .reconciled l read placed previous displaced =>
    toBytes 2 l ++ readField read ++ recordField placed ++ placeField (previous.getD .none) ++ recordField displaced
  | .holdChanged n h set state =>
    recordField (some n) ++ byte1 (reasonCode h) ++ boolByte set ++ byte1 state.code
  | .tableFull l id => toBytes 2 l ++ id
  | .scanDone first count admitted cancelled =>
    toBytes 2 first ++ toBytes 2 count ++ toBytes 2 admitted ++ boolByte cancelled
  | .heldReticleTaken n p o e m => recordField (some n) ++ byte1 p ++ holdField o e m
  | .purgeOverrun z => byte1 z
  | .purgeFailed z pass cause count => byte1 z ++ byte1 pass ++ byte1 cause.code ++ byte1 count
  | .purgeLate a ch pass ok => byte1 a ++ byte1 ch ++ byte1 pass ++ byte1 (if ok then 0 else 1)
  | .zoneDisabled z failure supply => byte1 z ++ [flagByte [failure, supply]]
  | .zoneRestored z => byte1 z
  | .stepResult j k res n => byte1 j ++ byte1 k ++ byte1 res.code ++ recordField n
  | .jobEnded j p k out done => byte1 j ++ byte1 p ++ byte1 k.code ++ byte1 out.code ++ byte1 done
  | .chainBroken j q => byte1 j ++ byte1 q
  | .noSlot p pod => byte1 p ++ podField pod
  | .returnWaiting p pod => byte1 p ++ podField pod
  | .offerDeclined j k n => byte1 j ++ byte1 k ++ recordField (some n)
  | .portLate p taken id => byte1 p ++ byte1 (if taken then 0x31 else 0x32) ++ id
  | .moveFault x m report cause =>
    sideField x ++ moveField m ++ optBytes 1 (report.map fun r => byte1 r.code) ++ byte1 cause.code
  | .robotRecovered x => sideField x
  | .relocateDone m n src dst res =>
    byte1 m ++ recordField n ++ locField src ++ locField dst ++ byte1 res.code
  | .passMove tag m res => byte1 tag ++ byte1 m ++ byte1 res.code
  | .passOrder tag a k delivered data =>
    byte1 tag ++ byte1 a ++ byte1 k ++ byte1 (if delivered then 0 else 1) ++ dataField data
  | .watchHold m k x n id src dst owner hits =>
    byte1 m ++ byte1 k.code ++ sideField x ++ recordField n ++ id.getD (List.replicate 12 0#8) ++ locField src
      ++ locField dst ++ ownerField owner ++ setField hits
  | .watchSeen m k x n id src dst passed hits =>
    byte1 m ++ byte1 k.code ++ sideField x ++ recordField n ++ id.getD (List.replicate 12 0#8) ++ locField src
      ++ locField dst ++ boolByte passed ++ setField hits
  | .nodeLost a k => byte1 a ++ byte1 (kindCode k)
  | .nodeReturned a k => byte1 a ++ byte1 (kindCode k)
  | .nodeAbsent a k => byte1 a ++ byte1 (kindCode k)
  | .nodeMismatch a e k i x =>
    byte1 a ++ byte1 (kindCode e.kind) ++ toBytes 2 e.identity ++ byte1 e.assignment ++ byte1 (kindCode k)
      ++ toBytes 2 i ++ sideField x
  | .nodeUnexpected a k i => byte1 a ++ byte1 (kindCode k) ++ toBytes 2 i
  | .enumerationDone cause p a u => byte1 cause.code ++ byte1 p ++ byte1 a ++ byte1 u
  | .busReject a k => byte1 a ++ byte1 k

/-- A notice's frame: class 02h, its record as payload (11_formats.md). -/
def Notice.frame (n : Notice) : List Byte :=
  upFrame 0 2 0 n.subject.code 0 0 (toBytes 2 n.seq ++ toBytes 4 n.time ++ n.subject.fields)

/-! ### Replies -/

/-- The 31 bytes of a QUERY_RETICLE reply (11_formats.md). -/
def reticleBytes (n : Nat) (r : Rec) (verified : Bool) : List Byte :=
  toBytes 2 n ++ r.id ++ byte1 r.cls ++ byte1 r.kind ++ placeField r.place ++ byte1 r.state.code
    ++ holdField r.operator r.exposure r.mismatch ++ toBytes 2 r.e ++ byte1 r.frac
    ++ [flagByte [r.stamp.isSome, verified, r.job.isSome]] ++ toBytes 4 (r.stamp.getD 0)
    ++ (match r.job with
        | some (j, k) => byte1 j ++ byte1 (k + 1)
        | none => byte1 255 ++ byte1 0)
    ++ byte1 0

/-- The 24 bytes of a job step record (11_formats.md). -/
def stepBytes (k : Nat) (st : Step) : List Byte :=
  let expect : Option RetId := match st.work with
    | .deliver .. => none
    | .ret _ x => x
  let any : Bool := match st.work with
    | .ret .any _ => true
    | _ => false
  byte1 (k + 1) ++ byte1 st.state.code ++ byte1 ((st.result.map StepResult.code).getD 255)
    ++ [flagByte [st.expiry.isSome, st.move.isSome, expect.isSome, any]]
    ++ (match st.work with
        | .deliver id _ => id
        | .ret _ x => x.getD (List.replicate 12 0#8))
    ++ toBytes 2 (match st.work with
        | .deliver _ d => d
        | .ret (.slot s) _ => s
        | .ret .any _ => 0)
    ++ toBytes 4 (st.expiry.getD 0) ++ byte1 (st.move.getD 0) ++ byte1 0

/-- A QUERY_JOB reply: 8 bytes of job fields, then 24 bytes for each step (11_formats.md). -/
def jobBytes (j : Nat) (r : Job) (acts : Bool) : List Byte :=
  byte1 j ++ byte1 r.port ++ byte1 r.kind.code ++ byte1 (if r.active then 1 else 0) ++ byte1 255
    ++ [flagByte [r.stop, r.express, acts, r.cont.isSome, r.early, r.cancel]] ++ byte1 (r.cont.getD 0)
    ++ byte1 r.steps.length ++ r.steps.zipIdx.flatMap fun e => stepBytes e.2 e.1

/-- An occupancy: its code, its record number and its verified flag (R5, R18). -/
def occBytes (o : Occ) : List Byte :=
  byte1 o.code ++ recordField o.names ++ boolByte o.verified

/-- Accepted kinds as the bits of one byte. -/
def kindsByte (k : BitVec 4) : List Byte := byte1 k.toNat

/-- The status summary, part by part (R170): a byte for each zone with its slot fault and its purge fault, and a bit for
each node address with a fault. -/
def Status.bytes (s : Status) : List Byte :=
  byte1 s.mode.code ++ modeField s.ret ++ boolByte s.fault ++ [flagByte [s.powerOn, s.imageBad, s.lost, s.linkError]]
    ++ [flagByte [s.enclosure, s.stop]]
    ++ (List.range 16).map (fun z => flagByte [s.slotFaults.getD z false, s.purgeFaults.getD z false])
    ++ byte1 s.robotA.code ++ byte1 s.robotB.code
    ++ (List.range 8).map (fun i => flagByte ((List.range 8).map fun k => s.nodeFaults.contains (8 * i + k)))
    ++ s.gens.flatMap (toBytes 2)
    ++ boolByte s.scanActive ++ toBytes 2 s.scanNext ++ toBytes 2 s.scanRemaining ++ toBytes 2 s.rescans
    ++ byte1 s.link ++ byte1 s.notices ++ toBytes 2 s.nextSeq
    ++ optBytes 3 (s.window.map fun w => byte1 w.1.code ++ toBytes 2 w.2) ++ boolByte s.writing

/-- A QUERY_ZONE reply in the order of R79; B is a signed byte. -/
def zoneBytes (cfg : ZoneCfg) (z : Zone) (state : ZoneState) (closed protective wanting : Bool) : List Byte :=
  cfg.encode ++ [BitVec.ofInt 8 z.b] ++ byte1 state.code ++ boolByte z.overdue ++ optBytes 4 (z.timer.map (toBytes 4))
    ++ optBytes 7 (z.pass.map fun p => byte1 p.number ++ toBytes 4 p.issued ++ toBytes 2 p.limit)
    ++ byte1 z.nextPass ++ byte1 z.failures ++ [flagByte [z.failures == 2, z.supplyFault]]
    ++ [flagByte [z.overrunFlag, z.failedFlag]] ++ boolByte z.mark ++ [flagByte [closed, protective]] ++ boolByte wanting

/-- An entry of a request window (R81): kind, time, and the read of a RETURN_WAITING. -/
def windowBytes (w : WinEntry) : List Byte :=
  byte1 w.kind.code ++ toBytes 4 w.time ++
  match w.kind with
  | .returnWaiting read kind => readField read ++ byte1 kind
  | _ => List.replicate 14 0#8

/-- A QUERY_PORT reply in the order of R108; lists stand behind their lengths. -/
def portBytes (p : Port) : List Byte :=
  byte1 p.window.length ++ p.window.flatMap windowBytes ++ boolByte p.masked ++ boolByte p.express
    ++ byte1 p.queue.length ++ p.queue.flatMap byte1 ++ byte1 (p.active.getD 255) ++ boolByte p.idleSent
    ++ optBytes 7 (p.ret.map fun r => podField r.pod ++ boolByte r.forced ++ moveField r.move ++ boolByte r.noticeSent)

/-- A QUERY_MOVE reply in the order of R110. -/
def moveBytes (m : Move) : List Byte :=
  byte1 m.num ++ toBytes 4 m.seq ++ byte1 m.kind.code ++ sideField m.robot ++ locField m.src ++ locField m.dst
    ++ optBytes 1 (m.refColumn.map byte1) ++ recordField m.reticle ++ optBytes 1 (m.podKind.map byte1)
    ++ ownerField m.owner ++ byte1 m.state.code ++ boolByte m.express ++ boolByte m.passed ++ boolByte m.putBack
    ++ optBytes 14 (m.pickRead.map fun r => readField r.1 ++ byte1 r.2)
    ++ optBytes 8 (m.dispatched.map fun t => toBytes 4 t.1 ++ toBytes 4 t.2)

/-- A QUERY_ROBOT reply in the order of R115, with the hand's occupancy (R135). -/
def robotBytes (r : Robot) (hand : Occ) : List Byte :=
  byte1 r.state.code ++ optBytes 1 (r.span.map byte1) ++ optBytes 2 (r.held.map fun i => byte1 i.1 ++ byte1 i.2)
    ++ moveField r.current ++ optBytes 5 (r.yieldTo.map fun t => byte1 t.1 ++ toBytes 4 t.2)
    ++ byte1 r.recovery.length ++ r.recovery.flatMap (toBytes 2) ++ boolByte r.awaited ++ occBytes hand

/-- A watch entry in the order of R138, as SET_WATCH carries one. -/
def watchBytes (w : WatchEntry) : List Byte :=
  (match w.mtch with
   | .reticle id => byte1 0 ++ id
   | .range base len => byte1 1 ++ toBytes 2 base ++ byte1 len
   | .port p => byte1 2 ++ byte1 p)
    ++ byte1 w.qual.code
    ++ match w.enable with
       | .off => byte1 0 ++ byte1 255
       | .global => byte1 1 ++ byte1 255
       | .job j => byte1 2 ++ byte1 j

/-- The capabilities of a node as a roll-call answer carries them (R153). -/
def capsByte (k : NodeKind) (c : Caps) : List Byte :=
  match k with
  | .robot => sideField c.side
  | .port => boolByte c.express
  | .manifold => byte1 (c.channels - 1)
  | .shelf | .none => byte1 0

/-- A roster entry in the order of R161, its orders by number and kind. -/
def nodeBytes (n : Node) : List Byte :=
  byte1 (kindCode n.kind) ++ toBytes 2 n.identity ++ optBytes 1 (n.caps.map (capsByte n.kind)) ++ byte1 n.state.code
    ++ byte1 n.miss ++ [flagByte [n.orderTog, n.reportTog]] ++ boolByte n.rollPending ++ byte1 n.queue.length
    ++ n.queue.flatMap fun o => byte1 o.order.code

/-- What a reply carries, in bytes: the layouts of 11_formats.md, and for a body it gives none the fields in the order of
the owning rule (assumption 27). `addr` and `kind` are those of the request answered, which say how wide a number is: a
move number and a job number take one byte, a record number, a generation and an index two. -/
def Body.bytes (addr kind : Nat) : Body → List Byte
  | .none => []
  | .status s => s.bytes
  | .slot cfg occ hint flags =>
    byte1 0 ++ boolByte cfg.enabled ++ toBytes 2 cfg.offset ++ kindsByte cfg.kinds ++ occBytes occ ++ byte1 hint.code
      ++ [flagByte [flags.conflict, flags.mismatch, flags.sealed]]
  | .position cfg occ =>
    byte1 1 ++ boolByte cfg.inPlan ++ byte1 cfg.column ++ boolByte cfg.directed ++ kindsByte cfg.kinds ++ occBytes occ
  | .handEntry _ occ => byte1 2 ++ occBytes occ
  | .reticle n r v => reticleBytes n r v
  | .zone cfg z state closed protective wanting => zoneBytes cfg z state closed protective wanting
  | .job j r acts => jobBytes j r acts
  | .port p => portBytes p
  | .move m => moveBytes m
  | .robot r hand => robotBytes r hand
  | .watch w =>
    w.entries.flatMap watchBytes ++ [flagByte (w.entries.map WatchEntry.flag)] ++ moveField w.lastHold
  | .node e n => e.encode ++ optBytes 10 (n.map nodeBytes)
  | .number n =>
    if addr ≠ 0 ∨ kind = 0x20 ∨ kind = 0x21 then byte1 n else toBytes 2 n
  | .holds n o e m => recordField (some n) ++ holdField o e m
  | .account e frac o x m => toBytes 2 e ++ byte1 frac ++ holdField o x m
  | .admitted m held dst => byte1 m ++ byte1 (if held then 1 else 0) ++ optBytes 2 (dst.map (toBytes 2))
  | .watchEntry w => watchBytes w
  | .entry b => b
  | .gens g => g.flatMap (toBytes 2)
  | .refused t i => byte1 t.code ++ toBytes 2 i

/-- A reply's frame: class 01h (11_formats.md). -/
def Reply.frame (r : Reply) : List Byte :=
  upFrame r.addr 1 r.tag r.kind r.rsp.result.code (if r.rsp.express then 1 else 0) (r.rsp.body.bytes r.addr r.kind)

/-- The frame in transmission upstream (R166, R192). -/
def State.upstreamFrame (s : State) : Option (List Byte) :=
  match s.link.sending with
  | some r => some r.frame
  | none => s.notices.sending.map Notice.frame

/-! ### The stocker bus -/

/-- A coordinate: 6 bytes (11_formats.md). -/
def Coord.bytes : Coord → List Byte
  | .slot column face level offset =>
    byte1 0 ++ byte1 column ++ byte1 face ++ byte1 level ++ toBytes 2 offset
  | .port p column => byte1 1 ++ byte1 p ++ byte1 column ++ byte1 0 ++ toBytes 2 0
  | .hand => byte1 2 ++ byte1 0 ++ byte1 0 ++ byte1 0 ++ toBytes 2 0

/-- The payload of an order (11_formats.md). -/
def Order.payload : Order → List Byte
  | .moveLeg m src dst => byte1 m ++ src.bytes ++ dst.bytes
  | .putBack m src => byte1 m ++ src.bytes
  | .scanAt m l => byte1 m ++ l.bytes
  | .yieldTo s => byte1 s
  | .abortMotion => []
  | .handSnapshot => []
  | .purgeStart ch n => byte1 ch ++ byte1 n
  | .purgeAbort ch => byte1 ch
  | .ack k => byte1 k.code
  | .portJob active j k => byte1 (if active then 0 else 1) ++ byte1 j ++ byte1 k.code
  | .portPresent id k d => id ++ byte1 k ++ toBytes 2 d
  | .withdraw id => id
  | .forwarded _ b => b

/-- A down frame (11_formats.md). -/
def downFrame (addr kind : Nat) (toggles : List Bool) (payload : List Byte) : List Byte :=
  sealed (byte1 addr ++ byte1 kind ++ [flagByte toggles] ++ byte1 payload.length ++ payload)

/-- The frame of the exchange in progress (R152, R155, R156): an order with the entry's toggles, a poll with its report
toggle, a roll-call with none. -/
def Part.busFrame (c : Part) : Option (List Byte) :=
  match c.bus.exchange with
  | none => none
  | some (.rollCall a) => some (downFrame a 0x01 [] [])
  | some (.poll a) => (c.node? a).map fun n => downFrame a 0x02 [n.orderTog, n.reportTog] []
  | some (.order a) =>
    match c.node? a with
    | none => none
    | some n => n.queue.head?.map fun o => downFrame a o.order.code [n.orderTog, n.reportTog] o.order.payload

/-- A read result read from 13 bytes; `none` for a code of no kind. -/
def readOf (b : List Byte) (at_ : Nat) : Option Read :=
  match field b at_ 1 with
  | 0 => some .empty
  | 1 => some (.id (idAt b (at_ + 1)))
  | 2 => some .unreadable
  | _ => none

/-- A service request read from its report (R82). -/
def serviceOf (b : List Byte) : Option SvcReq :=
  match field b 0 1 with
  | 0 => if b.length = 1 then some .ready else none
  | 1 => if b.length = 15 then (readOf b 1).map fun r => .returnWaiting r (field b 14 1) else none
  | 2 => if b.length = 1 then some .lastNeeded else none
  | _ => none

/-- The side of a code: its low bit (R149, R193). -/
def sideBit (n : Nat) : Side := if n % 2 = 0 then .a else .b

/-- A roll-call answer: kind, identity, one byte of capabilities, and the snapshot of its kind (R153, R154). A read result
of no code is taken as UNREADABLE; a kind of no code, or a payload of another length than its kind has, gives no kind
(DESIGN CHOICE, assumption 24). -/
def rollOf (b : List Byte) : RollAnswer :=
  let i := field b 1 2
  let c := field b 3 1
  let read (at_ : Nat) : Read := (readOf b at_).getD .unreadable
  match field b 0 1, b.length with
  | 1, 19 => ⟨.robot, i, sideBit c, false, 0, .robot (field b 4 1) (read 5) (field b 18 1)⟩
  | 2, 18 => ⟨.port, i, .a, c % 2 = 1, 0, .port (read 4) (field b 17 1)⟩
  | 3, 4 => ⟨.manifold, i, .a, false, c % 4 + 1, .manifold⟩
  | 4, 12 => ⟨.shelf, i, .a, false, 0, .shelf ((List.range 60).map fun k => bitAt b (4 + k / 8) (k % 8))⟩
  | _, _ => ⟨.none, i, .a, false, 0, .manifold⟩

/-- A code of two: 0 for the first, 1 for the second. The fields of orders and reports whose values the formats chapter does not
number are numbered as it says for replies and notices, from 0 in the order in which they are listed (DEDUCED, assumption
75). -/
def firstOf (n : Nat) : Option Bool := (yesNo n).map (!·)

/-- A report of a kind, by its payload (11_formats.md); `none` where the payload is none of the kind. -/
def reportOf (kind : Nat) (b : List Byte) : Option Report :=
  match kind with
  | 0x00 => if b.length = 0 then some .nothing else none
  | 0x01 => some (.rollAnswer (rollOf b))
  | 0x10 =>
    if b.length = 15 then (readOf b 1).map fun r => .picked (field b 0 1) r (field b 14 1) else none
  | 0x11 => if b.length = 2 then (firstOf (field b 1 1)).map fun ok => .placed (field b 0 1) ok else none
  | 0x12 =>
    if b.length = 15 then (readOf b 1).map fun r => .scanned (field b 0 1) r (field b 14 1) else none
  | 0x13 => if b.length = 1 then some (.position (field b 0 1)) else none
  | 0x20 =>
    if b.length = 3 then (firstOf (field b 2 1)).map fun ok => .purgeDone (field b 0 1) (field b 1 1) ok else none
  | 0x21 => if b.length = 2 then some (.sealFault (field b 0 2)) else none
  | 0x30 => (serviceOf b).map .serviceRequest
  | 0x31 => if b.length = 12 then some (.taken b) else none
  | 0x32 => if b.length = 12 then some (.withdrawn b) else none
  | 0x40 =>
    if b.length = 3 then (firstOf (field b 2 1)).map fun present => .presence (field b 0 2) present else none
  | _ => none

/-- The report a frame of a kind of the report table carries: one whose payload is none of its kind is still the node's
answer (R192; assumption 24). -/
def reportFor (kind : Nat) (b : List Byte) : Option Report :=
  if kind ∈ [0x00, 0x01, 0x10, 0x11, 0x12, 0x13, 0x20, 0x21, 0x30, 0x31, 0x32, 0x40] then
    some ((reportOf kind b).getD (.malformed kind))
  else none

/-- The data of the order an answer acknowledges; for a HAND_SNAPSHOT its span, read result and pod kind. Data of another length,
or with a read result of no code, is no hand data (DESIGN CHOICE, assumption 24). -/
def answerData (hand : Bool) (b : List Byte) : AnswerData :=
  if b.length = 0 then .none
  else if hand ∧ b.length = 15 then
    match readOf b 1 with
    | some r => .hand (field b 0 1) r (field b 14 1)
    | none => .bytes b
  else .bytes b

/-- The addressed node and whether a HAND_SNAPSHOT is acknowledged by its answer. -/
def Part.addressed (c : Part) : Option (Nat × Bool) :=
  match c.bus.exchange with
  | none => none
  | some (.rollCall a) => some (a, false)
  | some (.poll a) => some (a, false)
  | some (.order a) =>
    match (c.node? a).bind fun n => n.queue.head? with
    | some o => some (a, o.order.code = 0x15)
    | none => some (a, false)

/-- The command a received bus frame is (R155, R192): the answer to the exchange in progress where it passes its CRC,
comes from the node addressed, agrees with its length fields and its report kind is of the table; any other frame counts
as no answer. -/
def Part.answerOf (c : Part) (b : List Byte) : Instr :=
  match c.addressed with
  | none => .exchangeUnanswered
  | some (a, hand) =>
    let dl := field b 3 1
    let rl := field b 4 1
    if sealOk b ∧ 7 ≤ b.length ∧ field b 0 1 = a ∧ b.length = 7 + dl + rl then
      match reportFor (field b 1 1) ((b.drop (5 + dl)).take rl) with
      | some r => .exchangeAnswered ⟨bitAt b 2 0, answerData hand ((b.drop 5).take dl), r⟩
      | none => .exchangeUnanswered
    else .exchangeUnanswered

/-! ### FAULT_OUT -/

/-- The FAULT_OUT line is active exactly while FAULT is set (R13). -/
def State.faultOut (s : State) : Bool := s.part.ctl.fault

end Sys2Proof.Machine
end

