-- ==== Sys2Proof/WellFormed.lean ====
section
/-! DEFINITION. Which commands can occur: every number fits the field that carries it (11_formats.md), and what a node
sends has the shape of its report or snapshot. Ranges that a rule checks and refuses are not tested here. -/

namespace Sys2Proof

/-- A field of one byte. -/
def byte (n : Nat) : Bool := n < 256
/-- A field of two bytes. -/
def twoBytes (n : Nat) : Bool := n < 65536
/-- A field of four bytes. -/
def fourBytes (n : Nat) : Bool := n < 4294967296
/-- The 12 bytes of an identity. -/
def idField (x : RetId) : Bool := x.length == 12
/-- An absent field, or one that fits. -/
def optField {α : Type} (ok : α → Bool) (o : Option α) : Bool := o.all ok

/-- An optional argument whose value fits, if it is given. -/
def OptArg.wf {α : Type} (ok : α → Bool) : OptArg α → Bool
  | .given a => ok a
  | _ => true

/-- A read result carries 12 bytes of identity. -/
def Read.wf : Read → Bool
  | .id x => idField x
  | _ => true

def RetSel.wf : RetSel → Bool
  | .byId x => idField x
  | .byNumber n => twoBytes n
  | .next n => twoBytes n

def MoveSel.wf : MoveSel → Bool
  | .byNumber n => byte n
  | .next n => fourBytes n

def DStep.wf (d : DStep) : Bool := idField d.id && twoBytes d.d

/-- A named destination; FFFFh is ANY. -/
def Dest.wf : Dest → Bool
  | .slot n => n < 65535
  | .any => true

def RStep.wf (r : RStep) : Bool := r.dest.wf && optField idField r.expect

def JobFlags.wf (f : JobFlags) : Bool := optField byte f.cont

def WatchArgs.wf (a : WatchArgs) : Bool :=
  byte a.kind && idField a.id && twoBytes a.base && byte a.len && byte a.port && byte a.qual && byte a.enable
    && byte a.job

/-- A pod kind is carried in one byte, of which bits 0 and 1 are the kind. -/
def SvcReq.wf : SvcReq → Bool
  | .returnWaiting r k => r.wf && byte k
  | _ => true

/-- A shelf snapshot has one bit for each of the 60 slots (R154). -/
def Snapshot.wf : Snapshot → Bool
  | .robot span hand kind => byte span && hand.wf && byte kind
  | .port position kind => position.wf && byte kind
  | .manifold => true
  | .shelf present => present.length == 60

/-- The snapshot is that of the node's kind, and a manifold has 1 to 4 channels (R153, R154); an answer that gives no kind
has none. -/
def RollAnswer.wf (r : RollAnswer) : Bool :=
  twoBytes r.identity && r.snapshot.wf &&
  match r.kind, r.snapshot with
  | .robot, .robot .. => true
  | .port, .port .. => true
  | .manifold, .manifold => 1 ≤ r.channels && r.channels ≤ 4
  | .shelf, .shelf _ => true
  | .none, .manifold => true
  | _, _ => false

def Report.wf : Report → Bool
  | .nothing => true
  | .rollAnswer r => r.wf
  | .picked m r k => byte m && r.wf && byte k
  | .placed m _ => byte m
  | .scanned m r k => byte m && r.wf && byte k
  | .position s => byte s
  | .purgeDone c p _ => byte c && byte p
  | .sealFault s => twoBytes s
  | .serviceRequest q => q.wf
  | .taken x => idField x
  | .withdrawn x => idField x
  | .presence s _ => twoBytes s
  | .malformed k => byte k

def AnswerData.wf : AnswerData → Bool
  | .none => true
  | .hand span r k => byte span && r.wf && byte k
  | .bytes b => b.length < 256

def Answer.wf (a : Answer) : Bool := a.data.wf && a.report.wf

/-- A command that can occur. -/
def Instr.wf : Instr → Bool
  | .coldStart _ _ => true
  | .softReset tag => byte tag
  | .getStatus tag => byte tag
  | .getStatusClear tag => byte tag
  | .queryLocation tag loc => byte tag && twoBytes loc
  | .queryReticle tag sel => byte tag && sel.wf
  | .queryZone tag zone => byte tag && byte zone
  | .queryJob tag job => byte tag && byte job
  | .queryPort tag port => byte tag && byte port
  | .queryMove tag sel => byte tag && sel.wf
  | .queryRobot tag robot => byte tag && byte robot
  | .queryWatch tag => byte tag
  | .queryNode tag addr => byte tag && byte addr
  | .declare tag id cls kind e loc => byte tag && idField id && byte cls && byte kind && e.wf twoBytes && twoBytes loc
  | .retire tag id => byte tag && idField id
  | .hold tag id => byte tag && idField id
  | .unhold tag id reason => byte tag && idField id && reason.wf byte
  | .clearFault tag slot => byte tag && slot.all twoBytes
  | .clearFaultZone tag zone => byte tag && byte zone
  | .scanRange tag first count => byte tag && twoBytes first && twoBytes count
  | .cancelScan tag => byte tag
  | .setExposure tag id e => byte tag && idField id && twoBytes e
  | .deliver tag port steps flags => byte tag && byte port && steps.length < 256 && steps.all DStep.wf && flags.wf
  | .returnJob tag port steps flags => byte tag && byte port && steps.length < 256 && steps.all RStep.wf && flags.wf
  | .cancelJob tag job => byte tag && byte job
  | .maskPort tag port => byte tag && byte port
  | .unmaskPort tag port => byte tag && byte port
  | .relocate tag id dest => byte tag && idField id && dest.wf
  | .recoverRobot tag robot => byte tag && byte robot
  | .setWatch tag index args => byte tag && byte index && args.wf
  | .releaseMove tag move => byte tag && byte move
  | .cancelMove tag move => byte tag && byte move
  | .clearWatchFlags tag => byte tag
  | .busReset tag => byte tag
  | .loadOpen tag table => byte tag && byte table
  | .loadEntry tag table index entry => byte tag && byte table && twoBytes index && entry.length < 1022
  | .loadCommit tag table => byte tag && byte table
  | .loadDiscard tag => byte tag
  | .storeImage tag => byte tag
  | .reloadImage tag => byte tag
  | .restoreDefaults tag => byte tag
  | .enterMaintenance tag => byte tag
  | .exitMaintenance tag => byte tag
  | .enterStandalone tag => byte tag
  | .exitStandalone tag abortPasses => byte tag && byte abortPasses
  | .forceFailSafe tag => byte tag
  | .exitFailSafe tag => byte tag
  | .unknownRequest tag kind => byte tag && byte kind
  | .passThroughMoveLeg tag addr src dst kind =>
    byte tag && 1 ≤ addr && byte addr && twoBytes src && twoBytes dst && byte kind
  | .passThroughOrder tag addr kind payload =>
    byte tag && 1 ≤ addr && byte addr && byte kind && payload.length ≤ 1024
  | .frameCheckFailed => true
  | .replyOverrun => true
  | .lineSignalUp => true
  | .lineSignalLost => true
  | .abortSymbol => true
  | .abortResync => true
  | .frameTransmitted => true
  | .linkSilenceExpiry => true
  | .exchangeAnswered answer => answer.wf
  | .exchangeUnanswered => true
  | .rollRetryExpiry => true
  | .moveTimeoutExpiry move => byte move
  | .yieldExpiry _ => true
  | .passTimerExpiry zone => zone < 16
  | .intervalExpiry zone => zone < 16
  | .stepWaitExpiry job => job < 16
  | .imageWriteDone _ => true
  | .interlockLineChange _ _ => true

end Sys2Proof
end

