-- ==== Sys2Proof/Safety.lean ====
section
/-! DEFINITION. What counts as a sound state and a sound run: the invariants that statements use, the header of a
request, and the replies owed to the cell controller. -/

namespace Sys2Proof.Machine

/-! ### Requests -/

/-- What a request frame names (R167, 11_formats.md): address, kind code and tag; `none` for a command that is no
request. -/
def header : Instr → Option (Nat × Nat × Nat)
  | .softReset tag => some (0, 0x76, tag)
  | .getStatus tag => some (0, 0x01, tag)
  | .getStatusClear tag => some (0, 0x01, tag)
  | .queryLocation tag _ => some (0, 0x02, tag)
  | .queryReticle tag _ => some (0, 0x03, tag)
  | .queryZone tag _ => some (0, 0x04, tag)
  | .queryJob tag _ => some (0, 0x05, tag)
  | .queryPort tag _ => some (0, 0x06, tag)
  | .queryMove tag _ => some (0, 0x07, tag)
  | .queryRobot tag _ => some (0, 0x08, tag)
  | .queryWatch tag => some (0, 0x09, tag)
  | .queryNode tag _ => some (0, 0x0A, tag)
  | .declare tag _ _ _ _ _ => some (0, 0x10, tag)
  | .retire tag _ => some (0, 0x11, tag)
  | .hold tag _ => some (0, 0x12, tag)
  | .unhold tag _ _ => some (0, 0x13, tag)
  | .clearFault tag _ => some (0, 0x14, tag)
  | .clearFaultZone tag _ => some (0, 0x14, tag)
  | .scanRange tag _ _ => some (0, 0x15, tag)
  | .cancelScan tag => some (0, 0x16, tag)
  | .setExposure tag _ _ => some (0, 0x17, tag)
  | .deliver tag _ _ _ => some (0, 0x20, tag)
  | .returnJob tag _ _ _ => some (0, 0x21, tag)
  | .cancelJob tag _ => some (0, 0x22, tag)
  | .maskPort tag _ => some (0, 0x23, tag)
  | .unmaskPort tag _ => some (0, 0x24, tag)
  | .relocate tag _ _ => some (0, 0x30, tag)
  | .recoverRobot tag _ => some (0, 0x31, tag)
  | .setWatch tag _ _ => some (0, 0x40, tag)
  | .releaseMove tag _ => some (0, 0x41, tag)
  | .cancelMove tag _ => some (0, 0x42, tag)
  | .clearWatchFlags tag => some (0, 0x43, tag)
  | .busReset tag => some (0, 0x50, tag)
  | .loadOpen tag _ => some (0, 0x60, tag)
  | .loadEntry tag _ _ _ => some (0, 0x61, tag)
  | .loadCommit tag _ => some (0, 0x62, tag)
  | .loadDiscard tag => some (0, 0x63, tag)
  | .storeImage tag => some (0, 0x64, tag)
  | .reloadImage tag => some (0, 0x65, tag)
  | .restoreDefaults tag => some (0, 0x66, tag)
  | .enterMaintenance tag => some (0, 0x70, tag)
  | .exitMaintenance tag => some (0, 0x71, tag)
  | .enterStandalone tag => some (0, 0x72, tag)
  | .exitStandalone tag _ => some (0, 0x73, tag)
  | .forceFailSafe tag => some (0, 0x74, tag)
  | .exitFailSafe tag => some (0, 0x75, tag)
  | .unknownRequest tag kind => some (0, kind, tag)
  | .passThroughMoveLeg tag addr _ _ _ => some (addr, 0x10, tag)
  | .passThroughOrder tag addr kind _ => some (addr, kind, tag)
  | .coldStart _ _ => none
  | .frameCheckFailed => none
  | .replyOverrun => none
  | .lineSignalUp => none
  | .lineSignalLost => none
  | .abortSymbol => none
  | .abortResync => none
  | .frameTransmitted => none
  | .linkSilenceExpiry => none
  | .exchangeAnswered _ => none
  | .exchangeUnanswered => none
  | .rollRetryExpiry => none
  | .moveTimeoutExpiry _ => none
  | .yieldExpiry _ => none
  | .passTimerExpiry _ => none
  | .intervalExpiry _ => none
  | .stepWaitExpiry _ => none
  | .imageWriteDone _ => none
  | .interlockLineChange _ _ => none

/-- The queries, taken in every mode (R167). -/
def isQuery : Instr → Bool
  | .getStatus _ | .getStatusClear _ | .queryLocation .. | .queryReticle .. | .queryZone .. | .queryJob ..
  | .queryPort .. | .queryMove .. | .queryRobot .. | .queryWatch _ | .queryNode .. => true
  | _ => false

/-- The replies owed, oldest first: the one being sent and those awaiting transmission (R166). -/
def State.owed (s : State) : List Reply := s.link.sending.toList ++ s.link.replies

/-- The notices queued, oldest first, the one being sent at their head (R166, R169). -/
def State.noticed (s : State) : List Notice := s.notices.sending.toList ++ s.notices.queue

/-- A request frame is heard and finds room for its reply (R163, R164). -/
def State.listens (s : State) : Bool := !s.deaf && !s.full

/-- The state after a request has been taken whole (R167): the blocks as its effect leaves them, the reply owed, and the
end of the event. -/
def State.concludes (s : State) (p : Part) (addr kind tag : Nat) (r : Rsp) : State :=
  State.finish (State.reply { s.heard with part := p } ⟨addr, kind, tag, r⟩)

/-- The state after a request of node address 0 has been refused: nothing is done but the reply (R167, R168). -/
def State.refuses (s : State) (kind tag : Nat) (r : Result) : State := s.concludes s.part 0 kind tag (Rsp.code r)

/-! ### Invariants -/

/-- The link keeps its bounds and its discipline (R163, R166, R169): at most 4 replies await transmission and at most
32 notices are queued, one frame is sent at a time, a link that is DOWN owes and sends nothing, and no notice of a past
event is left outside the queue. -/
def State.linkSound (s : State) : Prop :=
  s.link.replies.length ≤ 4 ∧ s.notices.size ≤ 32 ∧
  (s.link.sending.isSome → s.notices.sending = none) ∧
  (s.link.state = .down → s.owed = [] ∧ s.notices.sending = none) ∧
  s.part.out = []

/-- The FAULT summary holds exactly while one of its conditions does (R13). -/
def State.faultSound (s : State) : Prop := s.part.ctl.fault = s.part.faultNow

/-- The return mode stands exactly in STANDALONE, and is a mode it may return to; a standalone entry is pending only
where one can complete (R177, R180). -/
def ModeController.sound (k : ModeController) : Prop :=
  (k.mode = .standalone ↔ k.ret.isSome) ∧ (∀ m, k.ret = some m → m = .normal ∨ m = .maintenance) ∧
  (k.pending = true → k.mode = .normal ∨ k.mode = .maintenance)

/-- The Mode Controller's invariant, of the whole machine: its own, and START lasts exactly as long as the enumeration
of a cold or warm start (R178). -/
def State.modeSound (s : State) : Prop :=
  s.part.ctl.sound ∧ (s.part.starting = true ↔ s.part.ctl.mode = .start)

/-- The ROLL_RETRY timer runs exactly while a planned entry is LOST or ABSENT and no enumeration is in progress
(R152, R159). -/
def State.retrySound (s : State) : Prop :=
  s.part.bus.retry.isSome = (s.part.bus.enum.isNone && !s.part.nodeFaults.isEmpty)

/-- The Reticle Table's rules (R21): record numbers rise and lie in 0..1023, and no two records carry the same ID. -/
def Part.recordsSound (c : Part) : Prop :=
  Store.rising c.inv.recs = true ∧ (∀ e ∈ c.inv.recs, e.1 < 1024) ∧ (c.inv.recs.map fun e => e.2.id).Nodup

/-- The move list's rules (R110, R111): at most 24 moves, each with a number 0..255 that no other carries, in the rising
order of their admission sequence, none above that of the latest admission. -/
def Part.movesSound (c : Part) : Prop :=
  c.mv.moves.length ≤ 24 ∧ (c.mv.moves.map Move.num).Nodup ∧ (∀ m ∈ c.mv.moves, m.num < 256) ∧
  (c.mv.moves.map Move.seq).Pairwise (· < ·) ∧ ∀ m ∈ c.mv.moves, m.seq ≤ c.mv.lastSeq

/-- A zone record in its ranges (R59): the balance within -4..+4, at most 2 failures counted. -/
def Zone.bounded (z : Zone) : Prop := -4 ≤ z.b ∧ z.b ≤ 4 ∧ z.failures ≤ 2

/-- Every zone record is in its ranges (R59). -/
def Part.zonesSound (c : Part) : Prop := ∀ e ∈ c.zones, e.2.bounded

/-- The job pool's rules (R85): numbers 0..15, and so at most 16 jobs, and at most 4 queued or active at one port. -/
def Part.jobsSound (c : Part) : Prop := (∀ e ∈ c.jobs.jobs, e.1 < 16) ∧ ∀ p, c.jobsAt p ≤ 4

/-- No more passes are in progress than PURGE_CONCURRENCY allows (R68). -/
def Part.passesSound (c : Part) : Prop := c.passes ≤ c.sched.concurrency

/-- The tables keyed by number are in canonical form, so that equal contents are equal data. -/
def Part.canonical (c : Part) : Prop :=
  Store.wf .unknown c.inv.occ = true ∧ Store.wf .missing c.inv.hints = true ∧
  Store.wf SlotFlags.clear c.inv.flags = true ∧ Store.wf Zone.cold c.zones = true ∧
  Store.rising c.jobs.jobs = true ∧ Store.wf Port.cold c.jobs.ports = true ∧ Store.rising c.bus.roster = true

/-- The five together, and so all that the tables owe (R21, R59, R85, R111). -/
def Part.sound (c : Part) : Prop := c.recordsSound ∧ c.movesSound ∧ c.zonesSound ∧ c.jobsSound ∧ c.canonical

/-- The Location Table and the Reticle Table agree (R5): a location is OCCUPIED or OUTBOUND by a record exactly when that
is the record's location. -/
def Part.agrees (c : Part) : Prop :=
  ∀ n l, (∃ r, c.rec? n = some r ∧ r.place = .loc l) ↔ (c.occ l).resident = some n

/-- Every entry of the seven tables lies in its range (R2, R3, R50, R60, R149, R171, R174), and the sparse tables are in
canonical form. -/
def Tables.inRange (t : Tables) : Prop :=
  Store.wf SlotCfg.default t.slotMap = true ∧ (∀ e ∈ t.slotMap, e.1 < 960 ∧ e.2.offset ≤ 4095) ∧
  Store.wf PortCfg.default t.ports = true ∧ (∀ e ∈ t.ports, e.1 < 8 ∧ e.2.column ≤ 15) ∧
  Store.wf ZoneCfg.default t.zone.zones = true ∧
  (∀ e ∈ t.zone.zones, e.1 < 16 ∧ e.2.manifold ≤ 63 ∧ e.2.channel ≤ 3) ∧
  (1 ≤ t.zone.sched.tInt ∧ t.zone.sched.tInt ≤ 255) ∧ (10 ≤ t.zone.sched.purgeMax ∧ t.zone.sched.purgeMax ≤ 900) ∧
  (1 ≤ t.zone.sched.concurrency ∧ t.zone.sched.concurrency ≤ 4) ∧
  t.classes.length = 4 ∧ (∀ k ∈ t.classes, k.rate ≤ 255 ∧ k.credit ≤ 4095) ∧
  t.limits.eWarn ≤ 65535 ∧ t.limits.eHold ≤ 65535 ∧ (∀ p, t.limits.manualPort = some p → p < 8) ∧
  t.limits.clearSpans ≤ 2 ∧ (10 ≤ t.limits.moveTimeout ∧ t.limits.moveTimeout ≤ 600) ∧ t.limits.stepWaitMax ≤ 3600 ∧
  (2 ≤ t.limits.rollRetry ∧ t.limits.rollRetry ≤ 60) ∧ (5 ≤ t.limits.linkSilence ∧ t.limits.linkSilence ≤ 255) ∧
  Store.wf PlanEntry.default t.plan = true ∧
  (∀ e ∈ t.plan, 1 ≤ e.1 ∧ e.1 ≤ 63 ∧ e.2.identity ≤ 65535 ∧
    match e.2.kind with
    | .robot => e.2.assignment ≤ 1
    | .port => e.2.assignment ≤ 7
    | .shelf => e.2.assignment ≤ 15
    | .manifold | .none => e.2.assignment = 0) ∧
  t.filter.length = 7

end Sys2Proof.Machine
end

