-- ==== Sys2Proof/Certificates/Slice0/Obligations.lean ====
section
/-! DEFINITION. The statements for the provers. Each is about the block's commands, its events or its invariants; none is
about a program. -/

open Sys2Proof Sys2Proof.Machine

/-! ### The machine as a whole -/

/-- The command at the front of the queue is taken, with the queue's rest. The queue of waiting commands, first in,
first out, is the model's own interface (assumption 6): the spec gives the requests and events and says that each is
taken whole, not where they wait. On an empty queue one second of part time passes and nothing else changes, which is
the model's choice (assumption 26). -/
def Obligations.StepRunsFront : Prop :=
  (∀ (s : State) (i : Instr) (rest : List Instr), s.pending = i :: rest → step s = exec i { s with pending := rest }) ∧
  ∀ s : State, s.pending = [] → step s = .next { s with part := { s.part with now := s.part.now + 1 } }

/-- Every command is taken to its end in every state, and none touches the queue of the commands that wait. -/
def Obligations.EveryCommandCompletes : Prop :=
  ∀ (i : Instr) (s : State), ∃ t, exec i s = .next t ∧ t.pending = s.pending

/-- The values after power-on that the spec gives (R19, R42, R58, R80, R109, R137, R148, R162, R176, R177, R190); the image is
the blank one of assumption 2, so the default tables are live and IMAGE_BAD is set. -/
def Obligations.ResetValues : Prop :=
  State.reset.part.now = 0 ∧ State.reset.part.ctl.mode = .start ∧ State.reset.part.ctl.powerOn = true ∧
  State.reset.part.ctl.imageBad = true ∧ State.reset.part.ctl.seenEnclosure = false ∧
  State.reset.part.ctl.seenStop = false ∧ State.reset.part.ctl.ret = none ∧ State.reset.part.ctl.pending = false ∧
  State.reset.part.tables = Tables.default ∧ State.reset.part.gens = [0, 0, 0, 0, 0, 0, 0] ∧
  (∀ l, State.reset.part.occ l = .unknown) ∧ (∀ l, State.reset.part.hint l = .missing) ∧
  (∀ l, State.reset.part.flagsOf l = SlotFlags.clear) ∧ (∀ n, State.reset.part.rec? n = none) ∧
  State.reset.part.inv.rescan = [] ∧ State.reset.part.inv.cursor.active = false ∧
  (∀ z, State.reset.part.zone z = ⟨-1, none, none, 0, false, 0, false, false, false, false⟩) ∧
  (∀ j, State.reset.part.job? j = none) ∧ (∀ p, State.reset.part.port p = Port.cold) ∧
  State.reset.part.mv.moves = [] ∧ State.reset.part.mv.nextNum = 0 ∧
  State.reset.part.mv.lastSeq = 0 ∧ (∀ x, (State.reset.part.robot x).state = .lost ∧
    (State.reset.part.robot x).held = none ∧ (State.reset.part.robot x).span = none) ∧
  State.reset.part.watch.entries = List.replicate 4 ⟨.range 0 1, .before, .off, false⟩ ∧
  State.reset.part.watch.lastHold = none ∧ State.reset.part.bus.retry = none ∧
  (∃ e, State.reset.part.bus.enum = some e ∧ e.cause = .cold) ∧
  State.reset.link.state = .down ∧ State.reset.link.silence = none ∧ State.reset.owed = [] ∧
  State.reset.link.error = false ∧ State.reset.noticed = [] ∧ State.reset.notices.next = 0 ∧
  State.reset.notices.lost = false ∧ State.reset.part.window = none ∧ State.reset.pending = []

/-- A cold start (R190) answers a next state in which part time is 0, the mode is START, POWER_ON is set, the lines stand as
sampled, and the tables, generations and IMAGE_BAD are those the image's check gives. From any image the blocks then
stand as the spec says: every location UNKNOWN, every hint missing, no flag and no record (R19, R42); the accounts gone
with the records, part time 0 (R58); the zone records new, with a full interval where purge is enabled (R80); no job and
every port as new (R109); no move, each robot LOST, or DISABLED in its park span where the table disables it (R137); the
watch points off (R148); every planned address ABSENT and the enumeration begun (R162); no notice where no line is
active, and no load window (R176). The values that the spec does not give are those of assumptions 4 and 44. -/
def Obligations.ColdStartValues : Prop :=
  ∀ (s : State) (e p : Bool), ∃ t, exec (.coldStart e p) s = .next t ∧
    t.part.now = 0 ∧ t.part.ctl.mode = .start ∧ t.part.ctl.powerOn = true ∧ t.part.ctl.enclosure = e ∧
    t.part.ctl.stop = p ∧ t.part.ctl.seenEnclosure = e ∧ t.part.ctl.seenStop = p ∧ t.link.state = .down ∧
    t.link.silence = none ∧ t.owed = [] ∧
    (imageGood t.image.bytes = true → t.part.tables = imageTables t.image.bytes ∧
      t.part.gens = imageGens t.image.bytes ∧ t.part.ctl.imageBad = false) ∧
    (imageGood t.image.bytes = false → t.part.tables = Tables.default ∧ t.part.gens = [0, 0, 0, 0, 0, 0, 0] ∧
      t.part.ctl.imageBad = true) ∧
    t.part.ctl.ret = none ∧ t.part.ctl.pending = false ∧
    (∀ l, t.part.occ l = .unknown ∧ t.part.hint l = .missing ∧ t.part.flagsOf l = SlotFlags.clear) ∧
    (∀ n, t.part.rec? n = none) ∧ t.part.inv.rescan = [] ∧ t.part.inv.cursor.active = false ∧
    (∀ z < 16, t.part.zone z = ⟨-1, if (t.part.zoneCfg z).enabled then some (60 * t.part.sched.tInt) else none, none, 0,
      false, 0, false, false, false, false⟩) ∧
    (∀ j, t.part.job? j = none) ∧ (∀ q, t.part.port q = Port.cold) ∧
    t.part.mv.moves = [] ∧ t.part.mv.nextNum = 0 ∧ t.part.mv.lastSeq = 0 ∧
    (∀ x, let off : Bool := match x with | .a => t.part.limits.disableA | .b => t.part.limits.disableB
      t.part.robot x = ⟨if off then .disabled else .lost, none, if off then some (x.park, x.park) else none, none, none,
        [], false, none⟩) ∧
    t.part.watch.entries = List.replicate 4 ⟨.range 0 1, .before, .off, false⟩ ∧ t.part.watch.lastHold = none ∧
    (∀ a n, t.part.node? a = some n ↔ (t.part.planOf a).kind ≠ .none ∧
      n = ⟨(t.part.planOf a).kind, (t.part.planOf a).identity, none, .absent, 0, false, false, [], false, false, false⟩) ∧
    t.part.bus.retry = none ∧ (∃ k, t.part.bus.enum = some k ∧ k.cause = .cold) ∧
    t.part.window = none ∧ t.link.error = false ∧ t.notices.lost = false ∧
    (e = false → p = false → t.noticed = [] ∧ t.notices.next = 0)

/-! ### Invariants that every step keeps -/

/-- The Reticle Table's rules (R21), the move list's, in rising order of admission (R110, R111), the ranges of the zone
records (R59), the job pool's limits (R85) and the canonical form of the tables are kept by every step. -/
def Obligations.SoundKept : Prop :=
  ∀ s t : State, s.part.sound → step s = .next t → t.part.sound

/-- The Location Table and the Reticle Table agree (R5): a location is OCCUPIED or OUTBOUND by a record exactly when that is
the record's location. Every step keeps it. Where a report shows a pod at a place that names another record, what becomes of
that record is the reading of assumption 45; R5's clause on INBOUND is not part of this statement. -/
def Obligations.AgreementKept : Prop :=
  ∀ s t : State, s.part.sound → s.part.agrees → step s = .next t → t.part.agrees

/-- No more purge passes are in progress than PURGE_CONCURRENCY, after every step (R61, R68). -/
def Obligations.PassesKept : Prop :=
  ∀ s t : State, s.part.sound → s.part.passesSound → step s = .next t → t.part.passesSound

/-- The link keeps its bounds and its discipline in every step (R163, R166, R169). -/
def Obligations.LinkKept : Prop :=
  ∀ s t : State, s.linkSound → step s = .next t → t.linkSound

/-- The FAULT summary stands exactly while one of its conditions does, after every step (R13). -/
def Obligations.FaultKept : Prop :=
  ∀ s t : State, s.faultSound → step s = .next t → t.faultSound

/-- The return mode stands exactly in STANDALONE, a standalone entry is pending only in NORMAL and MAINTENANCE, and START
lasts exactly as long as the enumeration of a cold or warm start; every step keeps this (R177, R178, R180). -/
def Obligations.ModeKept : Prop :=
  ∀ s t : State, s.modeSound → step s = .next t → t.modeSound

/-- The ROLL_RETRY timer runs exactly while a planned entry is LOST or ABSENT outside enumeration, after every step (R159). -/
def Obligations.RetryKept : Prop :=
  ∀ s t : State, s.retrySound → step s = .next t → t.retrySound

/-- The machine after reset meets every invariant. -/
def Obligations.ResetSound : Prop :=
  State.reset.part.sound ∧ State.reset.part.agrees ∧ State.reset.part.passesSound ∧ State.reset.linkSound ∧
  State.reset.faultSound ∧ State.reset.modeSound ∧ State.reset.retrySound

/-- The status summary as GET_STATUS reports it (R170), part by part: the slot-fault summary of a zone (R12), whether or
not the slot is enabled, the purge fault indication (R79) and the node fault summary (R161); and FAULT's conditions
(R13) read from the tables: a slot with a flag set, a zone with a purge fault, a robot SUSPECT or LOST, a planned node
LOST or ABSENT, IMAGE_BAD, an active line. -/
def Obligations.StatusSummary : Prop :=
  ∀ s : State, s.part.sound →
    let lostAt : Nat → Prop := fun a => ∃ e ∈ s.part.tables.plan, e.1 = a ∧ e.2.kind ≠ .none ∧
      ∃ n, s.part.node? a = some n ∧ (n.state = .lost ∨ n.state = .absent)
    s.status.mode = s.part.ctl.mode ∧ s.status.ret = s.part.ctl.ret ∧ s.status.fault = s.part.ctl.fault ∧
    s.status.powerOn = s.part.ctl.powerOn ∧ s.status.imageBad = s.part.ctl.imageBad ∧
    s.status.lost = s.notices.lost ∧ s.status.linkError = s.link.error ∧
    s.status.enclosure = s.part.ctl.enclosure ∧ s.status.stop = s.part.ctl.stop ∧
    s.status.slotFaults.length = 16 ∧ s.status.purgeFaults.length = 16 ∧
    (∀ z < 16, s.status.slotFaults[z]? = some true ↔ ∃ l < 960, l / 60 = z ∧ (s.part.flagsOf l).any = true) ∧
    (∀ z < 16, s.status.purgeFaults[z]? = some true ↔ (s.part.zone z).overrunFlag = true ∨
      (s.part.zone z).failedFlag = true ∨ s.part.zoneState z = .disabled) ∧
    s.status.robotA = (s.part.robot .a).state ∧ s.status.robotB = (s.part.robot .b).state ∧
    (∀ a, a ∈ s.status.nodeFaults ↔ lostAt a) ∧ s.status.gens = s.part.gens ∧
    s.status.scanActive = s.part.inv.cursor.active ∧ s.status.scanNext = s.part.inv.cursor.next ∧
    s.status.scanRemaining = s.part.inv.cursor.remaining ∧ s.status.rescans = s.part.inv.rescan.length ∧
    (s.status.link = 0 ↔ s.link.state = .down) ∧ (s.status.link = 1 ↔ s.link.state = .hunt) ∧
    (s.status.link = 2 ↔ s.link.state = .up) ∧
    s.status.notices = s.noticed.length ∧ s.status.nextSeq = s.notices.next ∧
    (s.part.window = none → s.status.window = none) ∧
    (∀ w, s.part.window = some w → s.status.window = some (w.shadow.table, w.gen)) ∧
    (s.status.writing = true ↔ ∃ w, s.image.writing = some w) ∧
    (s.part.faultNow = true ↔
      (∃ z < 16, s.status.slotFaults[z]? = some true) ∨ (∃ z < 16, s.status.purgeFaults[z]? = some true) ∨
      (∃ x, (s.part.robot x).state = .suspect ∨ (s.part.robot x).state = .lost) ∨ (∃ a, lostAt a) ∨
      s.part.ctl.imageBad = true ∨ s.part.ctl.enclosure = true ∨ s.part.ctl.stop = true)

/-! ### What events leave alone -/

/-- What changes only where the spec says so. The end of an event leaves the part time, the live tables, their
generations, the image, the waiting commands, the link's state and timer, LINK_ERROR and the replies owed as they were.
Only a commit, RELOAD_IMAGE, RESTORE_DEFAULTS and the starts change a live table or a generation (R175, R188 to R191).
Part time never moves back but at a cold start, where it begins again at 0 (R58, R190; that it moves on at all is
assumption 26). Only the end of an image write, and a power failure during one, change the bytes of the stored image
(R187). -/
def Obligations.ChangesOnlyWhere : Prop :=
  (∀ s : State, s.finish.part.now = s.part.now ∧ s.finish.part.tables = s.part.tables ∧
    s.finish.part.gens = s.part.gens ∧ s.finish.image = s.image ∧ s.finish.pending = s.pending ∧
    s.finish.link.state = s.link.state ∧ s.finish.link.silence = s.link.silence ∧
    s.finish.link.error = s.link.error ∧ s.finish.owed = s.owed) ∧
  ∀ (i : Instr) (s t : State), exec i s = .next t →
    ((match i with
      | .loadCommit .. | .reloadImage _ | .restoreDefaults _ | .softReset _ | .coldStart .. | .imageWriteDone _ => False
      | _ => True) →
      t.part.tables = s.part.tables ∧ t.part.gens = s.part.gens) ∧
    (match i with
      | .coldStart .. => t.part.now = 0
      | _ => s.part.now ≤ t.part.now) ∧
    ((∀ ok, i = .imageWriteDone ok → s.image.writing = none) →
      (∀ e p, i = .coldStart e p → s.image.writing = none) → t.image.bytes = s.image.bytes)

/-! ### Requests -/

/-- Every request that is heard and finds room is answered by one reply, with its own address, kind and tag, behind the
replies already owed (R166, R167). A request is not heard while the link is DOWN, where it changes nothing (the model's
choice, assumption 29), and one that finds 4 replies waiting is an overrun, discarded without effect but for LINK_ERROR
and the silence timer (R163 to R166). -/
def Obligations.RequestsAnsweredOnce : Prop :=
  ∀ (i : Instr) (s : State) (a k tag : Nat), header i = some (a, k, tag) →
    (∀ t, s.listens = true → exec i s = .next t → ∃ r, t.owed = s.owed ++ [⟨a, k, tag, r⟩]) ∧
    (s.deaf = true → exec i s = .next s) ∧
    (s.deaf = false → s.full = true → exec i s = .next s.overrun ∧ exec .replyOverrun s = .next s.overrun ∧
      s.overrun.link.error = true ∧ s.overrun.owed = s.owed ∧
      s.overrun.link.silence = some (s.part.now + s.part.limits.linkSilence))

/-- In START a request that is no query is refused, and does nothing but owe its reply (R167). WRONG_MODE gives way only to
the format checks made before the mode is looked at (the model's order, assumption 7). -/
def Obligations.StartRefuses : Prop :=
  ∀ (i : Instr) (s : State) (a k tag : Nat), header i = some (a, k, tag) → isQuery i = false → s.mode = .start →
    s.listens = true →
    ∃ r, (r = .wrongMode ∨ r = .badRequest ∨ r = .badIndex) ∧
      exec i s = .next (s.concludes s.part a k tag (Rsp.code r)) ∧
      (a = 0 → (∀ t j e, i ≠ .loadEntry tag t j e) → (∀ n, i ≠ .unknownRequest tag n) → r = .wrongMode)

/-- In FAIL_SAFE every request but those of R185 is refused WRONG_MODE and does nothing but owe its reply: the requests of
other modes, LOAD_OPEN and a fitting LOAD_ENTRY of the slot map, the port table and the node plan (R173), LOAD_COMMIT of the
tables whose owners refuse it (R175), and every pass-through frame to an address below 64 (R171). -/
def Obligations.FailSafeRefuses : Prop :=
  ∀ s : State, s.mode = .failSafe → s.listens = true →
    (∀ (i : Instr) (k tag : Nat), header i = some (0, k, tag) →
      (match i with
       | .declare .. | .retire .. | .scanRange .. | .setExposure .. | .deliver .. | .returnJob .. | .relocate ..
       | .recoverRobot .. | .setWatch .. | .releaseMove .. | .cancelMove .. | .clearWatchFlags _ | .busReset _
       | .storeImage _ | .reloadImage _ | .restoreDefaults _ | .enterMaintenance _ | .exitMaintenance _
       | .enterStandalone _ | .exitStandalone .. | .forceFailSafe _ => True
       | _ => False) →
      exec i s = .next (s.refuses k tag .wrongMode)) ∧
    (∀ tag code, code = 0 ∨ code = 1 ∨ code = 5 → exec (.loadOpen tag code) s = .next (s.refuses 0x60 tag .wrongMode)) ∧
    (∀ tag code i (b : List Byte), (code = 0 ∧ b.length = 3) ∨ (code = 1 ∧ b.length = 2) ∨ (code = 5 ∧ b.length = 4) →
      exec (.loadEntry tag code i b) s = .next (s.refuses 0x61 tag .wrongMode)) ∧
    (∀ tag code w, code = 0 ∨ code = 1 ∨ code = 2 ∨ code = 5 → s.part.window = some w →
      tableOfCode code = some w.shadow.table →
      exec (.loadCommit tag code) s = .next (s.refuses 0x62 tag .wrongMode)) ∧
    (∀ tag addr kind (b : List Byte), addr < 64 → exec (.passThroughOrder tag addr kind b) s =
      .next (s.concludes s.part addr kind tag (Rsp.code .wrongMode))) ∧
    (∀ tag addr src dst kind, addr < 64 → exec (.passThroughMoveLeg tag addr src dst kind) s =
      .next (s.concludes s.part addr 0x10 tag (Rsp.code .wrongMode)))

/-- What the queries answer, each in every mode (R18, R79, R108, R135, R147, R161, R170), a port out of plan being
NO_PORT (R3). The queries, GET_STATUS with its clear option and QUERY_RETICLE apart, change nothing but the link's own
state: the blocks, the notices and the image stay. -/
def Obligations.QueryReplies : Prop :=
  (∀ (i : Instr) (s t : State), isQuery i = true → (∀ g, i ≠ .getStatusClear g) → (∀ g x, i ≠ .queryReticle g x) →
    s.listens = true → exec i s = .next t →
    t.part = s.part ∧ t.noticed = s.noticed ∧ t.notices.next = s.notices.next ∧ t.notices.lost = s.notices.lost ∧
    t.image = s.image ∧ t.link.error = s.link.error ∧ t.link.state = .up ∧
    t.link.silence = some (s.part.now + s.part.limits.linkSilence)) ∧
  ∀ (s : State) (tag n : Nat), s.listens = true →
    let ans := fun (k : Nat) (r : Rsp) => (s.heard.reply ⟨0, k, tag, r⟩).transmit
    exec (.getStatus tag) s = .next (ans 0x01 (Rsp.ok (.status s.heard.status))) ∧
    (n < 960 → exec (.queryLocation tag n) s =
      .next (ans 0x02 (Rsp.ok (.slot (s.part.slotCfg n) (s.part.occ n) (s.part.hint n) (s.part.flagsOf n))))) ∧
    (960 ≤ n → n < 968 → exec (.queryLocation tag n) s =
      .next (ans 0x02 (Rsp.ok (.position (s.part.portCfg (n - 960)) (s.part.occ n))))) ∧
    exec (.queryLocation tag 968) s = .next (ans 0x02 (Rsp.ok (.handEntry .a (s.part.occ 968)))) ∧
    exec (.queryLocation tag 969) s = .next (ans 0x02 (Rsp.ok (.handEntry .b (s.part.occ 969)))) ∧
    (970 ≤ n → exec (.queryLocation tag n) s = .next (ans 0x02 (Rsp.code .badIndex))) ∧
    (n < 16 → exec (.queryZone tag n) s = .next (ans 0x04 (Rsp.ok (.zone (s.part.zoneCfg n) (s.part.zone n)
      (s.part.zoneState n) (s.part.zoneClosed n) (s.part.protective n) (s.part.wanting n))))) ∧
    (16 ≤ n → exec (.queryZone tag n) s = .next (ans 0x04 (Rsp.code .badIndex))) ∧
    (∀ r, n < 16 → s.part.job? n = some r → exec (.queryJob tag n) s =
      .next (ans 0x05 (Rsp.ok (.job n r (r.express && (s.part.port r.port).express))))) ∧
    (n < 16 → s.part.job? n = none → exec (.queryJob tag n) s = .next (ans 0x05 (Rsp.code .wrongState))) ∧
    (16 ≤ n → exec (.queryJob tag n) s = .next (ans 0x05 (Rsp.code .badIndex))) ∧
    (n < 8 → (s.part.portCfg n).inPlan = true →
      exec (.queryPort tag n) s = .next (ans 0x06 (Rsp.ok (.port (s.part.port n))))) ∧
    (n < 8 → (s.part.portCfg n).inPlan = false → exec (.queryPort tag n) s = .next (ans 0x06 (Rsp.code .noPort))) ∧
    (8 ≤ n → exec (.queryPort tag n) s = .next (ans 0x06 (Rsp.code .badIndex))) ∧
    (∀ m, n < 256 → s.part.move? n = some m →
      exec (.queryMove tag (.byNumber n)) s = .next (ans 0x07 (Rsp.ok (.move m)))) ∧
    (n < 256 → s.part.move? n = none →
      exec (.queryMove tag (.byNumber n)) s = .next (ans 0x07 (Rsp.code .wrongState))) ∧
    (256 ≤ n → exec (.queryMove tag (.byNumber n)) s = .next (ans 0x07 (Rsp.code .badIndex))) ∧
    exec (.queryRobot tag 0) s =
      .next (ans 0x08 (Rsp.ok (.robot s.part.mv.robotA (s.part.occ 968)))) ∧
    exec (.queryRobot tag 1) s =
      .next (ans 0x08 (Rsp.ok (.robot s.part.mv.robotB (s.part.occ 969)))) ∧
    (2 ≤ n → exec (.queryRobot tag n) s = .next (ans 0x08 (Rsp.code .badIndex))) ∧
    exec (.queryWatch tag) s = .next (ans 0x09 (Rsp.ok (.watch s.part.watch))) ∧
    (1 ≤ n → n ≤ 63 → exec (.queryNode tag n) s =
      .next (ans 0x0A (Rsp.ok (.node (s.part.planOf n) (s.part.node? n))))) ∧
    (n = 0 ∨ 64 ≤ n → exec (.queryNode tag n) s = .next (ans 0x0A (Rsp.code .badIndex)))

/-- The queries that do more than read: GET_STATUS with its clear option answers the flags as they stood and then clears
POWER_ON, NOTICES_LOST and LINK_ERROR (R170); QUERY_RETICLE by ID, by number and with its next option settles the record,
answers with it, and refuses an ID of bad form or of no record, a number that is out of range or free, and a search that
finds none (R43); QUERY_MOVE with its next option gives the move of lowest admission sequence above
the one named, the list standing in the order of admission (R111, R135). -/
def Obligations.QueryEffects : Prop :=
  ∀ (s : State) (tag n : Nat), s.listens = true →
    (∃ t, exec (.getStatusClear tag) s = .next t ∧
      t.owed = s.owed ++ [⟨0, 0x01, tag, Rsp.ok (.status s.heard.status)⟩] ∧
      t.part = { s.part with ctl := { s.part.ctl with powerOn := false } } ∧ t.notices.lost = false ∧
      t.link.error = false ∧ t.noticed = s.noticed) ∧
    (∀ r r', n < 1024 → s.part.rec? n = some r → (s.part.settle n).rec? n = some r' →
      exec (.queryReticle tag (.byNumber n)) s = .next
        (s.concludes (s.part.settle n) 0 0x03 tag (Rsp.ok (.reticle n r' ((s.part.settle n).verified n))))) ∧
    (n < 1024 → s.part.rec? n = none →
      exec (.queryReticle tag (.byNumber n)) s = .next (s.refuses 0x03 tag .unknownReticle)) ∧
    (1024 ≤ n → exec (.queryReticle tag (.byNumber n)) s = .next (s.refuses 0x03 tag .badIndex)) ∧
    (∀ x, (idOk x = false → exec (.queryReticle tag (.byId x)) s = .next (s.refuses 0x03 tag .badRequest)) ∧
      (idOk x = true → s.part.findId x = none →
        exec (.queryReticle tag (.byId x)) s = .next (s.refuses 0x03 tag .unknownReticle)) ∧
      (∀ k r r', idOk x = true → s.part.findId x = some (k, r) → (s.part.settle k).rec? k = some r' →
        exec (.queryReticle tag (.byId x)) s = .next
          (s.concludes (s.part.settle k) 0 0x03 tag (Rsp.ok (.reticle k r' ((s.part.settle k).verified k)))))) ∧
    (1024 ≤ n → exec (.queryReticle tag (.next n)) s = .next (s.refuses 0x03 tag .badIndex)) ∧
    (n < 1024 → (∀ k, n ≤ k → s.part.rec? k = none) →
      exec (.queryReticle tag (.next n)) s = .next (s.refuses 0x03 tag .unknownReticle)) ∧
    (∀ k r', s.part.sound → n < 1024 → n ≤ k → (∀ i, n ≤ i → i < k → s.part.rec? i = none) → s.part.rec? k ≠ none →
      (s.part.settle k).rec? k = some r' → exec (.queryReticle tag (.next n)) s = .next
        (s.concludes (s.part.settle k) 0 0x03 tag (Rsp.ok (.reticle k r' ((s.part.settle k).verified k))))) ∧
    (∀ older m newer, s.part.mv.moves = older ++ m :: newer → n < m.seq → (∀ k ∈ older, k.seq ≤ n) →
      exec (.queryMove tag (.next n)) s = .next (s.heard.reply ⟨0, 0x07, tag, Rsp.ok (.move m)⟩).transmit)

/-! ### The requests of the Inventory -/

/-- DECLARE creates the record under the lowest free number, in a VACANT or UNKNOWN slot that no move reserves or at a
planned scanner, with the E it gives or 0, and answers that number (R21, R25); that a slot which only a SCAN names is
free for it is the model's choice (assumption 33). The refusals of R25, each where no earlier one stands, in its order:
BAD_REQUEST, DUPLICATE_ID, TABLE_FULL, BAD_INDEX, and NO_PORT or WRONG_STATE; a class above 3 and a presence byte of no
code are BAD_REQUEST too (R193), and stand with the form of the ID, ahead of the others, by the model's order of checks
(assumption 7). What it leaves (R25, R46, R52): the record as declared, an unprotected one stamped with the part time of
the event, EXPOSURE held exactly where E is at or above E_HOLD; the slot OCCUPIED by it, not verified; at a scanner the
record OUT there, stamped, every location and every other record as before. -/
def Obligations.DeclareAccepted : Prop :=
  (∀ (s : State) (tag cls kind loc v : Nat) (id : RetId) (e : OptArg Nat), s.listens = true → s.mode.admits = true →
    idOk id = true → cls < 4 → s.part.findId id = none → Store.lowestFree s.part.inv.recs 0 < 1024 →
    (e = .absent ∧ v = 0) ∨ e = .given v →
    let n := Store.lowestFree s.part.inv.recs 0
    let r : Place → RState → Rec := fun p st => ⟨id, cls, kind % 4, p, st, false, false, false, v, 0, none, none⟩
    (loc < 960 → (s.part.occ loc = .vacant ∨ s.part.occ loc = .unknown) →
      (∀ m ∈ s.part.mv.moves, m.kind ≠ .scan → m.dst ≠ some loc) →
      exec (.declare tag id cls kind e loc) s = .next
        (s.concludes (s.part.declare n (r (.loc loc) .idle)) 0 0x10 tag (Rsp.ok (.number n)))) ∧
    (∀ p < 8, (s.part.portCfg p).inPlan = true →
      exec (.declare tag id cls kind e (1000 + p)) s = .next
        (s.concludes (s.part.declare n (r (.scanner p) .out)) 0 0x10 tag (Rsp.ok (.number n))))) ∧
  (∀ (s : State) (tag cls kind loc : Nat) (id : RetId) (e : OptArg Nat), s.listens = true → s.mode.admits = true →
    let refused : Result → Prop := fun r => exec (.declare tag id cls kind e loc) s = .next (s.refuses 0x10 tag r)
    let formed : Prop := idOk id = true ∧ cls < 4 ∧ e ≠ .bad
    let free := Store.lowestFree s.part.inv.recs 0
    (¬formed → refused .badRequest) ∧
    (formed → s.part.findId id ≠ none → refused .duplicateId) ∧
    (formed → s.part.findId id = none → (1024 ≤ free → refused .tableFull) ∧
      (free < 1024 → (960 ≤ loc → loc < 1000 ∨ 1008 ≤ loc → refused .badIndex) ∧
        (∀ p < 8, loc = 1000 + p → (s.part.portCfg p).inPlan = false → refused .noPort) ∧
        (loc < 960 → (s.part.occ loc ≠ .vacant ∧ s.part.occ loc ≠ .unknown) ∨
          (∃ m ∈ s.part.mv.moves, m.kind ≠ .scan ∧ m.dst = some loc) → refused .wrongState)))) ∧
  (∀ (c : Part) (n p : Nat) (r : Rec), c.freeRec = some n → r.place = .scanner p → r.state = .out →
    r.operator = false → r.exposure = false → r.mismatch = false → r.stamp = none →
    let d := c.declare n r
    d.rec? n = some { r with stamp := some c.now, exposure := decide (c.limits.eHold ≤ r.e) } ∧
    (∀ k, k ≠ n → d.rec? k = c.rec? k) ∧ ∀ l, d.occ l = c.occ l) ∧
  ∀ (c : Part) (n l : Nat) (r : Rec), c.freeRec = some n → c.findId r.id = none → r.place = .loc l → l < 960 →
    r.state = .idle → r.operator = false → r.exposure = false → r.mismatch = false → r.stamp = none →
    ((c.declare n r).occ l = .occupied n false) ∧
    ∃ r', (c.declare n r).rec? n = some r' ∧ r'.id = r.id ∧ r'.cls = r.cls ∧ r'.kind = r.kind ∧ r'.place = .loc l ∧
      r'.state = .idle ∧ r'.e = r.e ∧ r'.operator = false ∧ r'.mismatch = false ∧
      (r'.exposure = true ↔ c.limits.eHold ≤ r.e) ∧
      (r'.stamp = none ↔ ((c.flagsOf l).sealed = false ∧ c.protective (l / 60) = true)) ∧
      (∀ t, r'.stamp = some t → t = c.now)

/-- RETIRE removes an OUT or LOST record that no job step names, and nothing else; a RETURNED one at MANUAL_PORT leaves its
position VACANT and its port without a return; any other record is WRONG_STATE (R27). -/
def Obligations.RetireAccepted : Prop :=
  ∀ (s : State) (tag n : Nat) (id : RetId) (r : Rec), s.listens = true → s.mode.admits = true → idOk id = true →
    s.part.sound → s.part.findId id = some (n, r) → r.id = id →
    (s.part.stepNames id = false → (r.state = .out ∨ r.state = .lost) → (∀ l, r.place ≠ .loc l) →
      exec (.retire tag id) s = .next (s.concludes (s.part.dropRec n) 0 0x11 tag (Rsp.ok .none))) ∧
    (∀ p, s.part.stepNames id = false → r.state = .returned → s.part.limits.manualPort = some p →
      r.place = .loc (960 + p) → ∃ c, exec (.retire tag id) s = .next (s.concludes c 0 0x11 tag (Rsp.ok .none)) ∧
        c.rec? n = none ∧ c.occ (960 + p) = .vacant ∧ (c.port p).ret = none ∧
        (∀ w ∈ (c.port p).window, ∀ x k, w.kind ≠ .returnWaiting x k) ∧
        (∀ m ∈ c.mv.moves, m.reticle = some n → m.granted = true)) ∧
    (s.part.stepNames id = true ∨ (r.state ≠ .out ∧ r.state ≠ .lost ∧ (r.state = .returned →
        ∀ p, s.part.limits.manualPort = some p → r.place ≠ .loc (960 + p))) →
      exec (.retire tag id) s = .next (s.refuses 0x11 tag .wrongState))

/-- HOLD sets OPERATOR and UNHOLD clears the reason named, OPERATOR where none is; each answers the reasons after it, in
every mode but START; UNHOLD of EXPOSURE, and of a value that names no reason, is refused (R38, R193); that a reason's code
is the number of its bit in the set, 1 EXPOSURE and 2 MISMATCH, is deduced (assumption 74). On a record with
no commitment that a hold could end, one reason changes, and with it nothing else of the record, of the locations or of
the moves. Of any reason, on a record that carries none, a change made by the K64 itself being told by HOLD_CHANGED: a
RESERVED record is IDLE in its slot, or RETURNED at its position, with no job reference; its pending DELIVER or CROSS is
removed, the step ending SKIPPED_HOLD, and the return that a CROSS carried is handled again as a forced one, while a
RELOCATE stays (R39). A PRESENTED record is WITHDRAWING, its job reference kept and WITHDRAW queued (R41). -/
def Obligations.HoldRequests : Prop :=
  (∀ (s : State) (tag n : Nat) (id : RetId) (r : Rec), s.listens = true → s.mode ≠ .start → idOk id = true →
    s.part.findId id = some (n, r) →
    exec (.hold tag id) s = .next (s.concludes (s.part.addHold n .operator) 0 0x12 tag
      (Rsp.ok ((s.part.addHold n .operator).holdsBody n))) ∧
    exec (.unhold tag id .absent) s = .next (s.concludes (s.part.clearHold n .operator false) 0 0x13 tag
      (Rsp.ok ((s.part.clearHold n .operator false).holdsBody n))) ∧
    exec (.unhold tag id (.given 0)) s = exec (.unhold tag id .absent) s ∧
    exec (.unhold tag id (.given 2)) s = .next (s.concludes (s.part.clearHold n .mismatch false) 0 0x13 tag
      (Rsp.ok ((s.part.clearHold n .mismatch false).holdsBody n))) ∧
    exec (.unhold tag id (.given 1)) s = .next (s.refuses 0x13 tag .badRequest) ∧
    (∀ v, 3 ≤ v → exec (.unhold tag id (.given v)) s = .next (s.refuses 0x13 tag .badRequest)) ∧
    exec (.unhold tag id .bad) s = .next (s.refuses 0x13 tag .badRequest)) ∧
  (∀ (c : Part) (n : Nat) (r : Rec), c.rec? n = some r → r.state ≠ .reserved → r.state ≠ .presented →
    (c.addHold n .operator).rec? n = some { r with operator := true } ∧
    (c.clearHold n .operator false).rec? n = some { r with operator := false } ∧
    (c.clearHold n .mismatch false).rec? n = some { r with mismatch := false } ∧
    (∀ k, k ≠ n → (c.addHold n .operator).rec? k = c.rec? k ∧ (c.clearHold n .operator false).rec? k = c.rec? k) ∧
    (∀ l, (c.addHold n .operator).occ l = c.occ l ∧ (c.clearHold n .operator false).occ l = c.occ l) ∧
    (c.addHold n .operator).mv = c.mv ∧ (c.clearHold n .operator false).mv = c.mv ∧
    (c.addHold n .operator).out = c.out ∧ (c.clearHold n .operator false).out = c.out) ∧
  ∀ (c : Part) (n l : Nat) (r : Rec) (h : HoldReason), c.rec? n = some r → r.held = false → r.place = .loc l → l < 968 →
    let d := c.addHold n h
    let told : RState → List Subject := fun t => if h = .operator then [] else [Subject.holdChanged n h true t]
    (r.state = .reserved → ∀ m, m ∈ c.mv.moves → m.reticle = some n → m.granted = false →
      (∀ x ∈ c.mv.moves, x.reticle = some n → x = m) →
      let now : RState := if l < 960 then .idle else .returned
      d.rec? n = some { r.setHold h true with state := now, job := none } ∧
      (m.kind = .relocate → d.mv = c.mv ∧ d.out = c.out ++ told now) ∧
      (∀ j k b st, m.kind = .deliver ∨ m.kind = .cross → m.owner = .step j k → c.job? j = some b → b.kind = .deliver →
        b.steps[k]? = some st → st.state ≠ .ended →
        d.mv.moves = c.mv.moves.filter (fun x => x.num ≠ m.num) ∧
        (∃ a : List Subject, d.out = c.out ++ told now ++ Subject.stepResult j (k + 1) .skippedHold (some n) :: a) ∧
        (∀ p t, m.kind = .cross → m.src = some (960 + p) → p < 8 → (c.port p).ret = some t → t.move = some m.num →
          (d.port p).ret = some { t with move := none, forced := true } ∧ Sig.handle p ∈ d.work))) ∧
    (∀ p, r.state = .presented → l = 960 + p →
      d.rec? n = some { r.setHold h true with state := .withdrawing } ∧ d.mv = c.mv ∧ d.occ l = c.occ l ∧
      d.out = c.out ++ told .withdrawing ∧
      ∀ a q, c.portAddr p = some a → (c.planOf a).kind ≠ .none → c.node? a = some q →
        d.node? a = some { q with queue := q.queue ++ [⟨.withdraw r.id, none⟩] })

/-- SET_EXPOSURE, in MAINTENANCE, settles the account, writes E with no fraction and answers the account it replaced
(R57): the stamp is the one the settlement leaves, and EXPOSURE follows the new E by R52, up and down. -/
def Obligations.SetExposureAccepted : Prop :=
  ∀ (s : State) (tag n e : Nat) (id : RetId) (r : Rec), s.listens = true → s.mode = .maintenance → idOk id = true →
    s.part.sound → s.part.limits.eWarn < s.part.limits.eHold → s.part.findId id = some (n, r) →
    let c := s.part.writeExposure n e
    let q := r.accrue s.part.now (s.part.tables.classes.getD r.cls ⟨0, 0⟩).rate
    ∃ r', c.rec? n = some r' ∧ r'.e = e ∧ r'.frac = 0 ∧ r'.stamp = q.stamp ∧ r'.id = r.id ∧ r'.place = r.place ∧
      r'.operator = r.operator ∧ r'.mismatch = r.mismatch ∧
      (r'.exposure = true ↔ s.part.limits.eHold ≤ e ∨ (r.exposure = true ∧ s.part.limits.eWarn ≤ e)) ∧
      (∀ k, k ≠ n → c.rec? k = s.part.rec? k) ∧
      exec (.setExposure tag id e) s = .next (s.concludes c 0 0x17 tag
        (Rsp.ok (.account q.e q.frac r'.operator r'.exposure r'.mismatch)))

/-- CLEAR_FAULT of a slot and of a zone, SCAN_RANGE and CANCEL_SCAN: their ranges and their modes (R11, R36, R78, R193).
What CLEAR_FAULT clears: the slot's three flags and, with PRESENCE_CONFLICT, its hint; the zone's two flags and its
failure count, its balance, pass, OVERDUE, timer and supply fault staying. What CANCEL_SCAN does: the cursor is
inactive, its scan not yet dispatched leaves the move list, a dispatched one runs on as a plain background scan, and
SCAN_DONE carries the cancelled indication; with the cursor inactive it does nothing. That a dispatched scan
stays and becomes a background scan is the reading of assumption 34. A reticle whose slot's SEAL_FAULT is cleared in a
protective zone is settled and protected again (R11, R45). The offer of a background scan (R37), in a mode that admits
moves, with more than 8 entries of the move list free and no background scan in it: the head of the rescan queue leaves it,
with its scan admitted where a robot is available, the position of a port not in plan without one; with the queue empty, the
active cursor's next slot is scanned, or put in the queue where it is INBOUND or OUTBOUND, and the cursor passes on. That
such a slot is taken from the head of the queue like any other is the model's choice (assumption 68). A cursor with nothing
left and no scan in the list becomes inactive, with SCAN_DONE not cancelled (R36). -/
def Obligations.FaultAndScanRequests : Prop :=
  (∀ (s : State) (tag n count : Nat), s.listens = true →
    (s.mode ≠ .start → n < 960 →
      exec (.clearFault tag (some n)) s = .next (s.concludes (s.part.clearSlot n) 0 0x14 tag (Rsp.ok .none))) ∧
    (s.mode ≠ .start → 960 ≤ n → exec (.clearFault tag (some n)) s = .next (s.refuses 0x14 tag .badIndex)) ∧
    (s.mode ≠ .start → exec (.clearFault tag none) s = .next (s.refuses 0x14 tag .badRequest)) ∧
    (s.mode ≠ .start → n < 16 →
      exec (.clearFaultZone tag n) s = .next (s.concludes (s.part.updZone n fun z =>
        { z with overrunFlag := false, failedFlag := false, failures := 0 }) 0 0x14 tag (Rsp.ok .none))) ∧
    (s.mode ≠ .start → 16 ≤ n → exec (.clearFaultZone tag n) s = .next (s.refuses 0x14 tag .badIndex)) ∧
    (s.mode.admits = true → n < 960 → 1 ≤ count → n + count ≤ 960 → s.part.inv.cursor.active = false →
      exec (.scanRange tag n count) s = .next (s.concludes
        { s.part with inv := { s.part.inv with cursor := ⟨true, n, count, n, count, 0⟩ } } 0 0x15 tag
        (Rsp.ok .none))) ∧
    (s.mode.admits = true → 960 ≤ n → exec (.scanRange tag n count) s = .next (s.refuses 0x15 tag .badIndex)) ∧
    (s.mode.admits = true → n < 960 → (count = 0 ∨ 960 < n + count) →
      exec (.scanRange tag n count) s = .next (s.refuses 0x15 tag .badLength)) ∧
    (s.mode.admits = true → n < 960 → 1 ≤ count → n + count ≤ 960 → s.part.inv.cursor.active = true →
      exec (.scanRange tag n count) s = .next (s.refuses 0x15 tag .busy)) ∧
    (s.mode ≠ .start → exec (.cancelScan tag) s = .next (s.concludes s.part.cancelScan 0 0x16 tag (Rsp.ok .none)))) ∧
  ∀ (c : Part) (l z : Nat), c.sound →
    ((c.clearSlot l).flagsOf l = SlotFlags.clear ∧
      (∀ k, k ≠ l → (c.clearSlot l).flagsOf k = c.flagsOf k ∧ (c.clearSlot l).hint k = c.hint k) ∧
      (c.clearSlot l).hint l = (if (c.flagsOf l).conflict then .missing else c.hint l) ∧
      (∀ k, (c.clearSlot l).occ k = c.occ k) ∧
      (c.agrees → l < 960 → (c.flagsOf l).sealed = true → c.protective (l / 60) = true →
        ∀ n r, (c.occ l).resident = some n → c.rec? n = some r →
        let q := r.accrue c.now (c.tables.classes.getD r.cls ⟨0, 0⟩).rate
        ∃ r', (c.clearSlot l).rec? n = some r' ∧ r'.id = r.id ∧ r'.place = r.place ∧ r'.stamp = none ∧ r'.e = q.e ∧
          r'.frac = q.frac)) ∧
    (c.updZone z fun r => { r with overrunFlag := false, failedFlag := false, failures := 0 }).zone z =
      { c.zone z with overrunFlag := false, failedFlag := false, failures := 0 } ∧
    (c.inv.cursor.active = false → c.cancelScan = c) ∧
    (c.inv.cursor.active = true →
      c.cancelScan.inv.cursor = { c.inv.cursor with active := false } ∧
      c.cancelScan.mv.moves = (c.mv.moves.filter fun m => !(m.owner == .inventory true && !m.granted)).map (fun m =>
        if m.owner = .inventory true then { m with owner := .inventory false } else m) ∧
      c.cancelScan.out = c.out ++
        [Subject.scanDone c.inv.cursor.first c.inv.cursor.count c.inv.cursor.admitted true]) ∧
    let k := c.inv.cursor
    let offers : Prop := c.ctl.mode.admits = true ∧ c.mv.moves.length < 16 ∧ ∀ m ∈ c.mv.moves, ∀ b, m.owner ≠ .inventory b
    let able : Prop := (c.robot .a).available = true ∨ (c.robot .b).available = true
    let past : Nat → Cursor := fun n =>
      { k with next := k.next + 1, remaining := k.remaining - 1, admitted := k.admitted + n }
    let scans : Nat → Bool → Inventory → Prop := fun x own inv =>
      (¬able → c.offerScan = none) ∧
      (able → ∃ (d : Part) (m : Move), c.offerScan = some d ∧ d.inv = inv ∧ d.mv.moves = c.mv.moves ++ [m] ∧ m.kind = .scan ∧
        m.src = none ∧ m.dst = some x ∧ m.reticle = none ∧ m.owner = .inventory own ∧ m.granted = false)
    (¬offers → c.offerScan = none) ∧
    (∀ x rest, offers → c.inv.rescan = x :: rest → x < 968 →
      let inv : Inventory := { c.inv with rescan := rest.filter (· ≠ x) }
      let left : Part := { c with inv := inv }
      (960 ≤ x → (c.portCfg (x - 960)).inPlan = false → c.offerScan = some left) ∧
      (x < 960 ∨ (c.portCfg (x - 960)).inPlan = true → scans x false inv)) ∧
    (offers → c.inv.rescan = [] → (k.active = false ∨ k.remaining = 0 → c.offerScan = none) ∧
      (k.active = true → 0 < k.remaining → k.next < 960 →
        let moving : Prop := ∃ n, c.occ k.next = .inbound n ∨ ∃ v, c.occ k.next = .outbound n v
        let queued : Part := { c with inv := { c.inv with rescan := [k.next], cursor := past 0 } }
        let passed : Inventory := { c.inv with cursor := past 1 }
        (moving → c.offerScan = some queued) ∧ (¬moving → scans k.next true passed))) ∧
    let finished : Prop := k.active = true ∧ k.remaining = 0 ∧ ∀ m ∈ c.mv.moves, m.owner ≠ .inventory true
    (¬finished → c.cursorDone = none) ∧
    let told : Part := { c with
      inv := { c.inv with cursor := { k with active := false } }
      out := c.out ++ [Subject.scanDone k.first k.count k.admitted false] }
    (finished → c.cursorDone = some told)

/-! ### The requests of the Job Engine -/

/-- DELIVER and RETURN put a job of the lowest free number at the tail of the port's queue, QUEUED, with its steps
PENDING, and answer the number; a use duration above 1023 is taken as 1023 with CLAMPED, and EXPRESS on a port without
it is reported (R85, R87, R88). Their refusals, each where no earlier one stands, in the order of R87 and R88: the number of
steps, the port's number, a port not in plan or with no node or an ABSENT one; then for DELIVER an ID of another form and an
ID that no record carries, the first such step being named, and for RETURN a port that is not DIRECTED, a destination that is
no slot and an expected ID of another form; then the CONTINUE successor, the pool and the port's queue. -/
def Obligations.JobRequests : Prop :=
  (∀ (s : State) (tag p : Nat) (f : JobFlags), s.listens = true → s.mode.admits = true → p < 8 →
    s.part.takesJobs p = true → (∀ q, f.cont = some q → q < 16) → Store.lowestFree s.part.jobs.jobs 0 < 16 →
    s.part.jobsAt p < 4 →
    let j := Store.lowestFree s.part.jobs.jobs 0
    let c := fun (k : JobKind) (w : List StepWork) =>
      (s.part.putJob j ⟨p, k, false, w.map fun x => ⟨x, .pending, none, none, none, none⟩, f.stop, f.express, f.cont,
        false, false⟩).putPort p { s.part.port p with queue := (s.part.port p).queue ++ [j] }
    let ex := f.express && !(s.part.port p).express
    (∀ steps : List DStep, 1 ≤ steps.length → steps.length ≤ 8 →
      (∀ d ∈ steps, idOk d.id = true ∧ s.part.findId d.id ≠ none) →
      exec (.deliver tag p steps f) s = .next
        (s.concludes (c .deliver (steps.map fun d => .deliver d.id (min d.d 1023))) 0 0x20 tag
          ⟨if ∃ d ∈ steps, 1023 < d.d then .clamped else .ok, ex, .number j⟩)) ∧
    (∀ steps : List RStep, 1 ≤ steps.length → steps.length ≤ 8 → (s.part.portCfg p).directed = true →
      (∀ r ∈ steps, (∀ n, r.dest = .slot n → n < 960) ∧ ∀ x, r.expect = some x → idOk x = true) →
      exec (.returnJob tag p steps f) s = .next
        (s.concludes (c .ret (steps.map fun r => .ret r.dest r.expect)) 0 0x21 tag ⟨.ok, ex, .number j⟩))) ∧
  ∀ (s : State) (tag p : Nat) (f : JobFlags) (ds : List DStep) (rs : List RStep), s.listens = true → s.mode.admits = true →
    let deliver : Result → Prop := fun r => exec (.deliver tag p ds f) s = .next (s.refuses 0x20 tag r)
    let returns : Result → Prop := fun r => exec (.returnJob tag p rs f) s = .next (s.refuses 0x21 tag r)
    let counted : Nat → Prop := fun n => 1 ≤ n ∧ n ≤ 8
    let served : Prop := (s.part.portCfg p).inPlan = true ∧
      ∃ a n, s.part.portAddr p = some a ∧ s.part.node? a = some n ∧ n.state ≠ .absent
    let formed : Prop := ∀ d ∈ ds, idOk d.id = true
    let slots : Prop := ∀ r ∈ rs, ∀ n, r.dest = .slot n → n < 960
    let expects : Prop := ∀ r ∈ rs, ∀ x, r.expect = some x → idOk x = true
    let cont : Prop := ∀ q, f.cont = some q → q < 16
    let free := Store.lowestFree s.part.jobs.jobs 0
    let last : (Result → Prop) → Prop := fun bad => (¬cont → bad .badIndex) ∧ (cont → 16 ≤ free → bad .noJobSpace) ∧
      (cont → free < 16 → 4 ≤ s.part.jobsAt p → bad .portQueueFull)
    (s.part.takesJobs p = true ↔ served) ∧
    (¬counted ds.length → deliver .badLength) ∧ (¬counted rs.length → returns .badLength) ∧
    (counted ds.length → (8 ≤ p → deliver .badIndex) ∧ (p < 8 → ¬served → deliver .noPort) ∧
      (p < 8 → served → (¬formed → deliver .badRequest) ∧
        (∀ i d, formed → ds[i]? = some d → s.part.findId d.id = none →
          (∀ k e, k < i → ds[k]? = some e → s.part.findId e.id ≠ none) →
          exec (.deliver tag p ds f) s =
            .next (s.concludes s.part 0 0x20 tag ⟨.unknownReticle, false, .number (i + 1)⟩)) ∧
        (formed → (∀ d ∈ ds, s.part.findId d.id ≠ none) → last deliver))) ∧
    (counted rs.length → (8 ≤ p → returns .badIndex) ∧ (p < 8 → ¬served → returns .noPort) ∧
      (p < 8 → served → ((s.part.portCfg p).directed = false → returns .wrongState) ∧
        ((s.part.portCfg p).directed = true → (¬slots → returns .badIndex) ∧ (slots → ¬expects → returns .badRequest) ∧
          (slots → expects → last returns))))

/-- CANCEL_JOB, MASK_PORT and UNMASK_PORT: their ranges, their modes and their effect (R84, R91). UNMASK_PORT activates
what the port's queue holds, then attempts the head step, then handles the return; the queue may give up to four RETURN
jobs of an AUTO port before one is activated (R89). Activation (R89): in NORMAL a port neither masked nor suspended,
with no active job, takes the head of its queue, which becomes ACTIVE, with idle sent no, PORT_JOB(active) behind the
orders of its node and, alone of all that is left to do, its head step to be attempted for a DELIVER job, and the port's
return to be handled again for a RETURN job (R101); a RETURN job on an AUTO port ends CANCELLED instead. A job's
end (R90): its record is free, its port has no active job, PORT_JOB(idle) goes out once and JOB_ENDED is queued; then
its CONTINUE successor, unless the job was CANCELLED, is put at the head of the queue if it is QUEUED on that port, and
otherwise CHAIN_BROKEN is queued. Of several ports that can activate in one event the lowest is taken first, which is the
model's choice (assumption 58). -/
def Obligations.PortAndJobRequests : Prop :=
  (∀ (s : State) (tag n : Nat), s.listens = true → s.mode ≠ .start →
    let c0 := s.part.putPort n { s.part.port n with masked := false }
    (∀ r, n < 16 → s.part.job? n = some r →
      exec (.cancelJob tag n) s = .next (s.concludes (s.part.cancelJob n r) 0 0x22 tag (Rsp.ok .none))) ∧
    (n < 16 → s.part.job? n = none → exec (.cancelJob tag n) s = .next (s.refuses 0x22 tag .wrongState)) ∧
    (16 ≤ n → exec (.cancelJob tag n) s = .next (s.refuses 0x22 tag .badIndex)) ∧
    (n < 8 → exec (.maskPort tag n) s = .next (s.concludes
      (s.part.putPort n { s.part.port n with masked := true }) 0 0x23 tag (Rsp.ok .none))) ∧
    (8 ≤ n → exec (.maskPort tag n) s = .next (s.refuses 0x23 tag .badIndex)) ∧
    (n < 8 → exec (.unmaskPort tag n) s = .next (s.concludes
      ((((c0.activateHead n).activateHead n).activateHead n).activateHead n |>.attempt n |>.handleReturn n) 0 0x24 tag
      (Rsp.ok .none))) ∧
    (8 ≤ n → exec (.unmaskPort tag n) s = .next (s.refuses 0x24 tag .badIndex))) ∧
  (∀ c : Part, c.sound →
    let able : Nat → Prop := fun p => c.ctl.mode = .normal ∧ (c.port p).masked = false ∧ c.suspended p = false ∧
      (c.port p).active = none
    (c.activateOnce = none ↔ ∀ p < 8, able p → (c.port p).queue = []) ∧
    (∀ p < 8, able p → (c.port p).queue ≠ [] → (∀ q < p, able q → (c.port q).queue = []) →
      c.activateOnce = some (c.activateHead p)) ∧
    ∀ p < 8, let d := c.activateHead p
      (¬able p ∨ (c.port p).queue = [] → d = c) ∧
      (∀ j rest r, able p → (c.port p).queue = j :: rest → c.job? j = some r →
        (r.kind = .deliver ∨ (c.portCfg p).directed = true →
          d.port p = { c.port p with queue := rest, active := some j, idleSent := false } ∧
          d.job? j = some { r with active := true } ∧ d.out = c.out ∧
          d.work = (c.signal (if r.kind = .deliver then .attempt p else .handle p)).work ∧
          ∀ a n, c.portAddr p = some a → (c.planOf a).kind ≠ .none → c.node? a = some n →
            d.node? a = some { n with queue := n.queue ++ [⟨.portJob true j r.kind, none⟩] }) ∧
        (r.kind = .ret → (c.portCfg p).directed = false → r.port = p →
          d.job? j = none ∧ (d.port p).active = none ∧ (d.port p).queue = rest.filter (· ≠ j) ∧
          ∃ n, Subject.jobEnded j p .ret .cancelled n ∈ d.out))) ∧
  ∀ (c : Part) (j : Nat) (r : Job) (o : JobOutcome), c.sound → c.job? j = some r →
    let d := c.endJob j o
    let pt := c.port r.port
    let left := pt.queue.filter (· ≠ j)
    d.job? j = none ∧ (d.port r.port).active = (if pt.active = some j then none else pt.active) ∧
    (r.active = true → pt.idleSent = false → ∀ a n, c.portAddr r.port = some a → (c.planOf a).kind ≠ .none →
      c.node? a = some n → d.node? a = some { n with queue := n.queue ++ [⟨.portJob false j r.kind, none⟩] }) ∧
    (r.cont = none ∨ o = .cancelled →
      (d.port r.port).queue = left ∧ ∃ (l : List Subject) (n : Nat),
        d.out = c.out ++ l ++ [Subject.jobEnded j r.port r.kind o n]) ∧
    (∀ q, r.cont = some q → o ≠ .cancelled →
      (∀ b, q ≠ j → c.job? q = some b → b.port = r.port → b.active = false →
        (d.port r.port).queue = q :: left.filter (· ≠ q) ∧
        ∃ (l : List Subject) (n : Nat), d.out = c.out ++ l ++ [Subject.jobEnded j r.port r.kind o n]) ∧
      (q = j ∨ c.job? q = none ∨ (∃ b, c.job? q = some b ∧ (b.port ≠ r.port ∨ b.active = true)) →
        (d.port r.port).queue = left ∧
        ∃ (l : List Subject) (n : Nat), d.out = c.out ++ l ++ [Subject.jobEnded j r.port r.kind o n, .chainBroken j q]))

/-- What CANCEL_JOB does (R90, R91). A QUEUED job leaves the job pool and its port's queue at once, and its end is told
once. An ACTIVE one takes the cancel mark: its PENDING and WAITING steps end CANCELLED; with a MOVING or PRESENTED step
it runs on to that step's end; with none it ends CANCELLED and its port is free. A RESERVED step gives back what it
took: its move leaves the list, its record is IDLE in its slot with no job reference, and its READY stands at the head
of the window again, with the time of its first acknowledgment (the reading of assumption 35). A job that carries the
mark already is not changed. -/
def Obligations.JobCancelled : Prop :=
  ∀ (c : Part) (j : Nat) (r : Job), c.sound → c.job? j = some r →
    (∀ st ∈ r.steps, st.state ≠ .ended → st.result = none) →
    let d := c.cancelJob j r
    let cut : Step → Step := fun st => if st.state = .pending ∨ st.state = .waiting then
      { st with state := .ended, result := some .cancelled, expiry := none, since := none, move := none } else st
    let ends : Prop := ∃ a : List Subject, d.out = c.out ++ a ++ [Subject.jobEnded j r.port r.kind .cancelled
      (r.steps.filter fun st => st.result = some .done).length] ∧ ∀ n ∈ a, ∃ k x, n = .stepResult j k .cancelled x
    (r.active = false → d.job? j = none ∧ j ∉ (d.port r.port).queue ∧ d.mv = c.mv ∧ ends ∧
      ∀ k, k ≠ j → d.job? k = c.job? k) ∧
    (r.active = true → r.cancel = true → d = c) ∧
    (r.active = true → r.cancel = false →
      (∀ k st, r.head = some (k, st) → st.state = .moving ∨ st.state = .presented →
        d.job? j = some { r with cancel := true, steps := r.steps.map cut } ∧ d.mv = c.mv ∧
        (d.port r.port) = c.port r.port) ∧
      ((∀ st ∈ r.steps, st.state = .pending ∨ st.state = .waiting ∨ st.state = .ended) →
        d.job? j = none ∧ (d.port r.port).active ≠ some j ∧ j ∉ (d.port r.port).queue ∧ d.mv = c.mv ∧ ends) ∧
      (∀ k st m n q l, r.kind = .deliver → r.head = some (k, st) → st.state = .reserved → st.move = some m.num →
        (∀ i x, i ≠ k → r.steps[i]? = some x → x.state = .pending ∨ x.state = .waiting ∨ x.state = .ended) →
        c.move? m.num = some m → m.granted = false → m.owner = .step j k → m.kind = .deliver →
        m.reticle = some n → c.rec? n = some q → q.state = .reserved → q.place = .loc l → l < 960 →
        d.job? j = none ∧ d.mv.moves = c.mv.moves.filter (fun x => x.num ≠ m.num) ∧
        d.rec? n = some { q with state := .idle, job := none } ∧
        (∀ t, m.ready = some t → (c.port r.port).window.length < 2 →
          (d.port r.port).window = ⟨.ready, t⟩ :: (c.port r.port).window) ∧ ends))

/-! ### The requests of the Move Scheduler and the Watch Unit -/

/-- RELOCATE of an IDLE reticle that no move carries is admitted by R112 or refused with its code; admitted, the record
becomes RESERVED unless a hold keeps it IDLE (R133). Ahead of the admission R133 refuses, in this order, an ID of bad
form, an ID of no record, a slot out of range, and a record that is not IDLE or is the reticle of a move. -/
def Obligations.RelocateRequest : Prop :=
  (∀ (s : State) (tag n l : Nat) (id : RetId) (r : Rec) (d : Option Nat), s.listens = true → s.mode.admits = true →
    idOk id = true → s.part.findId id = some (n, r) → r.state = .idle → r.place = .loc l → s.part.inMove n = false →
    (∀ k, d = some k → k < 960) →
    let ask : Ask := ⟨.relocate, some l, d, l / 60, r.kind, .relocate, none, false, none, false⟩
    let dest : Dest := match d with
      | some k => .slot k
      | none => .any
    (∀ c m, s.part.admitAsk ask = .ok (c, m) → exec (.relocate tag id dest) s = .next
      (s.concludes (c.updRec n fun r => if r.held then r else { r with state := .reserved, job := none }) 0 0x30 tag
        (Rsp.ok (.admitted m.num (m.state = .held) (if m.refColumn.isSome then m.dst else none))))) ∧
    (∀ e, s.part.admitAsk ask = .error e → exec (.relocate tag id dest) s = .next (s.refuses 0x30 tag e))) ∧
  ∀ (s : State) (tag : Nat) (id : RetId) (dest : Dest), s.listens = true → s.mode.admits = true →
    let refused : Result → Prop := fun r => exec (.relocate tag id dest) s = .next (s.refuses 0x30 tag r)
    (idOk id = false → refused .badRequest) ∧
    (idOk id = true → s.part.findId id = none → refused .unknownReticle) ∧
    (∀ n r, idOk id = true → s.part.findId id = some (n, r) →
      (∀ k, dest = .slot k → 960 ≤ k → refused .badIndex) ∧
      ((∀ k, dest = .slot k → k < 960) → r.state ≠ .idle ∨ s.part.inMove n = true → refused .wrongState))

/-- RECOVER_ROBOT asks a SUSPECT robot with a PRESENT node for its hand, once; otherwise it is WRONG_STATE, or BUSY while
an answer is awaited (R132). RELEASE_MOVE makes a HELD move PENDING with the passed mark (R144), and CANCEL_MOVE removes a
move that has not been granted (R145); each is refused for any other, for a number that no move carries and for one above
255. What the removal does (R146): the move leaves the list, a record it reserved is IDLE in its slot or RETURNED at its
position, and the owner is told: RELOCATE_DONE, PASS_REPORT, the end of the step CANCELLED, the return at the port left to
be handled again. That STEP_RESULT of a RETURN step names the move's record, and where that is none the record of the ID
which the step expects, is the model's choice (assumption 59). The answer to a HAND_SNAPSHOT (R132): the hand is read by
R28, and a SUSPECT robot whose span lies in its interval and whose hand is VACANT is IDLE there, a scan of its first
recovery location admitted, with ROBOT_RECOVERED last; with the span outside or the hand taken it stays SUSPECT with
MOVE_FAULT, the span being looked at first (assumption 18); an IDLE robot found so becomes SUSPECT. The POSITION report
that ends a yield or a park travel (R116, R120): within the interval the robot is IDLE there, or stays DISABLED; outside
it MOVE_FAULT is queued and the robot is SUSPECT, but that one on its park travel stays DISABLED there too is the model's
choice (assumption 18); with none in progress the report is too late. -/
def Obligations.RobotAndMoveRequests : Prop :=
  (∀ (s : State) (tag : Nat) (x : Side), s.listens = true → s.mode.admits = true →
    ((s.part.robot x).state = .suspect → s.part.robotPresent x = true → (s.part.robot x).awaited = false →
      exec (.recoverRobot tag x.index) s = .next (s.concludes
        ((s.part.putRobot x { s.part.robot x with awaited := true }).robotOrder x .handSnapshot) 0 0x31 tag
        (Rsp.ok .none))) ∧
    ((s.part.robot x).state = .suspect → s.part.robotPresent x = true → (s.part.robot x).awaited = true →
      exec (.recoverRobot tag x.index) s = .next (s.refuses 0x31 tag .busy)) ∧
    ((s.part.robot x).state ≠ .suspect ∨ s.part.robotPresent x = false →
      exec (.recoverRobot tag x.index) s = .next (s.refuses 0x31 tag .wrongState)) ∧
    (∀ n, 2 ≤ n → exec (.recoverRobot tag n) s = .next (s.refuses 0x31 tag .badIndex))) ∧
  (∀ (s : State) (tag n : Nat), s.listens = true → s.mode.admits = true →
    (∀ m, n < 256 → s.part.move? n = some m →
      (m.state = .held → exec (.releaseMove tag n) s = .next
        (s.concludes (s.part.putMove { m with state := .pending, passed := true }) 0 0x41 tag (Rsp.ok .none))) ∧
      (m.state ≠ .held → exec (.releaseMove tag n) s = .next (s.refuses 0x41 tag .notHeld)) ∧
      (m.state = .pending ∨ m.state = .held → exec (.cancelMove tag n) s = .next
        (s.concludes (s.part.cancelMove m .cancelMove) 0 0x42 tag (Rsp.ok .none))) ∧
      (m.state = .dispatched ∨ m.state = .picked ∨ m.state = .puttingBack →
        exec (.cancelMove tag n) s = .next (s.refuses 0x42 tag .wrongState))) ∧
    (n < 256 → s.part.move? n = none → exec (.releaseMove tag n) s = .next (s.refuses 0x41 tag .notHeld) ∧
      exec (.cancelMove tag n) s = .next (s.refuses 0x42 tag .wrongState)) ∧
    (256 ≤ n → exec (.releaseMove tag n) s = .next (s.refuses 0x41 tag .badIndex) ∧
      exec (.cancelMove tag n) s = .next (s.refuses 0x42 tag .badIndex))) ∧
  (∀ (c : Part) (m : Move), c.sound → c.move? m.num = some m → m.granted = false →
    let d := c.cancelMove m .cancelMove
    d.mv.moves = c.mv.moves.filter (fun k => k.num ≠ m.num) ∧
    (∀ n r l, m.reticle = some n → c.rec? n = some r → r.state = .reserved → r.place = .loc l →
      d.rec? n = some { r with state := if l < 960 then .idle else .returned, job := none }) ∧
    (m.owner = .relocate →
      d.out = c.out ++ [Subject.relocateDone m.num m.reticle m.src m.dst (.cancelled .cancelMove)]) ∧
    (∀ tag, m.owner = .pass tag → d.out = c.out ++ [Subject.passMove tag m.num (.cancelled .cancelMove)]) ∧
    (∀ j k r st, m.owner = .step j k → c.job? j = some r → r.steps[k]? = some st → st.state ≠ .ended →
      ∃ a : List Subject, d.out = c.out ++
        Subject.stepResult j (k + 1) .cancelled (m.reticle <|> c.stepReticle st.work) :: a) ∧
    (∀ p r, m.owner = .portReturn p → m.src = some (960 + p) → p < 8 → m.kind = .store →
      (c.port p).ret = some r → r.move = some m.num →
      (d.port p).ret = some { r with move := none } ∧ Sig.handle p ∈ d.work)) ∧
  (∀ (c : Part) (x : Side) (a p : Nat), c.sound → p < 18 → (c.planOf a).kind = .robot →
    (c.planOf a).assignment = x.index →
    let r := c.robot x
    let d := c.deliverReport a (.position p)
    let ends : RobotState → RobotState := fun s => if r.state = .disabled then .disabled else s
    (r.yieldTo = none → d.robot x = r ∧ d.out = c.out ++ [Subject.moveFault x none (some .position) .lateReport]) ∧
    (∀ t i, r.yieldTo = some t → r.held = some i →
      (i.1 ≤ p → p ≤ i.2 → d.out = c.out ∧
        d.robot x = { r with state := ends .idle, span := some p, held := some (p, p), yieldTo := none }) ∧
      (p < i.1 ∨ i.2 < p → d.out = c.out ++ [Subject.moveFault x none none .position] ∧
        d.robot x = { r with state := ends .suspect, yieldTo := none }))) ∧
  ∀ (c : Part) (x : Side) (a p kind : Nat) (read : Read), c.sound → p < 18 → (c.planOf a).kind = .robot →
    (c.planOf a).assignment = x.index →
    let r := c.robot x
    let e := c.readAt (handOf x) read (kind % 4) none
    let d := c.orderData a ⟨.handSnapshot, none⟩ (.hand p read kind)
    let inside : Prop := ∃ i, r.held = some i ∧ i.1 ≤ p ∧ p ≤ i.2
    let free : Prop := e.occ (handOf x) = .vacant
    let told : RobotState → FaultCause → Prop := fun s k =>
      d.robot x = { r with state := s, awaited := false } ∧ d.out = e.out ++ [Subject.moveFault x none none k]
    (r.state = .suspect →
      (r.held ≠ none → ¬inside → told .suspect .position) ∧
      (r.held = none ∨ inside → ¬free → told .suspect .handOccupied) ∧
      (free → inside ∨ (r.held = none ∧ e.clearFor x (p, p) = true) →
        (∃ l, d.robot x = { r with
          state := .idle, span := some p, held := some (p, p), awaited := false, recovery := l }) ∧
        d.out.getLast? = some (.robotRecovered x) ∧
        (∀ l rest, r.recovery = l :: rest → l < 968 → (960 ≤ l → (c.portCfg (l - 960)).inPlan = true) →
          c.ctl.mode.admits = true → c.mv.moves.length < 16 →
          ∃ m ∈ d.mv.moves, m.kind = .scan ∧ m.dst = some l ∧ m.owner = .robot x ∧ m.granted = false)) ∧
      (∀ s, free → r.held = none → e.clearFor x (p, p) = false → (c.robot x.other).span = some s →
        (d.robot x).state = .yielding ∧ (d.robot x).span = some p ∧ (d.robot x).held = none ∧
        d.out.getLast? = some (.robotRecovered x))) ∧
    (r.state = .idle → r.held ≠ none →
      (inside → free → d.robot x = { r with awaited := false } ∧ d.out = e.out) ∧
      (inside → ¬free → told .suspect .handOccupied) ∧ (¬inside → told .suspect .position))

/-- SET_WATCH writes one entry, its range base aligned and its match flag kept, and answers the entry as stored, for
every match kind, qualifier and enable (R139, R193); its refusals, a code of no set
ahead of the ranges by the model's order of checks (assumption 7); CLEAR_WATCH_FLAGS clears the four
flags and the last hold, and changes no entry and no move (R147). -/
def Obligations.WatchRequests : Prop :=
  ∀ (s : State) (tag i : Nat) (a : WatchArgs), s.listens = true → s.mode.admits = true →
    let known : Prop := a.kind < 3 ∧ a.qual < 3 ∧ a.enable < 3
    let fits : Prop := (a.kind = 0 ∧ idOk a.id = true) ∨
      (a.kind = 1 ∧ (a.len = 1 ∨ a.len = 2 ∨ a.len = 4 ∨ a.len = 8) ∧ a.base < 960) ∨ (a.kind = 2 ∧ a.port < 8)
    let refused : Result → Prop := fun r => exec (.setWatch tag i a) s = .next (s.refuses 0x40 tag r)
    (∀ (old : WatchEntry) (mt : WatchMatch) (q : WatchQual) (en : WatchEnable), i < 4 →
      s.part.watch.entries[i]? = some old → fits →
      (a.kind = 0 ∧ mt = .reticle a.id) ∨ (a.kind = 1 ∧ mt = .range (a.base / a.len * a.len) a.len) ∨
        (a.kind = 2 ∧ mt = .port a.port) →
      (a.qual = 0 ∧ q = .before) ∨ (a.qual = 1 ∧ q = .after) ∨ (a.qual = 2 ∧ q = .both) →
      (a.enable = 0 ∧ en = .off) ∨ (a.enable = 1 ∧ en = .global) ∨
        (a.enable = 2 ∧ a.job < 16 ∧ (∃ j, s.part.job? a.job = some j) ∧ en = .job a.job) →
      exec (.setWatch tag i a) s = .next (s.concludes (s.part.setWatchEntry i ⟨mt, q, en, old.flag⟩) 0 0x40 tag
        (Rsp.ok (.watchEntry ⟨mt, q, en, old.flag⟩)))) ∧
    (4 ≤ i → refused .badIndex) ∧
    (i < 4 → ¬known → refused .badRequest) ∧
    (i < 4 → known → a.kind = 0 → idOk a.id = false → refused .badRequest) ∧
    (i < 4 → known → a.kind = 1 → a.len ≠ 1 → a.len ≠ 2 → a.len ≠ 4 → a.len ≠ 8 → refused .badLength) ∧
    (i < 4 → known → a.kind = 1 → a.len = 1 ∨ a.len = 2 ∨ a.len = 4 ∨ a.len = 8 → 960 ≤ a.base →
      refused .badIndex) ∧
    (i < 4 → known → a.kind = 2 → 8 ≤ a.port → refused .badIndex) ∧
    (i < 4 → known → fits → a.enable = 2 → 16 ≤ a.job → refused .badIndex) ∧
    (i < 4 → known → fits → a.enable = 2 → a.job < 16 → s.part.job? a.job = none → refused .wrongState) ∧
    exec (.clearWatchFlags tag) s = .next (s.concludes
      { s.part with watch := ⟨s.part.watch.entries.map fun w => { w with flag := false }, none⟩ } 0 0x43 tag
      (Rsp.ok .none))

/-- The Watch Unit's evaluations. An entry counts for a move by its enable (R140). At admission the move is HELD exactly
when a counting entry of qualifier BEFORE or BOTH matches it, and then every matching entry is flagged, the last hold is
the move's number and WATCH_HOLD names the matching entries (R141, R142). At a completed placement with a counting match
of qualifier AFTER or BOTH every matching entry is flagged and WATCH_SEEN names them; without one nothing changes
(R143). As a job ends, with whatever outcome, the entries enabled by it become OFF, and nothing else of the Watch Unit
changes (R140). -/
def Obligations.WatchEvaluations : Prop :=
  ∀ (c : Part) (m : Move),
    let counts : WatchEntry → Prop := fun w => w.enable = .global ∨ ∃ j k, w.enable = .job j ∧ m.owner = .step j k
    let carries : RetId → Prop := fun x => ∃ n r, m.reticle = some n ∧ c.rec? n = some r ∧ r.id = x
    let before : WatchEntry → Prop := fun w => w.qual ≠ .after ∧ match w.mtch with
      | .reticle x => carries x
      | .range b n => ∃ l, (if m.kind = .scan then m.dst else m.src) = some l ∧ l < 960 ∧ b ≤ l ∧ l < b + n
      | .port p => m.dst = some (960 + p)
    let later : WatchEntry → Prop := fun w => w.qual ≠ .before ∧ match w.mtch with
      | .reticle x => carries x
      | .range b n => ∃ l, m.dst = some l ∧ l < 960 ∧ b ≤ l ∧ l < b + n
      | .port p => m.src = some (960 + p)
    let seen := fun id => c.watchSeen m id (c.afterHits m)
    (c.watchHolds m = true ↔ ∃ w ∈ c.watch.entries, counts w ∧ before w) ∧
    (∃ hits, (c.watchHold m).out = c.out ++ [Subject.watchHold m.num m.kind m.robot m.reticle (c.moveId m) m.src m.dst m.owner
        hits] ∧ (∀ i : Nat, i ∈ hits ↔ ∃ w, c.watch.entries[i]? = some w ∧ before w)) ∧
    (c.watchHold m).watch.lastHold = some m.num ∧
    (∀ (i : Nat) (w : WatchEntry), c.watch.entries[i]? = some w → ∃ v, (c.watchHold m).watch.entries[i]? = some v ∧
      (before w → v = { w with flag := true }) ∧ (¬before w → v = w)) ∧
    (∀ id, (¬∃ w ∈ c.watch.entries, counts w ∧ later w) → seen id = c) ∧
    (∀ id, (∃ w ∈ c.watch.entries, counts w ∧ later w) →
      (seen id).watch.lastHold = c.watch.lastHold ∧
      (∃ hits, (seen id).out = c.out ++ [Subject.watchSeen m.num m.kind m.robot m.reticle id m.src m.dst m.passed hits] ∧
        (∀ i : Nat, i ∈ hits ↔ ∃ w, c.watch.entries[i]? = some w ∧ later w)) ∧
      (∀ (i : Nat) (w : WatchEntry), c.watch.entries[i]? = some w → ∃ v, (seen id).watch.entries[i]? = some v ∧
        (later w → v = { w with flag := true }) ∧ (¬later w → v = w))) ∧
    (∀ j o b, c.job? j = some b →
      let d := c.endJob j o
      d.watch.lastHold = c.watch.lastHold ∧ d.watch.entries.length = c.watch.entries.length ∧
      ∀ (i : Nat) (w : WatchEntry), c.watch.entries[i]? = some w →
        (w.enable = .job j → d.watch.entries[i]? = some { w with enable := .off }) ∧
        (w.enable ≠ .job j → d.watch.entries[i]? = some w))

/-! ### The load window and the stored image -/

/-- LOAD_OPEN, LOAD_DISCARD, LOAD_ENTRY and LOAD_COMMIT where they are taken, for a table that the mode admits (R173,
R175): the window opens on a copy, an entry is written as its table stores it with OK or CLAMPED, a shadow that
validates becomes live under the next generation, one that does not is refused with its lowest offending index. A commit
makes the shadow the live table, leaves the six others live, and counts its own generation up by one. -/
def Obligations.WindowRequests : Prop :=
  (∀ (s : State) (tag code : Nat) (t : TableId), s.listens = true → s.mode ≠ .start → tableOfCode code = some t →
    (s.mode = .failSafe → t.opensInFailSafe = true) →
    (s.part.window = none → exec (.loadOpen tag code) s = .next (s.concludes
      { s.part with window := some ⟨s.part.tables.copy t, ((s.part.gens.getD t.code 0) + 1) % 65536⟩ } 0 0x60 tag
      (Rsp.ok (.number (((s.part.gens.getD t.code 0) + 1) % 65536))))) ∧
    (s.part.window ≠ none → exec (.loadOpen tag code) s = .next (s.refuses 0x60 tag .windowBusy)) ∧
    exec (.loadDiscard tag) s = .next (s.concludes { s.part with window := none } 0 0x63 tag (Rsp.ok .none)) ∧
    (∀ w, s.part.window = some w → w.shadow.table = t →
      (∀ (i : Nat) (e stored : List Byte) (sh : Shadow) (clamped : Bool), indexOk t i = true →
        e.length = entryLength t i → w.shadow.write i e = some (sh, stored, clamped) →
        exec (.loadEntry tag code i e) s = .next (s.concludes { s.part with window := some ⟨sh, w.gen⟩ } 0 0x61 tag
          ⟨if clamped then .clamped else .ok, false, .entry stored⟩)) ∧
      (s.mode.commits t = true → s.image.writing = none → s.part.badShadow w.shadow = none →
        let c := { s.part with window := none }.commit w.shadow
        exec (.loadCommit tag code) s = .next (s.concludes c 0 0x62 tag (Rsp.ok (.number (c.gens.getD t.code 0))))) ∧
      (∀ i, s.mode.commits t = true → s.image.writing = none → s.part.badShadow w.shadow = some i →
        exec (.loadCommit tag code) s =
          .next (s.concludes s.part 0 0x62 tag ⟨.commitRefused, false, .number i⟩)))) ∧
  ∀ (c : Part) (sh : Shadow), c.gens.length = 7 →
    (c.commit sh).tables.copy sh.table = sh ∧
    (∀ t, t ≠ sh.table → (c.commit sh).tables.copy t = c.tables.copy t) ∧
    (c.commit sh).gens = c.gens.set sh.table.code ((c.gens.getD sh.table.code 0 + 1) % 65536)

/-- What LOAD_ENTRY writes into a shadow, table by table, and what it refuses, and what a commit's validation refuses.
Each entry is read from the bytes of the formats chapter. A calibration offset above 4095 is taken as 4095 (R2), a
column above 15 as 15 (R3), a manifold above 63 as 63 with the channel in two bits, the scheduling entry brought into
its ranges (R60), a credit above 4095 taken as 4095 (R50), a limits field brought into its range (R54, R116, R174), a port
assignment above 7 as 7 and a column assignment above 15 as 15, the side in one bit and none for a manifold (R149), and
a filter entry as it is (R171); the answer is clamped exactly where a value was changed, the entry as stored goes back,
and no other entry changes (R173, R193). That a yes-or-no limits field above 1 is stored as 1 is assumption 49. A kind
code or a MANUAL_PORT of no code is BAD_REQUEST, an index outside the table BAD_INDEX (of a zone table entry with the 3
bytes of a zone, the model's choice of assumption 70), and a window that is closed or
open for another table NO_WINDOW. Validation names the lowest offending index: of the slot map and the port table (R4),
the zone table (R61), the limits (R54, R116) and the node plan (R150; of two entries with one assignment both offend,
the reading of assumption 31); the class and filter tables have none. -/
def Obligations.ShadowEntries : Prop :=
  (∀ (b : List Byte) (i : Nat),
    let f := field b
    let bit := bitAt b
    let kinds : BitVec 4 → Prop := fun w => ∀ k < 4, w.getLsbD k = bit 0 k
    (∀ t : Store SlotCfg, Store.rising t = true → ∃ t' w,
      let e : SlotCfg := ⟨bit 0 7, min 4095 (f 1 2), w⟩
      kinds w ∧ (Shadow.slotMap t).write i b = some (.slotMap t', e.encode, decide (4095 < f 1 2)) ∧
      Store.getD SlotCfg.default t' i = e ∧ ∀ k, k ≠ i → Store.getD SlotCfg.default t' k = Store.getD SlotCfg.default t k) ∧
    (∀ t : Store PortCfg, Store.rising t = true → ∃ t' w,
      let e : PortCfg := ⟨bit 0 7, min 15 (f 1 1), bit 0 6, w⟩
      kinds w ∧ (Shadow.port t).write i b = some (.port t', e.encode, decide (15 < f 1 1)) ∧
      Store.getD PortCfg.default t' i = e ∧ ∀ k, k ≠ i → Store.getD PortCfg.default t' k = Store.getD PortCfg.default t k) ∧
    (∀ t : ZoneTable, Store.rising t.zones = true →
      (i < 16 → ∃ t', let e : ZoneCfg := ⟨bit 0 0, min 63 (f 1 1), f 2 1 % 4⟩
        (Shadow.zone t).write i b = some (.zone { t with zones := t' }, e.encode, decide (63 < f 1 1)) ∧
        Store.getD ZoneCfg.default t' i = e ∧ ∀ k, k ≠ i → Store.getD ZoneCfg.default t' k = Store.getD ZoneCfg.default t.zones k) ∧
      (i = 16 → let e : SchedCfg := ⟨max 1 (f 0 1), max 10 (min 900 (f 1 2)), max 1 (min 4 (f 3 1))⟩
        (Shadow.zone t).write i b = some (.zone { t with sched := e }, e.encode,
          decide (f 0 1 = 0 ∨ f 1 2 < 10 ∨ 900 < f 1 2 ∨ f 3 1 = 0 ∨ 4 < f 3 1)))) ∧
    (∀ t : List ClassCfg, let e : ClassCfg := ⟨f 0 1, min 4095 (f 1 2)⟩
      (Shadow.cls t).write i b = some (.cls (t.set i e), e.encode, decide (4095 < f 1 2))) ∧
    (∀ t : Limits, let v := f 0 2
      let gives : Limits → Nat → Prop := fun t' x =>
        (Shadow.limits t).write i b = some (.limits t', toBytes 2 x, decide (x ≠ v))
      (i = 0 → gives { t with eWarn := v } v) ∧ (i = 1 → gives { t with eHold := v } v) ∧
      (i = 2 → (v < 8 → gives { t with manualPort := some v } v) ∧ (v = 255 → gives { t with manualPort := none } v) ∧
        (8 ≤ v → v ≠ 255 → (Shadow.limits t).write i b = none)) ∧
      (i = 3 → gives { t with disableA := decide (v ≠ 0) } (min 1 v)) ∧
      (i = 4 → gives { t with disableB := decide (v ≠ 0) } (min 1 v)) ∧
      (i = 5 → gives { t with clearSpans := min 2 v } (min 2 v)) ∧
      (i = 6 → gives { t with moveTimeout := max 10 (min 600 v) } (max 10 (min 600 v))) ∧
      (i = 7 → gives { t with stepWaitMax := min 3600 v } (min 3600 v)) ∧
      (i = 8 → gives { t with rollRetry := max 2 (min 60 v) } (max 2 (min 60 v))) ∧
      (i = 9 → gives { t with linkSilence := max 5 (min 255 v) } (max 5 (min 255 v))) ∧
      (i = 10 → gives { t with standaloneOnSilence := decide (v ≠ 0) } (min 1 v))) ∧
    (∀ t : Store PlanEntry, Store.rising t = true →
      (4 < f 0 1 → (Shadow.plan t).write i b = none) ∧
      ∀ k, (f 0 1, k) ∈ [(0, .none), (1, .robot), (2, .port), (3, .manifold), (4, NodeKind.shelf)] → ∃ t',
        let e : PlanEntry := ⟨k, f 1 2, match k with
          | .robot => f 3 1 % 2
          | .port => min 7 (f 3 1)
          | .shelf => min 15 (f 3 1)
          | .manifold | .none => 0⟩
        (Shadow.plan t).write i b = some (.plan t', e.encode,
          decide ((k = .port ∧ 7 < f 3 1) ∨ (k = .shelf ∧ 15 < f 3 1))) ∧
        Store.getD PlanEntry.default t' i = e ∧
        ∀ a, a ≠ i → Store.getD PlanEntry.default t' a = Store.getD PlanEntry.default t a) ∧
    (∀ t : List FilterCfg, let e : FilterCfg := ⟨bit 0 0, bit 0 1⟩
      (Shadow.filter t).write i b = some (.filter (t.set i e), e.encode, false))) ∧
  (∀ (s : State) (tag code i : Nat) (t : TableId) (b : List Byte), s.listens = true → s.mode ≠ .start →
    tableOfCode code = some t → (s.mode = .failSafe → t.opensInFailSafe = true) → b.length = entryLength t i →
    let refused : Result → Prop := fun r => exec (.loadEntry tag code i b) s = .next (s.refuses 0x61 tag r)
    let inTable : Prop := match t with
      | .slotMap => i < 960
      | .port => i < 8
      | .zone => i < 17
      | .cls => i < 4
      | .limits => i < 11
      | .plan => 1 ≤ i ∧ i ≤ 63
      | .filter => i < 7
    ((∀ w, s.part.window = some w → w.shadow.table ≠ t) → refused .noWindow) ∧
    ∀ w, s.part.window = some w → w.shadow.table = t → (¬inTable → refused .badIndex) ∧
      (inTable → w.shadow.write i b = none → refused .badRequest)) ∧
  ∀ c : Part,
    let finds : Shadow → (Nat → Prop) → Prop := fun sh bad => (c.badShadow sh = none ↔ ∀ i, ¬bad i) ∧
      ∀ i, c.badShadow sh = some i ↔ bad i ∧ ∀ k < i, ¬bad k
    (∀ t : Store SlotCfg, Store.rising t = true → finds (.slotMap t) fun l =>
      let old := c.slotCfg l
      let new := Store.getD SlotCfg.default t l
      (old.enabled = true ∧ new.enabled = false ∧ c.occ l ≠ .vacant) ∨
      ∃ n r, ((∃ v, c.occ l = .occupied n v ∨ c.occ l = .outbound n v) ∨ c.occ l = .inbound n) ∧ c.rec? n = some r ∧
        accepts old.kinds r.kind = true ∧ accepts new.kinds r.kind = false) ∧
    (∀ t : Store PortCfg, finds (.port t) fun p =>
      let old := c.portCfg p
      let new := Store.getD PortCfg.default t p
      p < 8 ∧ (((c.port p).active ≠ none ∧ old.column ≠ new.column) ∨ (old.inPlan = true ∧ new.inPlan = false ∧
        ((c.port p).active ≠ none ∨ (c.port p).queue ≠ [] ∨ c.occ (960 + p) ≠ .vacant)))) ∧
    (∀ t : ZoneTable, finds (.zone t) fun z =>
      (z < 16 ∧ (c.zone z).pass ≠ none ∧ Store.getD ZoneCfg.default t.zones z ≠ c.zoneCfg z) ∨
      (z = 16 ∧ t.sched.concurrency < ((List.range 16).filter fun y => (c.zone y).pass.isSome).length)) ∧
    (∀ t : List ClassCfg, c.badShadow (.cls t) = none) ∧ (∀ t : List FilterCfg, c.badShadow (.filter t) = none) ∧
    (∀ t : Limits, let engaged : Side → Prop := fun x => (c.robot x).state = .busy ∨ (c.robot x).state = .yielding
      finds (.limits t) fun i =>
        (i = 0 ∧ t.eHold ≤ t.eWarn) ∨
        (i = 3 ∧ t.disableA = true ∧ c.limits.disableA = false ∧ engaged .a) ∨
        (i = 4 ∧ t.disableB = true ∧ c.limits.disableB = false ∧ engaged .b) ∨
        (i = 5 ∧ ∃ j k, (c.robot .a).held = some j ∧ (c.robot .b).held = some k ∧ j ≠ (0, 0) ∧ k ≠ (17, 17) ∧
          k.1 < j.2 + t.clearSpans + 1)) ∧
    ∀ t : Store PlanEntry, Store.rising t = true → finds (.plan t) fun a =>
      let at_ := Store.getD PlanEntry.default t
      let old := c.planOf a
      1 ≤ a ∧ a ≤ 63 ∧
      ((((at_ a).kind = .robot ∨ (at_ a).kind = .port ∨ (at_ a).kind = .shelf) ∧
          ∃ y, y ≠ a ∧ (at_ y).kind = (at_ a).kind ∧ (at_ y).assignment = (at_ a).assignment) ∨
        ((at_ a).kind = .manifold ∧ 8 ≤ ((List.range a).filter fun y => (at_ y).kind = .manifold).length) ∨
        (at_ a ≠ old ∧
          ((∃ x : Side, old.kind = .robot ∧ old.assignment = x.index ∧
              ((c.robot x).state = .busy ∨ (c.robot x).state = .yielding)) ∨
            (old.kind = .manifold ∧ ∃ z < 16, (c.zoneCfg z).manifold = a ∧ (c.zone z).pass ≠ none))))

/-- What the owners do as a commit makes a table live, in the event of the commit. The slot map: slot available exactly
where it enables a VACANT slot (R4, R16). The port table: an ACTIVE RETURN job of a port turned AUTO ends, at once where
no step of it is in progress (R89), and nothing else changes. The class table: every unprotected record is settled at the
old rates first, with EXPOSURE by R52, and no protected one (R50). The limits: EXPOSURE for every record whose stored E is
at or above the new E_HOLD, with its notice, and no account settled (R54); a robot that becomes disabled is DISABLED, with
the interval R116 gives, its YIELD_TO queued where its node is PRESENT, and its moves looked at again; one enabled is
YIELDING on its park travel, and else IDLE or LOST (assumption 32), with its interval; any other robot stays as it is. The
zone table: the timers start and stop, the supply fault is evaluated where the channel changed, all else of a zone stays,
a mark it earned before too (the model's choice, assumption 69), with ZONE_DISABLED, ZONE_RESTORED, the accounts of its
reticles and slot available as its standing changes (R46, R61, R64, R66). The node plan: a changed address that was
planned loses its entry, its robot LOST, its port's window empty and its column without hints where it was PRESENT (R6,
R107, R131, R158), with no NODE_LOST; a newly planned one is ABSENT with its roll-call pending and no express for its port
(R150, R153); an entry that stays is as it was but for orders behind its own. -/
def Obligations.CommitEffects : Prop :=
  ∀ c : Part, c.sound →
    (∀ t, let d := c.commit (.slotMap t)
      d.inv = c.inv ∧ d.zones = c.zones ∧ d.jobs = c.jobs ∧ d.mv = c.mv ∧ d.bus = c.bus ∧ d.out = c.out ∧
      (Sig.slotAvailable ∈ d.work ↔ Sig.slotAvailable ∈ c.work ∨ ∃ l < 960, c.occ l = .vacant ∧
        (c.slotCfg l).enabled = false ∧ (Store.getD SlotCfg.default t l).enabled = true)) ∧
    (∀ t, let d := c.commit (.port t)
      let turned : Nat → Nat → Job → Prop := fun p j r => p < 8 ∧ (c.port p).active = some j ∧ c.job? j = some r ∧
        r.kind = .ret ∧ (c.portCfg p).directed = true ∧ (Store.getD PortCfg.default t p).directed = false
      ((∀ p j r, ¬turned p j r) → d.inv = c.inv ∧ d.zones = c.zones ∧ d.jobs = c.jobs ∧ d.mv = c.mv ∧ d.bus = c.bus ∧
        d.out = c.out ∧ d.work = c.work) ∧
      ∀ p j r, turned p j r → r.port = p → r.cancel = false → (∀ st ∈ r.steps, st.state = .pending ∨ st.state = .ended) →
        (∀ m ∈ c.mv.moves, ∀ k, m.owner ≠ .step j k) →
        d.job? j = none ∧ (d.port p).active = none ∧ ∃ n, Subject.jobEnded j p .ret .cancelled n ∈ d.out) ∧
    (∀ t, let d := c.commit (.cls t)
      ∀ n r, c.rec? n = some r → ∃ r', d.rec? n = some r' ∧ (r.stamp = none → r' = r) ∧
        (r.stamp ≠ none →
          let q := r.accrue c.now (c.tables.classes.getD r.cls ⟨0, 0⟩).rate
          r'.id = r.id ∧ r'.place = r.place ∧ r'.e = q.e ∧ r'.frac = q.frac ∧ r'.stamp = q.stamp ∧
          r'.operator = r.operator ∧ r'.mismatch = r.mismatch ∧
          (r'.exposure = true ↔ r.exposure = true ∨ c.limits.eHold ≤ q.e))) ∧
    (∀ t : Limits, let d := c.commit (.limits t)
      (∀ n r, c.rec? n = some r → ∃ r', d.rec? n = some r' ∧ r'.id = r.id ∧ r'.place = r.place ∧ r'.e = r.e ∧
        r'.frac = r.frac ∧ r'.stamp = r.stamp ∧ r'.operator = r.operator ∧ r'.mismatch = r.mismatch ∧
        (r'.exposure = true ↔ r.exposure = true ∨ t.eHold ≤ r.e) ∧
        (r.exposure = false → t.eHold ≤ r.e → ∃ st, Subject.holdChanged n .exposure true st ∈ d.out)) ∧
      ∀ x : Side,
        let was : Bool := match x with | .a => c.limits.disableA | .b => c.limits.disableB
        let off : Bool := match x with | .a => t.disableA | .b => t.disableB
        let r := c.robot x
        let q := d.robot x
        (was = off → q = r) ∧
        (was = false → off = true → q.state = .disabled ∧ q.span = r.span ∧ Sig.robots ∈ d.work ∧
          (c.robotPresent x = false → q.held = some (x.park, x.park) ∧ q.yieldTo = none) ∧
          (c.robotPresent x = true → q.yieldTo = some (x.park, c.now + t.moveTimeout) ∧
            (∀ i, r.state = .suspect → r.held = some i → q.held = some (min i.1 x.park, max i.2 x.park)) ∧
            (∀ l, r.span = some l → r.state ≠ .suspect ∨ r.held = none →
              q.held = some (min l x.park, max l x.park)) ∧
            ∀ a n, c.robotAddr x = some a → (c.planOf a).kind ≠ .none → c.node? a = some n → ∃ n' : Node, d.node? a = some n' ∧
              ∃ u v : List QOrder, n'.queue = n.queue ++ u ++ ⟨.yieldTo x.park, none⟩ :: v)) ∧
        (was = true → off = false → q = { r with
          state := if r.yieldTo ≠ none then .yielding else if c.robotPresent x then .idle else .lost })) ∧
    (∀ t : ZoneTable, let d := c.commit (.zone t)
      ∀ z < 16, let r := c.zone z
        let old := c.zoneCfg z
        let new := Store.getD ZoneCfg.default t.zones z
        let usable : Prop := new.manifold ≠ 0 ∧ ∃ n k, c.node? new.manifold = some n ∧ n.state = .present ∧
          n.kind = .manifold ∧ n.caps = some k ∧ new.channel < k.channels
        let dis : ZoneCfg → Bool → Prop := fun g f => g.enabled = true ∧ (r.failures = 2 ∨ f = true)
        ∃ fault : Bool, d.zone z = { r with
            timer := if new.enabled = old.enabled then r.timer
              else if new.enabled then some (c.now + 60 * t.sched.tInt) else none
            supplyFault := fault } ∧
          (new.manifold = old.manifold → new.channel = old.channel → fault = r.supplyFault) ∧
          (new.manifold ≠ old.manifold ∨ new.channel ≠ old.channel → (fault = true ↔ ¬usable)) ∧
          (dis new fault → ¬dis old r.supplyFault → Subject.zoneDisabled z (r.failures == 2) fault ∈ d.out) ∧
          (¬dis new fault → dis old r.supplyFault → Subject.zoneRestored z ∈ d.out) ∧
          (∀ l < 960, l / 60 = z → old.enabled = false → new.enabled = true → c.occ l = .vacant →
            (c.slotCfg l).enabled = true → (c.flagsOf l).any = false → Sig.slotAvailable ∈ d.work) ∧
          (c.agrees → ∀ l n q, l < 960 → l / 60 = z → (c.occ l).resident = some n → c.rec? n = some q →
            (c.protective z = true → d.protective z = false → q.stamp = none →
              ∃ q', d.rec? n = some q' ∧ q'.stamp = some c.now ∧ q'.e = q.e ∧ q'.frac = q.frac) ∧
            (c.protective z = false → d.protective z = true → (c.flagsOf l).sealed = false →
              let p := q.accrue c.now (c.tables.classes.getD q.cls ⟨0, 0⟩).rate
              ∃ q', d.rec? n = some q' ∧ q'.stamp = none ∧ q'.e = p.e ∧ q'.frac = p.frac))) ∧
    (∀ t : Store PlanEntry, let d := c.commit (.plan t)
      let new := Store.getD PlanEntry.default t
      let leaves : Nat → Prop := fun a => 1 ≤ a ∧ a ≤ 63 ∧ new a ≠ c.planOf a ∧
        ∃ n, c.node? a = some n ∧ n.state = .present
      (∀ a, 1 ≤ a → a ≤ 63 →
        (∀ n, new a = c.planOf a → (new a).kind ≠ .none → c.node? a = some n → n.state ≠ .unexpected →
          ∃ v, d.node? a = some { n with queue := n.queue ++ v }) ∧
        (new a ≠ c.planOf a → (c.planOf a).kind ≠ .none → (new a).kind = .none → d.node? a = none) ∧
        (new a ≠ c.planOf a → (new a).kind ≠ .none → (∃ v, d.node? a =
            some ⟨(new a).kind, (new a).identity, none, .absent, 0, false, false, v, true, true, false⟩) ∧
          ((new a).kind = .port → (d.port (new a).assignment).express = false))) ∧
      (∀ a, leaves a → ∀ x : Side, (c.planOf a).kind = .robot → (c.planOf a).assignment = x.index →
        (d.robot x).state = if (c.robot x).state = .disabled then .disabled else .lost) ∧
      (∀ a, leaves a → (c.planOf a).kind = .port → (∀ b, leaves b → ∀ x : Side, (c.planOf b).kind = .robot →
          (c.planOf b).assignment = x.index → c.currentOf x = none) →
        (d.port (c.planOf a).assignment).window = []) ∧
      (∀ a l, leaves a → (c.planOf a).kind = .shelf → l / 60 = (c.planOf a).assignment → d.hint l = .missing) ∧
      ∀ a k, Subject.nodeLost a k ∈ d.out → Subject.nodeLost a k ∈ c.out) ∧
    ∀ t, let d := c.commit (.filter t)
      d = { c with tables := { c.tables with filter := t }, gens := d.gens }

/-- STORE_IMAGE begins a write of the live tables, RELOAD_IMAGE and RESTORE_DEFAULTS make seven tables live or are
refused with the table and index at fault, a reload also setting IMAGE_BAD by the image's check, which it does even
where the commit is refused (R187 to R189; the refused case is the model's choice, assumption 10); at the end of a write
with no reset deferred the image holds the copy taken at its beginning, or contents that nothing fixes (the free value
of assumption 1), IMAGE_BAD follows, the notice is queued and no write is in progress. -/
def Obligations.ImageRequests : Prop :=
  ∀ (s : State) (tag : Nat), s.listens = true → s.image.writing = none →
    (s.mode.admits = true → ∃ t, exec (.storeImage tag) s = .next t ∧
      t.image = { s.image with writing := some (s.part.tables, s.part.gens) } ∧
      t.owed = s.owed ++ [⟨0, 0x64, tag, Rsp.ok .none⟩]) ∧
    (s.mode = .maintenance → s.part.window = none → imageGood s.image.bytes = true →
      let c := s.part.setImageBad false
      exec (.reloadImage tag) s = .next (match s.part.badTables (imageTables s.image.bytes) with
        | none =>
          let d := c.commitAll (imageTables s.image.bytes)
          s.concludes d 0 0x65 tag (Rsp.ok (.gens d.gens))
        | some (k, i) => s.concludes c 0 0x65 tag ⟨.commitRefused, false, .refused k i⟩)) ∧
    (s.mode = .maintenance → s.part.window = none → imageGood s.image.bytes = false →
      exec (.reloadImage tag) s = .next
        (s.concludes (s.part.setImageBad true) 0 0x65 tag (Rsp.code .wrongState))) ∧
    (s.mode = .maintenance → s.part.window = none →
      exec (.restoreDefaults tag) s = .next (match s.part.badTables Tables.default with
        | none =>
          let d := s.part.commitAll Tables.default
          s.concludes d 0 0x66 tag (Rsp.ok (.gens d.gens))
        | some (k, i) => s.concludes s.part 0 0x66 tag ⟨.commitRefused, false, .refused k i⟩)) ∧
    (∀ ok g w, exec (.imageWriteDone ok) { s with image := ⟨s.image.bytes, some (w, g), false, s.image.broken⟩ } =
      .next (State.finish { s with
        part := { s.part with
          ctl := { s.part.ctl with imageBad := !ok }
          out := s.part.out ++ [if ok then Subject.imageStored g else .imageWriteFailed] }
        image := if ok then ⟨encodeImage w g, none, false, s.image.broken⟩
          else ⟨Config.brokenImage s.image.broken, none, false, s.image.broken + 1⟩ }))

/-- The image of tables in range passes its check and gives back the tables and the generations it was made of (R187,
R188). -/
def Obligations.ImageRoundTrip : Prop :=
  ∀ (t : Tables) (gens : List Nat), t.inRange → gens.length = 7 → (∀ g ∈ gens, g < 65536) →
    imageGood (encodeImage t gens) = true ∧ imageTables (encodeImage t gens) = t ∧
    imageGens (encodeImage t gens) = gens

/-! ### Modes, resets and requests of no known kind -/

/-- The requests of the modes where they are taken (R179, R180, R182, R184, R186); the return of each port is
handled again as NORMAL or MAINTENANCE is entered (R101), and an option byte of EXIT_STANDALONE above 1 is refused (R193).
A pending standalone entry completes in the first event in which every required zone carries its mark (R77, R180): the
mode in force becomes the return mode, the load window is discarded, and MODE_CHANGE stands ahead of the notices of the
event (R177). That the completion comes ahead of all that is left to be done in that event is the model's choice
(assumption 14), and so is WINDOW_DISCARDED right behind MODE_CHANGE (assumption 64). -/
def Obligations.ModeRequests : Prop :=
  (∀ (s : State) (tag : Nat), s.listens = true →
    (s.mode = .normal → exec (.enterMaintenance tag) s = .next (s.concludes
      (Part.resume { s.part with
        ctl := { s.part.ctl with mode := .maintenance }
        out := s.part.out ++ [Subject.modeChange .maintenance .normal .request FailCauses.none none none] }) 0 0x70 tag
      (Rsp.ok .none))) ∧
    (s.mode = .maintenance → exec (.exitMaintenance tag) s = .next (s.concludes
      (Part.resume { s.part with
        ctl := { s.part.ctl with mode := .normal }
        out := s.part.out ++ [Subject.modeChange .normal .maintenance .request FailCauses.none none none] }) 0 0x71 tag
      (Rsp.ok .none))) ∧
    (s.mode = .normal ∨ s.mode = .maintenance → s.part.ctl.pending = false →
      exec (.enterStandalone tag) s = .next (s.concludes
        { s.part with ctl := { s.part.ctl with pending := true } } 0 0x72 tag (Rsp.ok .none))) ∧
    (s.mode = .normal ∨ s.mode = .maintenance → s.part.ctl.pending = true →
      exec (.enterStandalone tag) s = .next (s.refuses 0x72 tag .busy)) ∧
    (s.mode = .standalone → exec (.exitStandalone tag 0) s =
      .next (s.concludes (s.part.leaveStandalone false) 0 0x73 tag (Rsp.ok .none))) ∧
    (s.mode = .standalone → exec (.exitStandalone tag 1) s =
      .next (s.concludes (s.part.leaveStandalone true) 0 0x73 tag (Rsp.ok .none))) ∧
    (∀ a, s.mode = .standalone → 2 ≤ a →
      exec (.exitStandalone tag a) s = .next (s.refuses 0x73 tag .badRequest)) ∧
    (s.mode.admits = true → exec (.forceFailSafe tag) s = .next
      (s.concludes (s.part.enterFailSafe .forced ⟨false, false, true, false⟩) 0 0x74 tag (Rsp.ok .none))) ∧
    (s.mode = .failSafe → s.part.ctl.enclosure = false → s.part.ctl.stop = false →
      exec (.exitFailSafe tag) s = .next (s.concludes s.part.leaveFailSafe 0 0x75 tag (Rsp.ok .none))) ∧
    (s.mode = .failSafe → s.part.ctl.enclosure = true ∨ s.part.ctl.stop = true →
      exec (.exitFailSafe tag) s = .next (s.refuses 0x75 tag .interlockActive))) ∧
  ∀ c : Part,
    let required : Nat → Prop := fun z => (c.zoneCfg z).enabled = true ∧ (c.zone z).failures ≠ 2 ∧
      (c.zone z).supplyFault = false
    let complete : Prop := c.ctl.pending = true ∧ (c.ctl.mode = .normal ∨ c.ctl.mode = .maintenance) ∧
      ∀ z < 16, required z → (c.zone z).mark = true
    (¬complete → c.standaloneOnce = none) ∧
    (complete → ∃ d, c.standaloneOnce = some d ∧ c.nextAct = some d ∧ d = { c with
      ctl := { c.ctl with mode := .standalone, ret := some c.ctl.mode, pending := false }, window := none
      out := .modeChange .standalone c.ctl.mode .request FailCauses.none (some c.ctl.mode) none ::
        (c.window.toList.map fun w => .windowDiscarded w.shadow.table .standalone) ++ c.out })

/-- What the changes of mode do to the Mode Controller, the marks and the passes, the robots and the moves (R77, R136,
R182), and their notices (R177): at an entry into FAIL_SAFE MODE_CHANGE with the causes, ahead of all that the other
blocks say, after STANDALONE_CANCELLED where an entry was pending (R184); at its exit one MODE_CHANGE, and a
HAND_SNAPSHOT to each robot that is PRESENT and not already awaited (R186). The entry interrupts every dispatched move
(R136): the locations it names and its robot's hand are UNKNOWN, a SCAN leaving its location as it was, its reticle is
IN_DOUBT with no location, a BUSY or YIELDING robot is SUSPECT with its interval, a BUSY one with those locations to scan,
any other robot stays as it is, and ABORT_MOTION goes to each robot that is PRESENT. The end of START (R178), in the event
in which the enumeration of a cold or warm start ends: start interlock seen is cleared, and with IMAGE_BAD clear and no line
seen the mode is NORMAL, with START_DONE, the ports taking up their work; in every other case FAIL_SAFE is entered as
always, with the causes IMAGE_BAD, STOP and ENCLOSURE as they are set or seen, and MODE_CHANGE carries the first of them in
that order. The end of a bus reset's enumeration changes no mode. -/
def Obligations.ModeChangesAct : Prop :=
  ∀ (c : Part) (a : Bool) (cause : ModeCause) (k : FailCauses),
    let causes : FailCauses := ⟨k.enclosure || c.ctl.enclosure, k.stop || c.ctl.stop, k.forced, k.imageBad⟩
    (c.leaveStandalone a).ctl = { c.ctl with mode := c.ctl.ret.getD .normal, ret := none } ∧
    (∀ z < 16, c.sound → ((c.leaveStandalone a).zone z).mark = false ∧
      ((c.leaveStandalone a).zone z).pass = if a then none else (c.zone z).pass) ∧
    (c.leaveStandalone a).out = c.out ++
      [Subject.modeChange (c.ctl.ret.getD .normal) c.ctl.mode .request
        (if c.ctl.ret = some .failSafe then c.ctl.causes else FailCauses.none) none none] ∧
    (c.enterFailSafe cause k).ctl =
      { c.ctl with mode := .failSafe, ret := none, pending := false, causes := causes } ∧
    (∀ x : Side, ((c.enterFailSafe cause k).robot x).yieldTo = none ∧
      ((c.enterFailSafe cause k).robot x).state ≠ .busy ∧ ((c.enterFailSafe cause k).robot x).state ≠ .yielding) ∧
    (∀ m ∈ (c.enterFailSafe cause k).mv.moves, m.granted = false) ∧
    ((∀ m ∈ c.mv.moves, m.granted = false) → (c.enterFailSafe cause k).mv.moves = c.mv.moves) ∧
    (c.sound → ∀ m ∈ c.mv.moves, m.granted = true →
      (m.kind ≠ .scan → ∀ l : Nat, m.src = some l ∨ m.dst = some l → (c.enterFailSafe cause k).occ l = .unknown) ∧
      (c.enterFailSafe cause k).occ (handOf m.robot) = .unknown ∧
      ∀ (n : Nat) (r : Rec), m.reticle = some n → c.rec? n = some r → ∃ r' : Rec, (c.enterFailSafe cause k).rec? n = some r' ∧
        r'.id = r.id ∧ r'.state = .inDoubt ∧ r'.place = .none ∧ r'.job = none) ∧
    (∀ x : Side, let r : Robot := c.robot x
      let q : Robot := (c.enterFailSafe cause k).robot x
      q.held = r.held ∧ q.span = r.span ∧ q.awaited = r.awaited ∧
      (r.state = .busy ∨ r.state = .yielding → q.state = .suspect ∧ q.current = none) ∧
      (r.state ≠ .busy → r.state ≠ .yielding → q = { r with yieldTo := none }) ∧
      (∀ (m : Move) (i : Nat), r.state = .busy → r.current = some i → c.move? i = some m →
        ∀ l : Nat, l ∈ q.recovery ↔ m.kind ≠ .scan ∧ (m.src = some l ∨ m.dst = some l))) ∧
    (∀ (x : Side) (p : Nat) (n : Node), c.robotPresent x = true → c.robotAddr x = some p → c.node? p = some n →
      (c.planOf p).kind = .robot →
      ∃ n' : Node, (c.enterFailSafe cause k).node? p = some n' ∧ n'.state = n.state ∧
        ∃ u v : List QOrder, n'.queue = n.queue ++ u ++ ⟨.abortMotion, none⟩ :: v) ∧
    (∃ rest : List Subject, (c.enterFailSafe cause k).out = c.out ++
      (if c.ctl.pending then [Subject.standaloneCancelled cause] else []) ++
      Subject.modeChange .failSafe c.ctl.mode cause causes none none :: rest) ∧
    c.leaveFailSafe.ctl = { c.ctl with mode := .maintenance, causes := FailCauses.none } ∧
    c.leaveFailSafe.out = c.out ++ [Subject.modeChange .maintenance c.ctl.mode .request FailCauses.none none none] ∧
    (∀ x : Side, c.robotPresent x = false ∨ (c.robot x).awaited = true →
      (c.leaveFailSafe.robot x).awaited = (c.robot x).awaited) ∧
    (∀ (x : Side) (p : Nat) (n : Node), c.robotPresent x = true → (c.robot x).awaited = false → c.robotAddr x = some p →
      c.node? p = some n → (c.planOf p).kind = .robot → (c.leaveFailSafe.robot x).awaited = true ∧
      ∃ n' : Node, c.leaveFailSafe.node? p = some n' ∧ n'.state = n.state ∧
        ∃ u v : List QOrder, n'.queue = n.queue ++ u ++ ⟨.handSnapshot, none⟩ :: v) ∧
    let ended : ModeController := { c.ctl with seenEnclosure := false, seenStop := false }
    let seen : FailCauses := ⟨c.ctl.seenEnclosure, c.ctl.seenStop, false, c.ctl.imageBad⟩
    let q : Part := c.leaveStart
    let normal : ModeController := { ended with mode := .normal }
    (c.ctl.imageBad = false → c.ctl.seenStop = false → c.ctl.seenEnclosure = false →
      q.ctl = normal ∧ (∀ p < 8, Sig.handle p ∈ q.work ∧ Sig.attempt p ∈ q.work) ∧
      q.out = c.out ++ [Subject.modeChange .normal c.ctl.mode .startDone FailCauses.none none none]) ∧
    (∀ first : ModeCause, (c.ctl.imageBad = true ∧ first = .imageBad) ∨
        (c.ctl.imageBad = false ∧ c.ctl.seenStop = true ∧ first = .stop) ∨
        (c.ctl.imageBad = false ∧ c.ctl.seenStop = false ∧ c.ctl.seenEnclosure = true ∧ first = .enclosure) →
      let all : FailCauses :=
        ⟨seen.enclosure || c.ctl.enclosure, seen.stop || c.ctl.stop, false, seen.imageBad⟩
      let safe : ModeController := { ended with mode := .failSafe, ret := none, pending := false, causes := all }
      let left : Part := { c with ctl := ended }
      q = left.enterFailSafe first seen ∧ q.ctl = safe ∧
      ∃ rest : List Subject, q.out = c.out ++ (if c.ctl.pending then [Subject.standaloneCancelled first] else []) ++
        Subject.modeChange .failSafe c.ctl.mode first all none none :: rest) ∧
    ∀ e : EnumCause, c.bus.enum = some ⟨e, []⟩ → c.nextRoll.ctl = if e = .busReset then c.ctl else q.ctl

/-- BUS_RESET outside enumeration and SOFT_RESET with no image write in progress, and what they leave (R160, R191): the
window closed, no move dispatched, no pass in progress, an enumeration begun; after SOFT_RESET the mode START, no job, no
move, no pass in progress, an enumeration of cause WARM begun, the tables of the image, or the defaults, live, and every
waiting notice gone but its one MODE_CHANGE, which stands behind a notice in transmission, if there is one: that such a
notice stays is the model's choice (assumption 38; R80, R109, R137, R176). A SOFT_RESET during an image write is deferred;
the warm start is then made at the end of the write, from the image as the write left it, and its MODE_CHANGE carries the
write's outcome (R187, R191). -/
def Obligations.ResetRequests : Prop :=
  let warm : State → State → Option Bool → Prop := fun s t o =>
    t.part.ctl.mode = .start ∧ t.part.window = none ∧ t.part.now = s.part.now ∧ t.part.jobs.jobs = [] ∧
    t.part.mv.moves = [] ∧ (∃ e, t.part.bus.enum = some e ∧ e.cause = .warm) ∧
    (s.part.sound → ∀ z < 16, (t.part.zone z).pass = none) ∧
    t.part.tables = (startTables t.image.bytes).1 ∧ t.part.gens = (startTables t.image.bytes).2.1 ∧
    t.part.ctl.imageBad = !imageGood t.image.bytes ∧
    ∃ n, t.noticed = s.notices.sending.toList ++ [n] ∧
      n.subject = .modeChange .start s.mode .warmRestart FailCauses.none none o
  (∀ (s : State) (tag : Nat), s.listens = true →
    (s.mode.admits = true → s.part.bus.enum = none → exec (.busReset tag) s =
      .next (s.concludes s.part.busReset 0 0x50 tag (Rsp.ok .none))) ∧
    (s.mode.admits = true → s.part.bus.enum ≠ none → exec (.busReset tag) s = .next (s.refuses 0x50 tag .busy)) ∧
    (s.part.busReset.window = none ∧ s.part.busReset.tables = s.part.tables ∧ s.part.busReset.ctl = s.part.ctl ∧
      (∀ m ∈ s.part.busReset.mv.moves, m.granted = false) ∧
      (s.part.sound → ∀ z < 16, (s.part.busReset.zone z).pass = none) ∧
      ∃ e, s.part.busReset.bus.enum = some e ∧ e.cause = .busReset) ∧
    (s.mode ≠ .start → s.image.writing = none → ∃ t, exec (.softReset tag) s = .next t ∧
      t.owed = s.owed ++ [⟨0, 0x76, tag, Rsp.ok .none⟩] ∧ t.image = s.image ∧ warm s t none) ∧
    (∀ w, s.mode ≠ .start → s.image.writing = some w → ∃ t, exec (.softReset tag) s = .next t ∧
      t.image = { s.image with deferred := true } ∧ t.owed = s.owed ++ [⟨0, 0x76, tag, Rsp.ok .none⟩])) ∧
  ∀ (s : State) (ok : Bool) (w : Tables) (g : List Nat), s.image.writing = some (w, g) → s.image.deferred = true →
    ∃ t, exec (.imageWriteDone ok) s = .next t ∧ warm s t (some ok) ∧ t.owed = s.owed ∧
      t.image = if ok then ⟨encodeImage w g, none, false, s.image.broken⟩
        else ⟨Config.brokenImage s.image.broken, none, false, s.image.broken + 1⟩

/-- Pass-through frames and requests of no known kind. The checks of R171: an address of 64 or above, ahead of the mode
by the model's order (assumption 7); the mode; an address that is not planned; a kind that is not one of the node's
orders; and the filter's column for the mode, in STANDALONE for the mode it returns to. A MOVE_LEG that passes them is
admitted as a MANUAL move of the robot whose address it names, or refused as the admission refuses it (R134); an order
whose payload fits its kind joins the tail of its node's queue with its tag, unless 4 wait (R172). The form of each
payload, and BAD_REQUEST behind the filter for one that does not fit, are the model's choice (assumption 8). A request
of no known kind is BAD_REQUEST in every mode (R167; the model's order, assumption 7). -/
def Obligations.PassThroughFrames : Prop :=
  ∀ (s : State) (tag addr kind : Nat), s.listens = true →
    let c := s.part
    let orders : List Nat := match (c.planOf addr).kind with
      | .robot => [0x01, 0x02, 0x10, 0x11, 0x12, 0x13, 0x14, 0x15]
      | .manifold => [0x01, 0x02, 0x20, 0x21]
      | .port => [0x01, 0x02, 0x30, 0x31, 0x32, 0x33]
      | .shelf => [0x01, 0x02]
      | .none => []
    let column : Mode → Prop := fun m => s.mode = m ∨ (s.mode = .standalone ∧ c.ctl.ret = some m)
    let forwards : Prop := ∃ (i : Nat) (e : FilterCfg), [0x10, 0x14, 0x15, 0x21, 0x31, 0x32, 0x33][i]? = some kind ∧
      c.tables.filter[i]? = some e ∧ ((column .normal ∧ e.normal = true) ∨ (column .maintenance ∧ e.maintenance = true))
    let passes : Prop := addr < 64 ∧ s.mode.admits = true ∧ addr ≠ 0 ∧ kind ∈ orders ∧ forwards
    let answers : Part → Rsp → State := fun d r => s.concludes d addr kind tag r
    let refused : Result → Prop := fun r =>
      (∀ b, exec (.passThroughOrder tag addr kind b) s = .next (answers c (Rsp.code r))) ∧
      (kind = 0x10 → ∀ src dst k, exec (.passThroughMoveLeg tag addr src dst k) s = .next (answers c (Rsp.code r)))
    let leg : Nat → Nat → Nat → Ask := fun src dst k => ⟨.manual, some src, some dst, 0, k % 4, .pass tag,
      sideOf (c.planOf addr).assignment, false, none, false⟩
    let fits : List Byte → Prop := fun b =>
      ((kind = 0x14 ∨ kind = 0x15) ∧ b = []) ∨ (kind = 0x21 ∧ b.length = 1) ∨
      (kind = 0x31 ∧ b.length = 3 ∧ field b 0 1 ≤ 1 ∧ field b 1 1 ≤ 15 ∧ field b 2 1 ≤ 1) ∨
      (kind = 0x32 ∧ b.length = 15 ∧ idOk (b.take 12) = true) ∨ (kind = 0x33 ∧ b.length = 12 ∧ idOk b = true)
    exec (.unknownRequest tag kind) s = .next (s.refuses kind tag .badRequest) ∧
    (64 ≤ addr → refused .badIndex) ∧
    (addr < 64 → s.mode.admits = false → refused .wrongMode) ∧
    (addr < 64 → s.mode.admits = true → addr = 0 ∨ (c.planOf addr).kind = .none → refused .badIndex) ∧
    (addr < 64 → s.mode.admits = true → addr ≠ 0 → (c.planOf addr).kind ≠ .none → kind ∉ orders →
      refused .badRequest) ∧
    (addr < 64 → s.mode.admits = true → addr ≠ 0 → kind ∈ orders → ¬forwards → refused .filtered) ∧
    (passes → kind = 0x10 → ∀ src dst k,
      (968 ≤ src ∨ 968 ≤ dst → exec (.passThroughMoveLeg tag addr src dst k) s =
        .next (answers c (Rsp.code .badIndex))) ∧
      (src < 968 → dst < 968 → ∀ d m, c.admitAsk (leg src dst k) = .ok (d, m) →
        exec (.passThroughMoveLeg tag addr src dst k) s = .next (answers d (Rsp.ok (.number m.num)))) ∧
      (src < 968 → dst < 968 → ∀ e, c.admitAsk (leg src dst k) = .error e →
        exec (.passThroughMoveLeg tag addr src dst k) s = .next (answers c (Rsp.code e)))) ∧
    (passes → kind = 0x10 → ∀ b,
      (b.length ≠ 5 → exec (.passThroughOrder tag addr kind b) s = .next (answers c (Rsp.code .badRequest))) ∧
      (b.length = 5 → exec (.passThroughOrder tag addr kind b) s =
        exec (.passThroughMoveLeg tag addr (field b 0 2) (field b 2 2) (field b 4 1)) s)) ∧
    (kind ≠ 0x10 → ∀ b, (∃ o, passOrder kind b = .ok o) ↔ fits b) ∧
    (passes → kind ≠ 0x10 → ∀ b,
      (¬fits b → ∃ r, (r = .badRequest ∨ (kind = 0x31 ∧ r = .badIndex)) ∧
        exec (.passThroughOrder tag addr kind b) s = .next (answers c (Rsp.code r))) ∧
      (∀ o n, passOrder kind b = .ok o → c.node? addr = some n →
        (n.passes < 4 → exec (.passThroughOrder tag addr kind b) s = .next (answers
          (c.putNode addr { n with queue := n.queue ++ [⟨o, some tag⟩] }) (Rsp.ok .none))) ∧
        (4 ≤ n.passes → exec (.passThroughOrder tag addr kind b) s = .next (answers c (Rsp.code .busy)))))

/-! ### The upstream link and the bus -/

/-- The events of the upstream line (R163 to R166): a frame that fails its check sets LINK_ERROR in UP, with a notice
where it was clear; the signal's loss, which ends what is owed and sent; the abort symbols; and the end of a
transmission, after which the next frame is the oldest reply, or with none the oldest notice. That the other line events
have no effect in a state the rules do not name is assumption 29. The silence timer's expiry (R165, R181): in NORMAL and
MAINTENANCE with STANDALONE_ON_SILENCE the mode becomes STANDALONE at once with cause LINK_SILENCE, returning to the mode
left, a pending entry ends and the load window is discarded; in every other case LINK_SILENT is queued and nothing else
changes. That part time moves on to the expiry is the model's choice, assumption 26. -/
def Obligations.LinkEvents : Prop :=
  (∀ s : State,
    (s.link.state = .up → s.link.error = false → exec .frameCheckFailed s = .next (State.finish { s with
      link := { s.link with error := true }
      part := { s.part with out := s.part.out ++ [Subject.linkError false] } })) ∧
    (s.link.state = .up → s.link.error = true → exec .frameCheckFailed s = .next s.finish) ∧
    (s.link.state ≠ .up → exec .frameCheckFailed s = .next s) ∧
    (s.link.state = .down → exec .lineSignalUp s =
      .next (State.transmit { s with link := { s.link with state := .hunt } })) ∧
    (s.link.state ≠ .down → exec .lineSignalUp s = .next s) ∧
    (∃ t, exec .lineSignalLost s = .next t ∧ t.link.state = .down ∧ t.owed = [] ∧ t.noticed = s.noticed ∧
      t.notices.sending = none ∧ t.link.silence = s.link.silence ∧ t.part = s.part) ∧
    exec .abortSymbol s = .next s ∧
    (∃ t, exec .abortResync s = .next t ∧ t.link.state = .hunt ∧ t.part = s.part ∧ t.owed = s.owed) ∧
    (s.link.state ≠ .down → s.deaf = false → s.full = true → exec .replyOverrun s = .next s.overrun) ∧
    (s.link.state ≠ .down → ∃ t, exec .frameTransmitted s = .next t ∧ t.part = s.part ∧
      (∀ r l, s.link.replies = r :: l → t.link.sending = some r ∧ t.link.replies = l ∧ t.notices.sending = none ∧
        t.notices.queue = s.notices.queue) ∧
      (∀ n l, s.link.replies = [] → s.notices.queue = n :: l → t.link.sending = none ∧ t.link.replies = [] ∧
        t.notices.sending = some n ∧ t.notices.queue = l) ∧
      (s.link.replies = [] → s.notices.queue = [] → t.link.sending = none ∧ t.notices.sending = none))) ∧
  ∀ (s : State) (x : Nat), s.link.silence = some x →
    exec .linkSilenceExpiry s = .next (State.finish { s with
      link := { s.link with silence := none }
      part := Part.linkSilence { s.part with now := max s.part.now x } }) ∧
    ∀ c : Part,
      (c.ctl.mode = .normal ∨ c.ctl.mode = .maintenance → c.limits.standaloneOnSilence = true →
        c.linkSilence.ctl = { c.ctl with mode := .standalone, ret := some c.ctl.mode, pending := false } ∧
        c.linkSilence.window = none ∧
        c.linkSilence.out = c.out ++
          Subject.modeChange .standalone c.ctl.mode .linkSilence FailCauses.none (some c.ctl.mode) none ::
          (c.window.toList.map fun w => .windowDiscarded w.shadow.table .standalone)) ∧
      (¬((c.ctl.mode = .normal ∨ c.ctl.mode = .maintenance) ∧ c.limits.standaloneOnSilence = true) →
        c.linkSilence = { c with out := c.out ++ [Subject.linkSilent] })

/-- The exchange in progress is answered (R155 to R157): the head order leaves its queue and turns the order toggle, the
miss count becomes 0, a pass-through order is reported DELIVERED (R172), and a report with the toggle last accepted is
not delivered again, while a new one is. One that goes unanswered counts a miss of a PRESENT node, and at the third the
node is LOST with NODE_LOST and leaves service (R158); any other node counts none. -/
def Obligations.ExchangeAnswers : Prop :=
  ∀ (s : State) (a : Nat) (n : Node), s.part.node? a = some n →
    let c : Part := { s.part with bus := { s.part.bus with exchange := none } }
    (∀ o rest tg d, s.part.bus.exchange = some (.order a) → n.queue = o :: rest → o.pass = none →
      o.order ≠ .handSnapshot → exec (.exchangeAnswered ⟨tg, d, .nothing⟩) s = .next (State.finish { s with
        part := c.putNode a { n with miss := 0, queue := rest, orderTog := !n.orderTog } })) ∧
    (∀ o rest tg d tag, s.part.bus.exchange = some (.order a) → n.queue = o :: rest → o.pass = some tag →
      o.order ≠ .handSnapshot → exec (.exchangeAnswered ⟨tg, d, .nothing⟩) s = .next (State.finish { s with
        part := (c.putNode a { n with miss := 0, queue := rest, orderTog := !n.orderTog }).say
          (.passOrder tag a o.order.code true d) })) ∧
    (∀ d rep, s.part.bus.exchange = some (.poll a) →
      exec (.exchangeAnswered ⟨n.reportTog, d, rep⟩) s = .next (State.finish { s with
        part := c.putNode a { n with miss := 0 } })) ∧
    (∀ d rep, s.part.bus.exchange = some (.poll a) → 0x01 < reportCode rep →
      exec (.exchangeAnswered ⟨!n.reportTog, d, rep⟩) s = .next (State.finish { s with
        part := (c.putNode a { n with miss := 0, reportTog := !n.reportTog }).deliverReport a rep })) ∧
    (s.part.bus.exchange = some (.order a) ∨ s.part.bus.exchange = some (.poll a) →
      (n.state ≠ .present → exec .exchangeUnanswered s = .next (State.finish { s with part := c })) ∧
      (n.state = .present → n.miss < 2 → exec .exchangeUnanswered s = .next (State.finish { s with
        part := c.putNode a { n with miss := n.miss + 1 } })) ∧
      (n.state = .present → 2 ≤ n.miss → exec .exchangeUnanswered s = .next (State.finish { s with
        part := ((c.putNode a { n with miss := 3, state := .lost }).say
          (.nodeLost a (s.part.planOf a).kind)).leaveService a (s.part.planOf a) })))

/-- Enumeration and roll-call (R150, R152 to R154, R159). An enumeration calls the planned addresses in rising order and
then the others, drops the UNEXPECTED entries as it begins and stops the ROLL_RETRY timer; each roll-call's end brings the
next, and the last ends it with ENUMERATION_DONE and its counts, ahead of what the blocks then queue (the model's order,
assumption 28). The answer of an address that is not planned makes an UNEXPECTED entry, within 48, and NODE_UNEXPECTED;
the planned node's answer makes it PRESENT with no miss and toggles begun again, its capabilities latched in an
enumeration and at a commit's one roll-call, NODE_RETURNED where it was away, but not in a cold start's enumeration nor
for the first answer of an address newly planned (the reading of assumption 23); another node's answer is NODE_MISMATCH,
ahead of NODE_ABSENT by the model's choice (assumption 71), and ABSENT, the orders queued for a LOST port or shelf node,
and the window of a LOST port, staying outside an enumeration (R158, R172); no answer makes an entry ABSENT in an
enumeration, and outside it ends the roll-call alone. A node that was PRESENT leaves with NODE_ABSENT. A robot whose
roll-call fails in an enumeration is LOST, or stays DISABLED (R137), also where its entry was ABSENT before, which is the
model's choice (assumption 65). A frame that carries another report is the answer too (R192): the report is handled as any
other (R157), and it gives no kind and no identity (assumption 24). -/
def Obligations.RollCalls : Prop :=
  (∀ (s : State) (a : Nat) (r : RollAnswer) (tg : Bool) (dat : AnswerData),
    s.part.bus.exchange = some (.rollCall a) →
    let c : Part := { s.part with bus := { s.part.bus with exchange := none } }
    exec (.exchangeAnswered ⟨tg, dat, .rollAnswer r⟩) s =
      .next (State.finish { s with part := (c.rollAnswered a r).nextRoll }) ∧
    (∀ rep, (∀ y, rep ≠ .rollAnswer y) → exec (.exchangeAnswered ⟨tg, dat, rep⟩) s = .next (State.finish { s with
      part := ((c.handleReport a tg rep).rollAnswered a ⟨.none, 0, .a, false, 0, .manifold⟩).nextRoll })) ∧
    exec .exchangeUnanswered s = .next (State.finish { s with part := (c.rollUnanswered a).nextRoll })) ∧
  (∀ (c : Part) (k : EnumCause), c.sound →
    let all := (List.range 64).drop 1
    let d := c.beginEnum k
    (∃ a rest, all.filter (fun a => (c.planOf a).kind ≠ .none) ++ all.filter (fun a => (c.planOf a).kind = .none) =
      a :: rest ∧ d.bus.exchange = some (.rollCall a) ∧ d.bus.enum = some ⟨k, rest⟩) ∧ d.bus.retry = none ∧
    (∀ a n, d.node? a = some n ↔ ∃ m, c.node? a = some m ∧ m.state ≠ .unexpected ∧
      n = { m with rollPending := false, planCall := false })) ∧
  (∀ (c : Part) (k : EnumCause) (a : Nat) (rest : List Nat), c.bus.enum = some ⟨k, a :: rest⟩ →
    c.nextRoll = { c with bus := { c.bus with exchange := some (.rollCall a), enum := some ⟨k, rest⟩ } }) ∧
  (∀ (c : Part) (k : EnumCause), c.bus.enum = some ⟨k, []⟩ →
    let count : NodeState → Nat := fun s => (c.bus.roster.filter fun e => e.2.state = s).length
    c.nextRoll.bus.enum = none ∧
    ∃ l : List Subject, c.nextRoll.out = c.out ++
      Subject.enumerationDone k (count .present) (count .absent) (count .unexpected) :: l) ∧
  ∀ (c : Part) (a : Nat) (r : RollAnswer),
    let e := c.planOf a
    let right : Prop := e.kind = r.kind ∧ e.identity = r.identity ∧ (e.kind = .robot → e.assignment = r.side.index)
    let d := c.rollAnswered a r
    let u := c.rollUnanswered a
    let leaves : Node → List Subject := fun n => if n.state = .present then [Subject.nodeAbsent a e.kind] else []
    (e.kind = .none → u = c ∧ d.out = c.out ++ [Subject.nodeUnexpected a r.kind r.identity] ∧
      (c.bus.roster.length < 48 →
        d.node? a = some ⟨r.kind, r.identity, none, .unexpected, 0, false, false, [], false, false, true⟩) ∧
      (48 ≤ c.bus.roster.length → d.bus = c.bus)) ∧
    (∀ n, e.kind ≠ .none → c.node? a = some n →
      (right →
        (∃ n' : Node, d.node? a = some n' ∧ n'.kind = r.kind ∧ n'.identity = r.identity ∧ n'.state = .present ∧ n'.miss = 0 ∧
          n'.orderTog = false ∧ n'.reportTog = false ∧ n'.rollPending = false ∧ n'.planCall = false ∧
          n'.caps = if c.bus.enum.isSome ∨ n.planCall = true then some ⟨r.express, r.side, r.channels⟩ else n.caps) ∧
        ∃ l : List Subject, d.out = c.out ++ (if (n.state = .lost ∨ n.state = .absent) ∧ n.planCall = false ∧
          (∀ x, c.bus.enum = some x → x.cause ≠ .cold) then [Subject.nodeReturned a e.kind] else []) ++ l) ∧
      (¬right →
        (∃ n' : Node, d.node? a = some n' ∧ n'.kind = r.kind ∧ n'.identity = r.identity ∧ n'.state = .absent ∧
          n'.rollPending = false ∧ n'.planCall = false ∧
          (n.state = .lost → c.bus.enum = none → e.kind = .port ∨ e.kind = .shelf → n'.queue = n.queue)) ∧
        (n.state = .lost → c.bus.enum = none → e.kind = .port →
          (d.port e.assignment).window = (c.port e.assignment).window) ∧
        ∃ l : List Subject, d.out = c.out ++ Subject.nodeMismatch a e r.kind r.identity r.side :: leaves n ++ l) ∧
      (c.bus.enum = none → u = c.putNode a { n with rollPending := false, planCall := false }) ∧
      (c.bus.enum ≠ none →
        (∃ n' : Node, u.node? a = some n' ∧ n'.kind = n.kind ∧ n'.identity = n.identity ∧ n'.state = .absent ∧
          n'.rollPending = false ∧ n'.planCall = false) ∧
        ∃ l : List Subject, u.out = c.out ++ leaves n ++ l) ∧
      (∀ x : Side, c.bus.enum ≠ none → e.kind = .robot → e.assignment = x.index →
        let gone : RobotState := if (c.robot x).state = .disabled then .disabled else .lost
        (u.robot x).state = gone ∧ (¬right → (d.robot x).state = gone)))

/-- The expiries of the ROLL_RETRY timer, a move, a yield, a step's wait, a pass and an interval, each running, and what
they do; that part time moves on to the expiry is assumption 26. ROLL_RETRY asks for a roll-call of every planned entry
away (R159). A move that times out leaves the list, its robot SUSPECT with the locations to scan, its reticle IN_DOUBT,
the hand and the locations it named UNKNOWN (R130),
with MOVE_FAULT. A yield ends SUSPECT (R120). A step that has waited too long ends WAIT_TIMEOUT, and ON_LIMIT decides
(R92, R95). A pass that times out fails, with PURGE_ABORT behind it (R72). An interval costs one of the balance, and at
-4 makes the zone OVERDUE, which leaves its reticles unprotected from then on (R46, R63). -/
def Obligations.TimerExpiries : Prop :=
  (∀ (s : State) (n t : Nat),
    let c : Part := { s.part with now := max s.part.now t }
    (s.part.bus.retry = some t → exec .rollRetryExpiry s = .next (State.finish { s with part :=
      { c with bus := { c.bus with
          retry := some (c.now + c.limits.rollRetry)
          roster := c.bus.roster.map fun e =>
            if c.planned e.1 ∧ (e.2.state = .lost ∨ e.2.state = .absent) then (e.1, { e.2 with rollPending := true })
            else e } } })) ∧
    (∀ m t0, s.part.move? n = some m → m.granted = true → m.dispatched = some (t0, t) →
      exec (.moveTimeoutExpiry n) s = .next (State.finish { s with part := c.timeOut m })) ∧
    (∀ x y, (s.part.robot x).yieldTo = some (y, t) →
      let st : RobotState := if (s.part.robot x).state = .disabled then .disabled else .suspect
      let r : Robot := { s.part.robot x with state := st, yieldTo := none }
      exec (.yieldExpiry x) s =
        .next (State.finish { s with part := (c.setRobot x r).say (.moveFault x none none .timeout) })) ∧
    (∀ r k st, s.part.job? n = some r → r.head = some (k, st) → st.state = .waiting → st.expiry = some t →
      exec (.stepWaitExpiry n) s = .next (State.finish { s with part := c.endStep n k .waitTimeout none true })) ∧
    (∀ q, (s.part.zone n).pass = some q → t = q.issued + q.limit →
      exec (.passTimerExpiry n) s = .next (State.finish { s with part := c.passFails n .timeout })) ∧
    ((s.part.zone n).timer = some t →
      exec (.intervalExpiry n) s = .next (State.finish { s with part := c.intervalPassed n }))) ∧
  (∀ (c : Part) (m : Move), c.sound → c.move? m.num = some m → m.granted = true →
    let d := c.timeOut m
    let named : Nat → Prop := fun l => m.src = some l ∨ m.dst = some l
    d.move? m.num = none ∧
    (∃ l, d.robot m.robot = { c.robot m.robot with state := .suspect, current := none, recovery := l } ∧
      (m.kind = .scan → l = m.dst.toList) ∧ (m.kind ≠ .scan → ∀ x, x ∈ l ↔ named x)) ∧
    (∀ n r, m.reticle = some n → c.rec? n = some r → ∃ r', d.rec? n = some r' ∧ r'.id = r.id ∧ r'.state = .inDoubt ∧
      r'.place = .none ∧ r'.job = none) ∧
    (m.kind ≠ .scan → ∀ l, named l → d.occ l = .unknown) ∧ d.occ (handOf m.robot) = .unknown ∧
    (∃ u v : List Subject, d.out = c.out ++ u ++ Subject.moveFault m.robot (some m.num) none .timeout :: v)) ∧
  (∀ (c : Part) (j k : Nat) (r : Job) (st : Step), c.sound → c.job? j = some r → r.head = some (k, st) →
    st.state = .waiting → r.cancel = false → r.early = false →
    let d := c.endStep j k .waitTimeout none true
    (∃ l : List Subject, d.out = c.out ++ Subject.stepResult j (k + 1) .waitTimeout (c.stepReticle st.work) :: l) ∧
    (r.stop = true → d.job? j = none ∧ ∃ n, Subject.jobEnded j r.port r.kind .failed n ∈ d.out) ∧
    (r.stop = false → (∀ i x, i ≠ k → r.steps[i]? = some x → x.state = .ended) →
      d.job? j = none ∧ ∃ n, Subject.jobEnded j r.port r.kind .done n ∈ d.out) ∧
    (r.stop = false → (∃ i x, i ≠ k ∧ r.steps[i]? = some x ∧ x.state ≠ .ended) →
      ∃ r', d.job? j = some r' ∧ (∀ i, i ≠ k → r'.steps[i]? = r.steps[i]?) ∧
        r'.steps[k]? = some { st with
          state := .ended, result := some .waitTimeout, expiry := none, since := none, move := none })) ∧
  (∀ (c : Part) (z : Nat) (q : Pass), c.sound → z < 16 → (c.zone z).pass = some q →
    let d := c.passFails z .timeout
    let f := min 2 ((c.zone z).failures + 1)
    let a := (c.zoneCfg z).manifold
    d.zone z = { c.zone z with pass := none, failedFlag := true, failures := f } ∧
    (∃ l : List Subject, d.out = c.out ++ Subject.purgeFailed z q.number .timeout f :: l) ∧
    (∀ n, (c.planOf a).kind ≠ .none → c.node? a = some n → ∃ n' : Node, d.node? a = some n' ∧
      n'.queue.getLast? = some ⟨.purgeAbort (c.zoneCfg z).channel, none⟩)) ∧
  ∀ (c : Part) (z : Nat), c.sound → z < 16 →
    let d := c.intervalPassed z
    let r := { c.zone z with timer := some (c.now + 60 * c.sched.tInt) }
    (-4 < r.b → d.zone z = { r with b := r.b - 1 }) ∧
    (r.b ≤ -4 → r.overdue = true → d = c.putZone z r) ∧
    (r.b ≤ -4 → r.overdue = false → d.zone z = { r with overdue := true, overrunFlag := true } ∧
      (∃ l : List Subject, d.out = c.out ++ Subject.purgeOverrun z :: l) ∧
      (c.protective z = true → ∀ l n q, l < 960 → l / 60 = z → (c.occ l).resident = some n → c.rec? n = some q →
        q.place = .loc l → q.stamp = none → d.rec? n = some { q with stamp := some c.now }))

/-- An interlock line (R183): a level that has not changed is no event; a change queues INTERLOCK with the mode in force; a
line becoming active in NORMAL, MAINTENANCE or STANDALONE enters FAIL_SAFE, and STOP aborts every pass. That INTERLOCK stands
ahead of the other notices and carries the mode in force before the change is the model's choice, assumption 28. -/
def Obligations.InterlockLines : Prop :=
  ∀ (s : State) (l : Line) (v : Bool),
    exec (.interlockLineChange l v) s = .next (State.finish { s with part := s.part.lineChange l v }) ∧
    (s.part.ctl.level l = v → s.part.lineChange l v = s.part) ∧
    (s.part.ctl.level l ≠ v → (s.part.lineChange l v).ctl.level l = v ∧
      (∃ a, (s.part.lineChange l v).out = s.part.out ++ [Subject.interlock l v s.part.ctl.mode] ++ a) ∧
      (v = true → s.mode.admits = true → (s.part.lineChange l v).ctl.mode = .failSafe) ∧
      (v = true → s.mode = .failSafe → (s.part.lineChange l v).ctl.mode = .failSafe) ∧
      (v = true → s.mode = .start → (s.part.lineChange l v).ctl.mode = .start ∧
        (l = .enclosure → (s.part.lineChange l v).ctl.seenEnclosure = true) ∧
        (l = .stop → (s.part.lineChange l v).ctl.seenStop = true)) ∧
      (v = false → (s.part.lineChange l v).ctl.mode = s.mode) ∧
      (v = true → l = .stop → s.part.sound → ∀ z < 16, ((s.part.lineChange l v).zone z).pass = none))

/-! ### The Inventory's events -/

/-- Settlement (R48): a protected record does not change; an unprotected one gains E_frac + elapsed × OUT_RATE exactly, in
sixtieths of a unit, saturates at 65535 with E_frac 0 and stays there, never falls, and settles to the same account whether it
is settled once or on the way too; that an account which stands at 65535 with a fraction keeps it until it accrues more is the
model's choice, assumption 3. The rate is the live class table's and the time the present part time. -/
def Obligations.SettlementExact : Prop :=
  (∀ (r : Rec) (now rate : Nat), r.stamp = none → r.accrue now rate = r) ∧
  (∀ (r : Rec) (t now rate : Nat), r.stamp = some t → t ≤ now → r.e ≤ 65535 → r.frac < 60 →
    let total := r.frac + (now - t) * rate
    let q := r.accrue now rate
    q = { r with e := q.e, frac := q.frac, stamp := some now } ∧ r.e ≤ q.e ∧ q.frac < 60 ∧
    (r.e < 65535 → r.e + total / 60 ≤ 65535 → q.e = r.e + total / 60 ∧ q.frac = total % 60) ∧
    (65535 < r.e + total / 60 → q.e = 65535 ∧ q.frac = 0) ∧
    (now = t ∨ rate = 0 → q.e = r.e ∧ q.frac = r.frac) ∧
    (r.e = 65535 → r.frac = 0 → q.e = 65535 ∧ q.frac = 0) ∧
    (∀ mid, t ≤ mid → mid ≤ now → q.e < 65535 → (r.accrue mid rate).accrue now rate = q)) ∧
  (∀ (c : Part) (n : Nat), (c.accrueRec n).rec? n = (c.rec? n).map fun r =>
    r.accrue c.now ((c.tables.classes.getD r.cls ⟨0, 0⟩).rate))

/-- Presence reports (R7, R8, R9, R154, R157). A hint that does not change is no event, but for an UNKNOWN slot in a
snapshot. Of a change: a pod in a VACANT slot makes it UNKNOWN with PRESENCE_CONFLICT and a rescan; none in an OCCUPIED
slot makes its record LOST and the slot VACANT, ends the record's moves that are not granted, and sets PRESENCE_CONFLICT
where the slot was verified; none in an UNKNOWN or a FOREIGN one makes it VACANT; any other changes the hint alone.
RETICLE_LOST stands first and SLOT_FLAG last, which is the model's choice, assumption 46. A shelf node reports the slots
of its own column, and no other node reports any. -/
def Obligations.PresenceReports : Prop :=
  ∀ (c : Part) (l : Nat) (v snap : Bool), c.sound → l < 960 →
    let d := c.presence l v snap
    let h : Hint := if v then .present else .absent
    (c.hint l = h → snap = false ∨ c.occ l ≠ .unknown → d = c.setHint l h) ∧
    (c.hint l = h → snap = true → c.occ l = .unknown → v = false → d.occ l = .vacant ∧ d.out = c.out) ∧
    (c.hint l ≠ h → d.hint l = h ∧
      (c.occ l = .vacant → v = true → d.occ l = .unknown ∧ (d.flagsOf l).conflict = true ∧ l ∈ d.inv.rescan ∧
        d.out = c.out ++ if (c.flagsOf l).conflict then [] else [Subject.slotFlag l .conflict]) ∧
      (∀ n seen r, c.occ l = .occupied n seen → v = false → c.rec? n = some r →
        d.occ l = .vacant ∧ (∃ r', d.rec? n = some r' ∧ r'.id = r.id ∧ r'.state = .lost ∧ r'.place = .none ∧
          r'.job = none) ∧
        (∀ m ∈ d.mv.moves, m.reticle = some n → m.granted = true) ∧
        (seen = true → (d.flagsOf l).conflict = true) ∧ (seen = false → d.flagsOf l = c.flagsOf l) ∧
        ∃ a : List Subject, d.out = c.out ++ Subject.reticleLost n r.id r.place .presence :: a ++
          if seen = true ∧ (c.flagsOf l).conflict = false then [Subject.slotFlag l .conflict] else []) ∧
      (v = false → c.occ l = .unknown ∨ (∃ k, c.occ l = .foreign k) → d.occ l = .vacant ∧ d.out = c.out) ∧
      ((v = true ∧ c.occ l ≠ .vacant) ∨ (v = false ∧ (c.occ l = .vacant ∨ (∃ k, c.occ l = .inbound k) ∨
        ∃ k w, c.occ l = .outbound k w)) → d = c.setHint l h)) ∧
    (∀ a, (c.planOf a).kind = .shelf → (c.planOf a).assignment = l / 60 →
      c.deliverReport a (.presence l v) = c.presence l v false) ∧
    (∀ a, (c.planOf a).kind = .shelf → (c.planOf a).assignment ≠ l / 60 → c.deliverReport a (.presence l v) = c) ∧
    (∀ a, (c.planOf a).kind ≠ .shelf → c.deliverReport a (.presence l v) = c.say (.busReject a 0x40))

/-- The reader-result rule for a read that is no report of a move's own (R22, R26, R28 to R34). A read at a location
that a dispatched move claims only puts it in the rescan queue, but one of that move's own reticle. Otherwise: no pod
makes the location VACANT and its record LOST; a pod that cannot be read makes it FOREIGN and its record IN_DOUBT, a
return there giving way to a forced one (R105; the model's reading, assumption 17); a record read where it stands is
verified; one read elsewhere is moved there, its old place UNKNOWN and to be scanned, with MISMATCH where it was
verified; one in transit elsewhere leaves the location UNKNOWN and carries MISMATCH; an ID of no record gets a new one,
of class 3 and E_WARN, or with none free leaves the location FOREIGN with TABLE_FULL. The record the location named is
LOST in each of these. RECONCILED stands first; that it names the record which an UNREADABLE read leaves IN_DOUBT is the
model's choice (assumption 56). An ID whose record is not IN_TRANSIT is read so also while a move of it is dispatched (the
reading of assumption 15). -/
def Obligations.ReaderResult : Prop :=
  ∀ (c : Part) (l kind : Nat), c.sound → c.agrees → l < 970 →
    let claimed : Move → Prop := fun m => m ∈ c.mv.moves ∧ m.granted = true ∧
      ((∃ k v, (c.occ l = .inbound k ∨ c.occ l = .outbound k v) ∧ m.reticle = some k) ∨
       ((∀ k, c.occ l ≠ .inbound k) ∧ ∃ x, l = handOf x ∧ (c.robot x).current = some m.num))
    let free : Prop := ∀ m, ¬claimed m
    let old := (c.occ l).resident
    let state : RState := if l < 960 then .idle else if l < 968 then .returned else .inDoubt
    let gone : Part → RState → Prop := fun d s => ∀ k q, old = some k → c.rec? k = some q →
      ∃ q', d.rec? k = some q' ∧ q'.id = q.id ∧ q'.state = s ∧ q'.place = .none ∧ q'.job = none
    let tells : Part → Read → Option Nat → Option Place → Prop := fun d x n p =>
      ∃ a : List Subject, d.out = c.out ++ Subject.reconciled l x n p old :: a
    (∀ read k, c.claimedBy l none = some k →
      (∀ x n r, read = .id x → c.findId x = some (n, r) → k ≠ some n) → c.readAt l read kind none = c.rescan l) ∧
    (c.claimedBy l none = none ↔ free) ∧
    (∀ x n r, idOk x = true → free ∨ c.claimedBy l none = some (some n) → c.findId x = some (n, r) → r.place ≠ .loc l →
      r.state = .inTransit → (∃ m ∈ c.mv.moves, m.granted = true ∧ m.reticle = some n ∧ (m.src = some l ∨ m.dst = some l)) →
      let d := c.readAt l (.id x) kind none
      d.rec? n = some { r with kind := kind } ∧ d.occ l = c.occ l ∧ d.out = c.out ∧
      d.inv.rescan = c.inv.rescan.filter (· ≠ l)) ∧
    (free → let d := c.readAt l .empty kind none
      d.occ l = .vacant ∧ gone d .lost ∧ (c.occ l ≠ .vacant → tells d .empty none none) ∧
      (l < 960 → (c.occ l).verified = true → (d.flagsOf l).conflict = true)) ∧
    (∀ read, free → read = .unreadable ∨ (∃ x, read = .id x ∧ idOk x = false) →
      let d := c.readAt l read kind none
      d.occ l = .foreign kind ∧ gone d .inDoubt ∧ ((∀ k, c.occ l ≠ .foreign k) → tells d .unreadable none none) ∧
      (∀ p t, l = 960 + p → p < 8 → (c.port p).ret = some t →
        (d.port p).ret = some ⟨.foreign kind, true, none, false, false⟩)) ∧
    (∀ x n r, idOk x = true → c.findId x = some (n, r) → r.place = .loc l →
      free ∨ c.claimedBy l none = some (some n) → let d := c.readAt l (.id x) kind none
      d.occ l = (c.occ l).withVerified true ∧ d.rec? n = some { r with kind := kind } ∧ d.out = c.out ∧
      d.inv.rescan = c.inv.rescan.filter (· ≠ l)) ∧
    (∀ x n r, idOk x = true → free ∨ c.claimedBy l none = some (some n) → c.findId x = some (n, r) → r.place ≠ .loc l →
      r.state ≠ .inTransit → let d := c.readAt l (.id x) kind none
      d.occ l = .occupied n true ∧ gone d .lost ∧ tells d (.id x) (some n) (some r.place) ∧
      (∀ p, r.place = .loc p → d.occ p = .unknown ∧ (p < 968 → p ∈ d.inv.rescan) ∧
        (p < 960 → c.verified n = true → (d.flagsOf p).mismatch = true)) ∧
      ∃ r', d.rec? n = some r' ∧ r'.id = x ∧ r'.place = .loc l ∧ r'.state = state ∧ r'.job = none ∧ r'.kind = kind ∧
        r'.mismatch = (r.mismatch || c.verified n)) ∧
    (∀ x n r, idOk x = true → free → c.findId x = some (n, r) → r.place ≠ .loc l → r.state = .inTransit →
      (∀ m ∈ c.mv.moves, m.granted = true → m.reticle = some n → m.src ≠ some l ∧ m.dst ≠ some l) →
      let d := c.readAt l (.id x) kind none
      d.occ l = .unknown ∧ gone d .lost ∧ (c.occ l ≠ .unknown → tells d (.id x) none none) ∧
      (l < 968 → l ∈ d.inv.rescan) ∧ d.rec? n = some { r with kind := kind, mismatch := true } ∧
      (l < 960 → (c.occ l).verified = true → (d.flagsOf l).mismatch = true)) ∧
    (∀ x, idOk x = true → free → c.findId x = none → let d := c.readAt l (.id x) kind none
      let n := Store.lowestFree c.inv.recs 0
      gone d .lost ∧
      (n < 1024 → d.occ l = .occupied n true ∧ tells d (.id x) (some n) none ∧
        ∃ r', d.rec? n = some r' ∧ r'.id = x ∧ r'.cls = 3 ∧ r'.kind = kind ∧ r'.place = .loc l ∧ r'.state = state ∧
          r'.e = c.limits.eWarn ∧ r'.frac = 0 ∧ r'.operator = false ∧ r'.mismatch = false ∧ r'.job = none ∧
          (r'.exposure = true ↔ c.limits.eHold ≤ c.limits.eWarn)) ∧
      (1024 ≤ n → d.occ l = .foreign kind ∧ Subject.tableFull l x ∈ d.out))

/-! ### The port handshake -/

/-- Service requests (R82, R83, R99). One is acknowledged in a planned, unmasked port of a mode that admits moves, with
room in its window; RETURN_WAITING moreover only with no other in the window, no move to or from the position and no
offer standing there. One that is not has no effect. READY joins the window and lets the head step be attempted, and a
return at another port of the pod that this step waits for is handled again (R101);
LAST_NEEDED joins none and ends the steps of the port's active delivery that are PENDING or WAITING, the job ending
EARLY where none is left; RETURN_WAITING carries a read of the position, and joins the window with its pod in charge
unless the position is found VACANT. That a return already standing there is handled again as it takes the request is the
model's choice (assumption 76). -/
def Obligations.ServiceRequests : Prop :=
  ∀ (c : Part) (p : Nat), c.sound → p < 8 →
    let w := (c.port p).window
    let open_ : Prop := (c.portCfg p).inPlan = true ∧ c.ctl.mode.admits = true ∧ (c.port p).masked = false ∧ w.length < 2
    (∀ q, (∀ x k, q ≠ .returnWaiting x k) → (c.acknowledges p q = true ↔ open_)) ∧
    (∀ x k, c.acknowledges p (.returnWaiting x k) = true ↔ open_ ∧ (∀ e ∈ w, ∀ y i, e.kind ≠ .returnWaiting y i) ∧
      (∀ m ∈ c.mv.moves, m.src ≠ some (960 + p) ∧ m.dst ≠ some (960 + p)) ∧
      (∀ n r, (c.occ (960 + p)).resident = some n → c.rec? n = some r →
        r.state ≠ .presented ∧ r.state ≠ .withdrawing)) ∧
    (∀ a q, (c.planOf a).kind = .port → (c.planOf a).assignment = p →
      c.deliverReport a (.serviceRequest q) = c.serviceRequest p q) ∧
    (∀ q, c.acknowledges p q = false → c.serviceRequest p q = c) ∧
    (c.acknowledges p .ready = true →
      let d := c.serviceRequest p .ready
      (∀ y, d.port y = if y = p then { c.port p with window := w ++ [⟨.ready, c.now⟩] } else c.port y) ∧
      d.jobs.jobs = c.jobs.jobs ∧ d.inv = c.inv ∧ d.mv = c.mv ∧ d.out = c.out ∧ Sig.attempt p ∈ d.work ∧
      (∀ a n, c.portAddr p = some a → (c.planOf a).kind ≠ .none → c.node? a = some n →
        d.node? a = some { n with queue := n.queue ++ [⟨.ack .ready, none⟩] }) ∧
      (∀ y t n r j b k st u, y < 8 → y ≠ p → (c.port y).ret = some t → t.pod = .record n → c.findId r = some (n, j) →
        (c.port p).active = some b → (∃ g, c.job? b = some g ∧ g.head = some (k, st)) → st.work = .deliver r u →
        st.state = .waiting → Sig.handle y ∈ d.work)) ∧
    (c.acknowledges p .lastNeeded = true →
      let d := c.serviceRequest p .lastNeeded
      let cut : Step → Step := fun st => if st.state = .pending ∨ st.state = .waiting then
        { st with state := .ended, result := some .skippedEarlyEnd, expiry := none, since := none, move := none } else st
      ((∀ j r, (c.port p).active = some j → c.job? j = some r → r.kind = .ret ∨ r.early = true) →
        d = c.portOrder p (.ack .lastNeeded)) ∧
      (∀ j r, (c.port p).active = some j → c.job? j = some r → r.port = p → r.kind = .deliver → r.early = false →
        ((∃ st ∈ r.steps, st.state = .reserved ∨ st.state = .moving ∨ st.state = .presented) →
          d.job? j = some { r with early := true, steps := r.steps.map cut } ∧ (d.port p).window = w) ∧
        (r.cancel = false → (∀ st ∈ r.steps, st.state = .pending ∨ st.state = .waiting ∨ st.state = .ended) →
          d.job? j = none ∧ (d.port p).active = none ∧ (d.port p).window = w ∧
          ∃ n, Subject.jobEnded j p .deliver .early n ∈ d.out))) ∧
    (∀ read k, c.acknowledges p (.returnWaiting read k) = true →
      let d := c.serviceRequest p (.returnWaiting read k)
      let e := (c.portOrder p (.ack (.returnWaiting read.norm (k % 4)))).readAt (960 + p) read.norm (k % 4) none
      (e.occ (960 + p) = .vacant → d = e.signal (.attempt p)) ∧
      (e.occ (960 + p) ≠ .vacant →
        (d.port p).window = (e.port p).window ++ [⟨.returnWaiting read.norm (k % 4), c.now⟩] ∧ d.inv = e.inv ∧
        (∀ n v r, e.occ (960 + p) = .occupied n v → e.rec? n = some r → r.state = .returned →
          (∃ t, (d.port p).ret = some t ∧ t.pod = .record n) ∧ Sig.handle p ∈ d.work) ∧
        (∀ i, e.occ (960 + p) = .foreign i →
          (∃ t y, (d.port p).ret = some t ∧ t.pod = .foreign y) ∧ Sig.handle p ∈ d.work)))

/-- Delivery attempts (R94, R95). A port's READY can serve the head step of its active delivery in NORMAL, with the port
neither masked nor suspended and its position VACANT, while the step is PENDING or WAITING. A reticle that is not IDLE
in a slot, or that a move carries, makes the step wait, the READY staying. One that is free is settled and then tested:
its holds, its slot and its pod kind, and the projection of its exposure over the use; the first that fails ends the
step, ON_LIMIT deciding. With none the move is asked for: admitted, record and step are RESERVED and the READY is
served; deferred, nothing is changed but the settlement. Every refusal of the admission counts as a deferral (the
reading of assumption 20). -/
def Obligations.DeliveryAttempts : Prop :=
  ∀ (c : Part) (p : Nat), c.sound → p < 8 →
    (∀ j k st id u t, c.readyStep p = some (j, k, st, id, u, t) ↔
      (c.ctl.mode = .normal ∧ (c.port p).masked = false ∧ c.suspended p = false ∧ c.occ (960 + p) = .vacant ∧
        (∃ w, (c.port p).window = ⟨.ready, t⟩ :: w) ∧ (c.port p).active = some j ∧
        (∃ r, c.job? j = some r ∧ r.head = some (k, st)) ∧ st.work = .deliver id u ∧
        (st.state = .pending ∨ st.state = .waiting))) ∧
    (c.readyStep p = none → c.attempt p = c) ∧
    (∀ j k st id u t, c.readyStep p = some (j, k, st, id, u, t) →
      let d := c.attempt p
      let ready : Nat → Rec → Nat → Prop := fun n r l => c.findId id = some (n, r) ∧ r.place = .loc l ∧ r.state = .idle ∧
        ∀ m ∈ c.mv.moves, m.reticle ≠ some n
      ((∀ n r l, ¬ready n r l) → d.mv = c.mv ∧ d.inv = c.inv ∧ d.jobs.ports = c.jobs.ports ∧ d.out = c.out ∧
        (st.state = .waiting → d.jobs = c.jobs) ∧
        (st.state = .pending → ∃ r, d.job? j = some r ∧ r.steps[k]? = some { st with
          state := .waiting, since := some c.now
          expiry := if c.limits.stepWaitMax = 0 then none else some (c.now + c.limits.stepWaitMax) })) ∧
      (∀ n r l r1, ready n r l → (c.settle n).rec? n = some r1 →
        let e := c.settle n
        let fails : Option StepResult :=
          if r.held = true then some .skippedHold
          else if c.eligibleSrc l = false ∨ accepts (c.portCfg p).kinds r.kind = false then some .slotFault
          else if c.limits.eHold ≤ r1.e + u * (c.tables.classes.getD r.cls ⟨0, 0⟩).rate then some .skippedExposure
          else none
        (∀ x, fails = some x → d = e.endStep j k x (some n) true) ∧
        (fails = none →
          let ask : Ask := ⟨.deliver, some l, some (960 + p), 0, r.kind, .step j k, none, e.expressFor j, some t, false⟩
          (∀ x, e.admitAsk ask = .error x → d = e) ∧
          (∀ g m, e.admitAsk ask = .ok (g, m) → d.mv = g.mv ∧
            d.rec? n = some { r1 with state := .reserved, job := some (j, k) } ∧
            (d.port p).window = (c.port p).window.tail ∧
            ∃ b, d.job? j = some b ∧ b.steps[k]? = some { st with
              state := .reserved, expiry := none, since := none, move := some m.num }))))

/-- The ends of an offer (R41, R98). TAKEN takes the record OUT to the port's scanner, the position VACANT and the step
DONE, with HELD_RETICLE_TAKEN where a withdrawal was under way. WITHDRAWN leaves it RETURNED in charge of a forced
return, the step ending SKIPPED_HOLD where the K64 withdrew it, and else SKIPPED_EARLY_END after LAST_NEEDED or
CANCELLED, with OFFER_DECLINED. A report that names no offer of its port is PORT_LATE; one whose ID is not of the form
of R21 names none, and is carried as zeros, which is the model's choice, assumption 48. -/
def Obligations.OffersEnd : Prop :=
  ∀ (c : Part) (p : Nat) (x : RetId), c.sound → p < 8 →
    let offer : Nat → Rec → Prop := fun n r => c.findId x = some (n, r) ∧ r.place = .loc (960 + p) ∧
      (r.state = .presented ∨ r.state = .withdrawing)
    let d := c.taken p x
    let w := c.withdrawn p x
    (∀ a, (c.planOf a).kind = .port → (c.planOf a).assignment = p →
      c.deliverReport a (.taken x) = d ∧ c.deliverReport a (.withdrawn x) = w) ∧
    (∀ n r, idOk x = true → offer n r →
      d.rec? n = some { r with state := .out, place := .scanner p, job := none } ∧ d.occ (960 + p) = .vacant ∧
      w.rec? n = some { r with state := .returned, job := none } ∧ w.occ (960 + p) = c.occ (960 + p) ∧
      (w.port p).ret = some ⟨.record n, true, none, false, false⟩ ∧
      (r.job = none → d.out = c.out ++ (if r.state = .withdrawing
        then [Subject.heldReticleTaken n p r.operator r.exposure r.mismatch] else []) ∧ w.out = c.out) ∧
      (∀ j k b st, r.job = some (j, k) → c.job? j = some b → b.steps[k]? = some st → st.state ≠ .ended →
        (∃ a : List Subject, d.out = c.out ++ Subject.stepResult j (k + 1) .done (some n) :: a ++ (if r.state = .withdrawing
          then [Subject.heldReticleTaken n p r.operator r.exposure r.mismatch] else [])) ∧
        (r.state = .withdrawing → ∃ a : List Subject, w.out = c.out ++
          Subject.stepResult j (k + 1) .skippedHold (some n) :: a) ∧
        (r.state = .presented → ∃ a : List Subject, w.out = c.out ++
          Subject.stepResult j (k + 1) (if b.early then .skippedEarlyEnd else .cancelled) (some n) :: a ++
          [Subject.offerDeclined j (k + 1) n]) ∧
        ((∃ i y, i ≠ k ∧ b.steps[i]? = some y ∧ y.state ≠ .ended) → ∃ b', d.job? j = some b' ∧
          b'.steps[k]? = some { st with
            state := .ended, result := some .done, expiry := none, since := none, move := none }))) ∧
    (idOk x = true → (∀ n r, ¬offer n r) → d = c.say (.portLate p true x) ∧ w = c.say (.portLate p false x)) ∧
    (idOk x = false → c.findId (List.replicate 12 0#8) = none →
      d = c.say (.portLate p true (List.replicate 12 0#8)) ∧ w = c.say (.portLate p false (List.replicate 12 0#8)))

/-- The handling of a port's return (R101 to R105). One that has its move, or stands at a masked or suspended port or in
a mode that admits no move, is left. A pod whose reticle a WAITING step of another port wants crosses to it, in NORMAL,
unforced and without a hold: to the port that has waited longest, then the lowest, whose use its exposure allows (R102).
Otherwise a forced or held return, and any at an AUTO port, is stored, with NO_SLOT once where no slot is found and
RETURN_WAITING once in STANDALONE (R103); at a DIRECTED port the head step of the active RETURN job is tested, its
expected ID and then its slot, and takes the pod or ends (R104). A return that ends takes its RETURN_WAITING out of the
window (R105). That each of the two notices is said once is the reading of assumption 12, that any other refusal of the
admission leaves the return as it was that of assumption 20, and that a slot which only a SCAN names is free for a
directed return that of assumption 33. The record that STEP_RESULT is given for the directed step's MISMATCH or SLOT_FAULT,
that of the pod at the port and none of a FOREIGN one, is the model's choice (assumption 59). A crossing that is deferred
is left out of this statement. The return of a DIRECTED port with no ACTIVE RETURN job waits, with RETURN_WAITING
once (R104); that the lowest such port is taken first is the model's choice (assumption 58). -/
def Obligations.ReturnsHandled : Prop :=
  ∀ (c : Part) (p : Nat), c.sound → p < 8 →
    let d := c.handleReturn p
    let pos := 960 + p
    let listed : Part → Prop := fun x => ∀ w ∈ (x.port p).window, ∀ y k, w.kind ≠ .returnWaiting y k
    ((c.port p).ret = none → d = c) ∧
    (∀ t, (c.port p).ret = some t → ((c.endReturn p).port p).ret = none ∧ listed (c.endReturn p)) ∧
    (∀ t, (c.port p).ret = some t → t.move ≠ none ∨ (c.port p).masked = true ∨ c.suspended p = true ∨
      c.ctl.mode.admits = false → d = c) ∧
    (∀ t, (c.port p).ret = some t → t.move = none → (c.port p).masked = false → c.suspended p = false →
      c.ctl.mode.admits = true →
      let wants : Part → Nat → Rec → Nat → Nat → Step → Nat → Nat → Prop := fun x q r j k st u b =>
        q < 8 ∧ x.readyStep q = some (j, k, st, r.id, u, b) ∧ st.state = .waiting ∧
        accepts (c.portCfg q).kinds r.kind = true
      let held : Prop := ∃ n r, t.pod = .record n ∧ c.rec? n = some r ∧ r.held = true
      let stays : Prop := t.forced = true ∨ held ∨ c.ctl.mode ≠ .normal ∨ (∃ k, t.pod = .foreign k) ∨
        ∃ n r, t.pod = .record n ∧ c.rec? n = some r ∧ ∀ q j k st u b, ¬wants c q r j k st u b
      let ask : Owner → Option Nat → Bool → Ask := fun o dst x =>
        ⟨.store, some pos, dst, (c.portCfg p).column, c.foreignKind pos, o, none, x, none, t.forced⟩
      let noSlot : Prop := (t.noticeSent = true → d = c) ∧ (t.noticeSent = false →
        d = (c.say (.noSlot p t.pod)).putPort p { c.port p with ret := some { t with noticeSent := true } })
      let takes : Part → Move → Prop := fun g m => d.mv = g.mv ∧ listed d ∧
        (d.port p).ret = some { t with move := some m.num }
      (∀ n r q j k st u b e r1, t.pod = .record n → c.rec? n = some r → t.forced = false → r.held = false →
        c.ctl.mode = .normal → (∃ q' j' k' st' u' b', wants c q' r j' k' st' u' b') →
        e = c.settle n → e.rec? n = some r1 → r1.held = false → wants e q r1 j k st u b →
          r1.e + u * e.rateOf r1 < c.limits.eHold →
        (∀ q' j' k' st' u' b', wants e q' r1 j' k' st' u' b' → r1.e + u' * e.rateOf r1 < c.limits.eHold →
          st.since.getD 0 < st'.since.getD 0 ∨ (st.since.getD 0 = st'.since.getD 0 ∧ q ≤ q')) →
        ∀ g m, e.admitAsk ⟨.cross, some pos, some (960 + q), 0, r1.kind, .step j k, none, e.expressFor j, some b, false⟩ =
          .ok (g, m) → takes g m ∧ d.rec? n = some { r1 with state := .reserved, job := some (j, k) } ∧
          (q ≠ p → (d.port q).window = (c.port q).window.tail) ∧ ∃ y, d.job? j = some y ∧ y.steps[k]? = some { st with
            state := .reserved, expiry := none, since := none, move := some m.num }) ∧
      (stays → t.forced = true ∨ held ∨ (c.portCfg p).directed = false →
        (c.ctl.mode = .standalone → (t.waitSent = true → d = c) ∧ (t.waitSent = false →
          d = (c.say (.returnWaiting p t.pod)).putPort p { c.port p with ret := some { t with waitSent := true } })) ∧
        (c.ctl.mode ≠ .standalone →
          (∀ g m, c.admitAsk (ask (.portReturn p) none false) = .ok (g, m) → takes g m) ∧
          (c.admitAsk (ask (.portReturn p) none false) = .error .noSlot → noSlot) ∧
          (∀ x, c.admitAsk (ask (.portReturn p) none false) = .error x → x ≠ .noSlot → d = c))) ∧
      (stays → t.forced = false → ¬held → (c.portCfg p).directed = true →
        ((∀ j r, (c.port p).active = some j → c.job? j = some r → r.kind = .deliver) → d = c) ∧
        (c.ctl.mode = .standalone → d = c) ∧
        (∀ j r k st dst ex, c.ctl.mode ≠ .standalone → (c.port p).active = some j → c.job? j = some r → r.kind = .ret →
          r.head = some (k, st) → st.state = .pending → st.work = .ret dst ex →
          let reticle : Option Nat := match t.pod with | .record n => some n | .foreign _ => none
          let other : Prop := ∃ x, ex = some x ∧ ∀ n q, reticle = some n → c.rec? n = some q → q.id ≠ x
          let kind := c.kindOf reticle (c.foreignKind pos)
          let taken : Prop := ∃ s, dst = .slot s ∧ ¬(s < 960 ∧ c.eligibleDst s kind = true ∧
            ∀ m ∈ c.mv.moves, m.kind ≠ .scan → m.dst ≠ some s)
          let q := ask (.step j k) (match dst with | .slot s => some s | .any => none) (c.expressFor j)
          (other → d = c.endStep j k .mismatch reticle true) ∧
          (¬other → taken → d = c.endStep j k .slotFault reticle true) ∧
          (¬other → ¬taken → (∀ g m, c.admitAsk q = .ok (g, m) → takes g m ∧
              ∃ y, d.job? j = some y ∧ y.steps[k]? = some { st with state := .moving, move := some m.num }) ∧
            (c.admitAsk q = .error .noSlot → noSlot) ∧
            (∀ x, c.admitAsk q = .error x → x ≠ .noSlot → d = c))))) ∧
    let waits : Nat → PortReturn → Prop := fun q t => q < 8 ∧ (c.port q).ret = some t ∧ t.waitSent = false ∧
      t.move = none ∧ t.forced = false ∧ (∀ n r, t.pod = .record n → c.rec? n = some r → r.held = false) ∧
      (c.portCfg q).directed = true ∧ (c.port q).masked = false ∧ c.suspended q = false ∧ c.ctl.mode.admits = true ∧
      ∀ j r, (c.port q).active = some j → c.job? j = some r → r.kind = .deliver
    (c.waitingOnce = none ↔ ∀ q t, ¬waits q t) ∧
    (∀ q t, waits q t → (∀ i < q, ∀ y, ¬waits i y) → c.waitingOnce = some
      ((c.say (.returnWaiting q t.pod)).putPort q { c.port q with ret := some { t with waitSent := true } }))

/-! ### Moves and the rail -/

/-- Admission (R14, R110 to R114). The checks in their order, the first that fails refusing: the mode, room in the list,
8 entries being kept for deliveries and returns, a robot, the locations as the table of R112 asks, and for ANY a slot.
An admitted move joins the tail under the first free number and the next sequence, PENDING or HELD, with the robot of
R113: the robot it belongs to, the one available, or the one whose planned span lies nearer the source, A on a tie. The
planned span is that of the latest admitted move not HELD, of its source while it puts its pod back (the model's choice,
assumption 18), and without one the robot's own. The first move's sequence is 1 (assumption 44). -/
def Obligations.AdmissionRules : Prop :=
  ∀ (c : Part) (q : Ask), c.sound →
    let span : Nat := match q.src <|> q.dst with | some l => c.tables.columnAt l + 1 | none => 0
    let avail : Side → Prop := fun x => (c.robot x).state = .idle ∨ (c.robot x).state = .busy ∨
      (c.robot x).state = .yielding
    let nearer : Side → Side → Prop := fun x y => Machine.dist (c.plannedSpan x) span < Machine.dist (c.plannedSpan y) span
    let takes : Side → Prop := fun x => avail x ∧ (q.robot = some x ∨ (q.robot = none ∧
      (avail x.other → match x with | .a => ¬nearer .b .a | .b => nearer .b .a)))
    let room : Prop := match q.kind with
      | .deliver | .store | .cross => c.mv.moves.length < 24
      | .relocate | .scan | .manual => c.mv.moves.length < 16
    let place : Nat → Prop := fun l => (960 ≤ l ∧ l < 968 ∧ (c.portCfg (l - 960)).inPlan = true) ∨
      (l < 960 ∧ (c.slotCfg l).enabled = true ∧ (c.flagsOf l).any = false)
    let kinds : Nat → BitVec 4 := fun l => if l < 960 then (c.slotCfg l).kinds else (c.portCfg (l - 960)).kinds
    let from_ : Nat → Option RState → Prop := fun l s => match q.kind with
      | .deliver | .relocate => l < 960 ∧ s = some .idle
      | .cross => 960 ≤ l ∧ s = some .returned
      | .store => 960 ≤ l ∧ (s = some .returned ∨ s = none)
      | .manual => s = some .idle ∨ s = some .returned ∨ s = none
      | .scan => False
    let dest : Nat → Prop := fun l => match q.kind with
      | .deliver | .cross => 960 ≤ l
      | .store | .relocate => l < 960
      | .manual => True
      | .scan => False
    let pod : Nat → Option Nat → Option RState → Prop := fun l n s =>
      (∃ k v r, c.occ l = .occupied k v ∧ c.rec? k = some r ∧ n = some k ∧ s = some r.state) ∨
      (∃ k, c.occ l = .foreign k ∧ n = none ∧ s = none)
    let fits : Option Nat → Prop := fun n =>
      (q.kind = .scan ∧ n = none ∧ ∃ l, q.dst = some l ∧ l < 968 ∧
        (960 ≤ l → (c.portCfg (l - 960)).inPlan = true)) ∨
      (q.kind ≠ .scan ∧ ∃ l s, q.src = some l ∧ pod l n s ∧ from_ l s ∧ place l ∧
        (∀ m ∈ c.mv.moves, m.src ≠ some l ∧ (n ≠ none → m.reticle ≠ n)) ∧
        match q.dst with
        | none => q.kind = .store ∨ q.kind = .relocate
        | some d => d ≠ l ∧ dest d ∧ place d ∧ c.occ d = .vacant ∧ accepts (kinds d) (c.kindOf n q.podKind) = true ∧
          ∀ m ∈ c.mv.moves, m.dst ≠ some d)
    let chosen : Option Nat → Option Nat := fun n =>
      match q.dst with | some d => some d | none => c.chooseSlot (c.kindOf n q.podKind) q.ref span fun _ => true
    (c.ctl.mode.admits = false → c.admitAsk q = .error .wrongMode) ∧
    (c.ctl.mode.admits = true → ¬room → c.admitAsk q = .error .busy) ∧
    (c.ctl.mode.admits = true → room → (∀ x, ¬takes x) → c.admitAsk q = .error .noRobot) ∧
    (c.ctl.mode.admits = true → room → ∀ x, takes x →
      ((∀ n, ¬fits n) → c.admitAsk q = .error .wrongState) ∧
      (∀ n, fits n → chosen n = none → c.admitAsk q = .error .noSlot) ∧
      (∀ n d, fits n → chosen n = some d → ∃ e m, c.admitAsk q = .ok (e, m) ∧ e.mv = { c.mv with
          moves := c.mv.moves ++ [m], nextNum := (m.num + 1) % 256, lastSeq := c.mv.lastSeq + 1 } ∧
        (∃ i < 256, m.num = (c.mv.nextNum + i) % 256 ∧ (∀ k ∈ c.mv.moves, k.num ≠ m.num) ∧
          ∀ i' < i, ∃ k ∈ c.mv.moves, k.num = (c.mv.nextNum + i') % 256) ∧
        m = { num := m.num, seq := c.mv.lastSeq + 1, kind := q.kind, robot := x, src := q.src, dst := some d
              refColumn := if q.dst = none then some q.ref else none, reticle := n
              podKind := if n = none ∧ q.kind ≠ .scan then some q.podKind else none
              owner := q.owner, state := if c.watchHolds m then .held else .pending, express := q.express
              passed := false, putBack := false, pickRead := none, dispatched := none, ready := q.ready
              forced := q.forced })) ∧
    (∀ x, (∀ older m newer, c.mv.moves = older ++ m :: newer → m.robot = x → m.state ≠ .held →
        (∀ k ∈ newer, k.robot = x → k.state = .held) →
        (∀ l, m.dst = some l → c.plannedSpan x = c.tables.columnAt l + 1) ∧
        (∀ l, m.dst = none → m.src = some l → c.plannedSpan x = c.tables.columnAt l + 1)) ∧
      ((∀ m ∈ c.mv.moves, m.robot = x → m.state = .held) →
        (∀ t, (c.robot x).state = .yielding → (c.robot x).yieldTo = some t → c.plannedSpan x = t.1) ∧
        (∀ s, (c.robot x).state ≠ .yielding → (c.robot x).span = some s → c.plannedSpan x = s)))

/-- Slot choice (R14 to R17): among the VACANT, enabled slots without a fault flag that accept the pod's kind, in
protective zones, whose spans a robot can reach with the source's, and that no move has as a destination still to be
filled, the one of the highest zone balance, then of the column nearest the reference, then of the lowest number; none
exactly where there is none. A span is reached by an available robot if the other is available, or parked DISABLED, or
holds an interval clear of it. That the VACANT destination of a granted move with no record is none of them is the reading
of assumption 62. -/
def Obligations.SlotChoice : Prop :=
  ∀ (c : Part) (kind ref src : Nat) (ok : Nat → Bool), c.sound →
    let avail : Side → Prop := fun x => (c.robot x).state = .idle ∨ (c.robot x).state = .busy ∨
      (c.robot x).state = .yielding
    let reaches : Side → Nat → Prop := fun x s => avail x ∧ 1 ≤ s ∧ s ≤ 16 ∧
      (avail x.other ∨ ((c.robot x.other).state = .disabled ∧ (c.robot x.other).held = some (x.other.park, x.other.park)) ∨
       ∃ j, (c.robot x.other).held = some j ∧
        match x with
        | .a => s + c.limits.clearSpans + 1 ≤ j.1
        | .b => j.2 + c.limits.clearSpans + 1 ≤ s)
    let candidate : Nat → Prop := fun s => s < 960 ∧ c.occ s = .vacant ∧ (c.slotCfg s).enabled = true ∧
      (c.flagsOf s).any = false ∧ accepts (c.slotCfg s).kinds kind = true ∧ c.protective (s / 60) = true ∧
      ok (s / 60) = true ∧ (∃ x, reaches x (s / 60 + 1) ∧ reaches x src) ∧
      ∀ m ∈ c.mv.moves, m.dst = some s → m.granted = true ∧ m.kind = .scan
    let b : Nat → Int := fun s => (c.zone (s / 60)).b
    let far : Nat → Nat := fun s => Machine.dist (s / 60) ref
    (c.chooseSlot kind ref src ok = none ↔ ∀ s, ¬candidate s) ∧
    (∀ s, c.chooseSlot kind ref src ok = some s ↔ candidate s ∧ ∀ t, candidate t →
      b t < b s ∨ (b t = b s ∧ (far s < far t ∨ (far s = far t ∧ s ≤ t)))) ∧
    (∀ z < 16, c.protective z = true ↔ (c.zoneCfg z).enabled = true ∧ (c.zone z).overdue = false ∧
      (c.zone z).failures ≠ 2 ∧ (c.zone z).supplyFault = false)

/-- The zones a move touches (R65), and the candidate of a robot (R118): only an IDLE robot has one; it is the first of its
PENDING moves whose kind the mode grants and that touch no closed zone, express moves before others, and else in the order of
admission, which is the order of the list. -/
def Obligations.CandidateChosen : Prop :=
  (∀ (m : Move) (z : Nat), m.touches z = true ↔ ∃ l < 960, l / 60 = z ∧ (m.src = some l ∨ m.dst = some l)) ∧
  ∀ (c : Part) (x : Side),
    let granted : MoveKind → Prop := fun k => c.ctl.mode = .normal ∨ c.ctl.mode = .maintenance ∨
      (c.ctl.mode = .standalone ∧ (k = .relocate ∨ k = .scan ∨ k = .manual))
    let fit : Move → Prop := fun m => m.robot = x ∧ m.state = .pending ∧ granted m.kind ∧
      ∀ z < 16, m.touches z = true → c.zoneClosed z = false
    let stands : Prop := (c.robot x).state = .idle
    (¬stands → c.candidate x = none) ∧
    (stands → (c.candidate x = none ↔ ∀ m ∈ c.mv.moves, ¬fit m)) ∧
    (stands → ∀ m, c.candidate x = some m ↔ ∃ older newer, c.mv.moves = older ++ m :: newer ∧
      fit m ∧ (∀ k ∈ older, fit k → m.express = true ∧ k.express = false) ∧
      (∀ k ∈ newer, fit k → k.express = true → m.express = true))

/-- The rail. What the arbiter does to a robot (R117, R119 to R121): nothing; or it grants the candidate, the robot BUSY on
its needed interval, which passes the clearance test; or it sends an IDLE robot a yield for the other's candidate, its
interval the way to the yield's target. The clearance test and the needed interval, the smallest that holds the robot's
span and those of the locations (R117); the yield's target just clear of the other's interval, and what a yield changes
(R120). The candidates are taken in precedence order (R118, R119): one that is clear is granted; one that is not lets the
other robot's candidate go first, if that one is clear and keeps clear of it, and else sends an IDLE robot away; with the
other robot unable to move it waits. What a grant does (R121): the locations are tested again, SCAN apart; with them
good, the move is DISPATCHED with its expiry, MOVE_LEG or SCAN_AT is queued, the source is OUTBOUND, the destination
INBOUND and the record IN_TRANSIT with the job reference of its step (R22), and a delivery step is MOVING (R96); with no
record, or for a SCAN, no location changes. A source or a named destination that fails removes the move; a destination
chosen for ANY is chosen anew, and the move stays PENDING with it (R14 to R16). -/
def Obligations.ArbiterKeepsClear : Prop :=
  (∀ (c d : Part) (x : Side), c.railOnce = some d →
    d.robot x = c.robot x ∨
    (∃ m i, c.candidate x = some m ∧ c.needed x m = some i ∧ c.clearFor x i = true ∧
      d.robot x = { c.robot x with state := .busy, held := some i, current := some m.num }) ∨
    (∃ m i, c.candidate x.other = some m ∧ c.needed x.other m = some i ∧ c.clearFor x.other i = false ∧
      (c.robot x).state = .idle ∧ d.robot x.other = c.robot x.other ∧
      let t := c.yieldTarget x i
      d.robot x = { c.robot x with
        state := .yielding, held := some (hull ((c.robot x).span.getD t) t)
        yieldTo := some (t, c.now + c.limits.moveTimeout) })) ∧
  (∀ c : Part,
    let gap := c.limits.clearSpans
    (∀ x i, c.clearFor x i = true ↔ (c.robot x.other).held = some (x.other.park, x.other.park) ∨
      ∃ j, (c.robot x.other).held = some j ∧ match x with
        | .a => i.2 + gap + 1 ≤ j.1
        | .b => j.2 + gap + 1 ≤ i.1) ∧
    (∀ x m, ((c.robot x).span = none → c.needed x m = none) ∧
      ∀ s, (c.robot x).span = some s →
        let stop : Nat → Prop := fun p => p = s ∨ (∃ l, m.src = some l ∧ p = c.tables.columnAt l + 1) ∨
          ∃ l, m.dst = some l ∧ p = c.tables.columnAt l + 1
        ∃ i, c.needed x m = some i ∧ stop i.1 ∧ stop i.2 ∧ ∀ p, stop p → i.1 ≤ p ∧ p ≤ i.2) ∧
    (∀ i : Nat × Nat,
      (i.2 + gap + 1 ≤ 16 → c.yieldTarget .b i = i.2 + gap + 1) ∧ (16 < i.2 + gap + 1 → c.yieldTarget .b i = 17) ∧
      (gap + 2 ≤ i.1 → c.yieldTarget .a i + gap + 1 = i.1) ∧ (i.1 < gap + 2 → c.yieldTarget .a i = 0)) ∧
    (∀ y t s, (c.robot y).span = some s →
      let d := c.issueYield y t
      d.robot y = { c.robot y with
        state := .yielding, held := some (min s t, max s t), yieldTo := some (t, c.now + c.limits.moveTimeout) } ∧
      d.robot y.other = c.robot y.other ∧ d.mv.moves = c.mv.moves ∧ d.inv = c.inv ∧
      ∀ a n, c.robotAddr y = some a → (c.planOf a).kind ≠ .none → c.node? a = some n →
        d.node? a = some { n with queue := n.queue ++ [⟨.yieldTo t, none⟩] }) ∧
    (∀ x m, (c.needed x m = none → c.arbitrate x m = none) ∧
      ∀ i, c.needed x m = some i →
        let y := x.other
        let apart : Nat × Nat → Prop := fun j => match y with
          | .a => j.2 + gap + 1 ≤ i.1
          | .b => i.2 + gap + 1 ≤ j.1
        let first : Move → Nat × Nat → Prop := fun k j =>
          c.candidate y = some k ∧ c.needed y k = some j ∧ c.clearFor y j = true ∧ apart j
        let able : Prop := (c.robot y).state = .idle ∧ (c.robot y).held ≠ none ∧ (c.robot x).held ≠ none
        (c.clearFor x i = true → c.arbitrate x m = some (c.grant x m i)) ∧
        (c.clearFor x i = false → able → (∀ k j, first k j → c.arbitrate x m = some (c.grant y k j)) ∧
          ((∀ k j, ¬first k j) → c.arbitrate x m = some (c.issueYield y (c.yieldTarget y i)))) ∧
        (c.clearFor x i = false → ¬able → c.arbitrate x m = none)) ∧
    (c.candidate .a = none → c.candidate .b = none → c.railOnce = none) ∧
    ∀ x m, c.candidate x = some m → (c.candidate x.other = none → c.railOnce = c.arbitrate x m) ∧
      ∀ k, c.candidate x.other = some k →
        (m.express = true ∧ k.express = false) ∨ (m.express = k.express ∧ m.seq < k.seq) →
        (∀ d, c.arbitrate x m = some d → c.railOnce = some d) ∧
        (c.arbitrate x m = none → c.railOnce = c.arbitrate x.other k)) ∧
  ∀ (c : Part) (x : Side) (m : Move) (i : Nat × Nat), c.move? m.num = some m →
    let d := c.grant x m i
    let place : Nat → Prop := fun l => (960 ≤ l ∧ l < 968 ∧ (c.portCfg (l - 960)).inPlan = true) ∨
      (l < 960 ∧ (c.slotCfg l).enabled = true ∧ (c.flagsOf l).any = false)
    let kinds : Nat → BitVec 4 := fun l => if l < 960 then (c.slotCfg l).kinds else (c.portCfg (l - 960)).kinds
    let kind : Nat → Nat := fun s => c.kindOf m.reticle (c.foreignKind s)
    let holds : Nat → Prop := fun s => m.src = some s ∧ place s ∧ match m.reticle with
      | some n => ∃ v, c.occ s = .occupied n v
      | none => ∃ k, c.occ s = .foreign k
    let fits : Nat → Nat → Prop := fun s l => place l ∧ c.occ l = .vacant ∧ accepts (kinds l) (kind s) = true
    let lost : Prop := d = c.cancelMove m .atGrant
    let goes : Order → Prop := fun o =>
      d.robot x = { c.robot x with state := .busy, held := some i, current := some m.num } ∧
      d.move? m.num = some { m with
        state := .dispatched, dispatched := some (c.now, c.now + c.limits.moveTimeout) } ∧
      (∀ a n, c.robotAddr x = some a → (c.planOf a).kind ≠ .none → c.node? a = some n →
        ∃ v, d.node? a = some { n with queue := n.queue ++ ⟨o, none⟩ :: v }) ∧
      (∀ j k b st, m.owner = .step j k → c.job? j = some b → b.kind = .deliver → b.steps[k]? = some st →
        ∃ b', d.job? j = some b' ∧ b'.steps[k]? = some { st with state := .moving }) ∧ d.out = c.out
    (∀ l, m.kind = .scan → m.dst = some l → goes (.scanAt m.num (c.tables.coord l)) ∧ d.inv = c.inv) ∧
    (m.kind ≠ .scan → (∀ s, ¬holds s) → lost) ∧
    (m.kind ≠ .scan → ∀ s l, holds s → m.dst = some l →
      (fits s l → goes (.moveLeg m.num (c.tables.coord s) (c.tables.coord l)) ∧
        (m.reticle = none → d.inv = c.inv) ∧
        (∀ n v r, m.reticle = some n → c.occ s = .occupied n v → c.rec? n = some r →
          d.occ s = .outbound n v ∧ d.occ l = .inbound n ∧ (∀ a, a ≠ s → a ≠ l → d.occ a = c.occ a) ∧
          d.rec? n = some { r with
            state := .inTransit, job := match m.owner with | .step j k => some (j, k) | _ => r.job } ∧
          ∀ k, k ≠ n → d.rec? k = c.rec? k)) ∧
      (¬fits s l → m.refColumn = none → lost) ∧
      (¬fits s l → ∀ ref, m.refColumn = some ref →
        let next := c.chooseSlot (kind s) ref (c.tables.columnAt s + 1) fun _ => true
        (next = none → lost) ∧ ∀ q, next = some q → d = c.putMove { m with dst := some q }))

/-- The purge passes. A zone is closed to moves while PURGING, or URGENT and scheduled (R69). The supply issues to the
first candidate, by class, balance and number, while fewer passes than PURGE_CONCURRENCY are in progress (R67, R68): the
pass takes the next number with the time and the limit, PURGE_START is queued, and the zone is closed. A zone has a
supply fault exactly while its channel is not usable, with ZONE_DISABLED and ZONE_RESTORED as it enters and leaves
PURGE_DISABLED (R66); a pass still in progress on such a channel ends first, which is the reading of assumption 21. A
manifold's loss ends the passes of its zones NODE_LOST, the failure counts staying (R75). SEAL_FAULT of a slot the
manifold serves sets the flag and unprotects the reticle, and any other changes nothing (R76). A PURGE_DONE report ends
the pass in progress it answers, by its channel in two bits (the model's choice, assumption 8) and its number (R51, R52,
R70 to R73). With OK the balance rises to at most 4, OVERDUE and the failure count are cleared, the mark is set, and
each protected reticle in the zone's slots is credited: E falls by its class's credit, to 0 with no fraction where it is
less, and EXPOSURE follows the thresholds; one in a sealed slot is not. A reticle that comes to be protected by it is
settled first. With FAIL PURGE_FAILED is set and the count rises. One that answers no pass is PURGE_LATE. -/
def Obligations.PurgePasses : Prop :=
  (∀ (c : Part) (z : Nat), c.sound → z < 16 →
    let on : Nat → Prop := fun y => (c.zoneCfg y).enabled = true ∧ (c.zone y).failures ≠ 2 ∧ (c.zone y).supplyFault = false
    let idle : Nat → Prop := fun y => ∀ m ∈ c.mv.moves, m.touches y = false
    let still : Nat → Prop := fun y => ∀ m ∈ c.mv.moves, m.granted = true → m.touches y = false
    let wants : Nat → Prop := fun y => ∃ l n r, l < 960 ∧ l / 60 = y ∧ (c.occ l).resident = some n ∧ c.rec? n = some r ∧
      c.limits.eWarn ≤ r.e
    let cand : Nat → Nat → Prop := fun y k => y < 16 ∧ on y ∧ (c.zone y).pass = none ∧ c.ctl.stop = false ∧
      c.ctl.mode ≠ .start ∧
      (∀ x < 16, x ≠ y → (c.zoneCfg x).manifold = (c.zoneCfg y).manifold →
        (c.zoneCfg x).channel = (c.zoneCfg y).channel → (c.zone x).pass = none) ∧
      ((k = 0 ∧ (c.zone y).b ≤ -3 ∧ still y) ∨ (k = 1 ∧ -3 < (c.zone y).b ∧ (c.zone y).b < 0 ∧ idle y) ∨
       (k = 2 ∧ 0 ≤ (c.zone y).b ∧ idle y ∧
        (((c.zone y).b < 4 ∧ wants y) ∨ (c.ctl.pending = true ∧ (c.zone y).mark = false))))
    let first : Prop := ∃ k, cand z k ∧ ∀ y i, cand y i → k < i ∨
      (k = i ∧ ((c.zone z).b < (c.zone y).b ∨ ((c.zone z).b = (c.zone y).b ∧ z ≤ y)))
    let running := ((List.range 16).filter fun y => (c.zone y).pass.isSome).length
    let a := (c.zoneCfg z).manifold
    (c.zoneClosed z = true ↔
      ¬((c.zoneCfg z).enabled = true ∧ ((c.zone z).failures = 2 ∨ (c.zone z).supplyFault = true)) ∧
      ((c.zone z).pass ≠ none ∨ ((c.zoneCfg z).enabled = true ∧ (c.zone z).b ≤ -3))) ∧
    (c.sched.concurrency ≤ running ∨ (∀ y k, ¬cand y k) → c.supplyOnce = none) ∧
    (running < c.sched.concurrency → first → ∃ d, c.supplyOnce = some d ∧
      d.zone z = { c.zone z with
        pass := some ⟨(c.zone z).nextPass, c.now, c.sched.purgeMax⟩, nextPass := ((c.zone z).nextPass + 1) % 256 } ∧
      (∀ y, y ≠ z → d.zone y = c.zone y) ∧ d.zoneClosed z = true ∧ d.out = c.out ∧
      ∀ n, (c.planOf a).kind ≠ .none → c.node? a = some n → d.node? a = some { n with
        queue := n.queue ++ [⟨.purgeStart (c.zoneCfg z).channel (c.zone z).nextPass, none⟩] })) ∧
  (∀ (c : Part) (z : Nat), c.sound → z < 16 →
    let r := c.zone z
    let g := c.zoneCfg z
    let usable : Prop := g.manifold ≠ 0 ∧ ∃ n k, c.node? g.manifold = some n ∧ n.state = .present ∧ n.kind = .manifold ∧
      n.caps = some k ∧ g.channel < k.channels
    let d := c.evalSupply z
    let lost : List Subject := match r.pass with
      | some q => [Subject.purgeFailed z q.number .nodeLost r.failures]
      | none => []
    (∀ y, y ≠ z → d.zone y = c.zone y) ∧
    (usable → r.supplyFault = false → d.zone z = r ∧ d.out = c.out) ∧
    (¬usable → r.supplyFault = true → d.zone z = r ∧ d.out = c.out) ∧
    (usable → r.supplyFault = true → d.zone z = { r with supplyFault := false } ∧
      (g.enabled = true → r.failures ≠ 2 → ∃ l, d.out = c.out ++ Subject.zoneRestored z :: l) ∧
      (g.enabled = false ∨ r.failures = 2 → d.out = c.out)) ∧
    (¬usable → r.supplyFault = false →
      d.zone z = { r with supplyFault := true, pass := none, failedFlag := r.failedFlag || r.pass.isSome } ∧
      (g.enabled = true → r.failures ≠ 2 → ∃ l, d.out = c.out ++ lost ++ Subject.zoneDisabled z false true :: l) ∧
      (g.enabled = false ∨ r.failures = 2 → d.out = c.out ++ lost))) ∧
  (∀ (c : Part) (a z : Nat), c.sound → z < 16 → (c.planOf a).kind = .manifold →
    (∀ n, c.node? a = some n → n.state ≠ .present) →
    let starting : Prop := ∃ e, c.bus.enum = some e ∧ e.cause ≠ .busReset
    let r := c.zone z
    let g := c.zoneCfg z
    let d := c.ownersLose a (c.planOf a)
    let ended := { r with pass := none, failedFlag := r.failedFlag || r.pass.isSome }
    (g.manifold ≠ a → d.zone z = r) ∧
    (g.manifold = a →
      (starting → d.zone z = ended) ∧ (¬starting → d.zone z = { ended with supplyFault := true }) ∧
      (∀ q, r.pass = some q → Subject.purgeFailed z q.number .nodeLost r.failures ∈ d.out) ∧
      (¬starting → g.enabled = true → r.failures ≠ 2 → r.supplyFault = false →
        Subject.zoneDisabled z false true ∈ d.out))) ∧
  (∀ (c : Part) (a l : Nat), c.sound → c.agrees → (c.planOf a).kind = .manifold →
    let d := c.deliverReport a (.sealFault l)
    (960 ≤ l ∨ (c.zoneCfg (l / 60)).manifold ≠ a → d = c) ∧
    (l < 960 → (c.zoneCfg (l / 60)).manifold = a →
      d.flagsOf l = { c.flagsOf l with sealed := true } ∧ d.occ l = c.occ l ∧ d.zones = c.zones ∧
      d.out = c.out ++ (if (c.flagsOf l).sealed = true then [] else [Subject.slotFlag l .sealed]) ∧
      ∀ n r, (c.occ l).resident = some n → c.rec? n = some r →
        d.rec? n = some { r with stamp := some (r.stamp.getD c.now) })) ∧
  ∀ (c : Part) (a ch n : Nat), c.sound → (c.planOf a).kind = .manifold →
    let hit : Nat → Prop := fun z => z < 16 ∧ (c.zoneCfg z).manifold = a ∧ (c.zoneCfg z).channel = ch % 4 ∧
      ∃ q, (c.zone z).pass = some q ∧ q.number = n
    (∀ z, hit z → (∀ y < z, ¬hit y) →
      let d := c.deliverReport a (.purgeDone ch n true)
      let f := c.deliverReport a (.purgeDone ch n false)
      d.zone z = { c.zone z with
        pass := none, b := if (c.zone z).b < 4 then (c.zone z).b + 1 else (c.zone z).b
        overdue := false, failures := 0, mark := true } ∧
      f.zone z = { c.zone z with pass := none, failedFlag := true, failures := min 2 ((c.zone z).failures + 1) } ∧
      (∃ o : List Subject, f.out = c.out ++ Subject.purgeFailed z n .fail (min 2 ((c.zone z).failures + 1)) :: o) ∧
      (∀ y, y ≠ z → d.zone y = c.zone y ∧ f.zone y = c.zone y) ∧
      (c.agrees → c.limits.eWarn ≤ c.limits.eHold → ∀ l m r, l < 960 → l / 60 = z → (c.occ l).resident = some m →
        c.rec? m = some r →
        let k := (c.tables.classes.getD r.cls ⟨0, 0⟩).credit
        let less : Nat → Nat := fun e => if e < k then 0 else e - k
        (c.protective z = true → r.stamp = none → ∃ r', d.rec? m = some r' ∧ r'.stamp = none ∧ r'.e = less r.e ∧
          r'.frac = (if r.e < k then 0 else r.frac) ∧
          (r'.exposure = true ↔ c.limits.eHold ≤ r'.e ∨ (r.exposure = true ∧ c.limits.eWarn ≤ r'.e))) ∧
        ((c.flagsOf l).sealed = true → r.stamp ≠ none → d.rec? m = some r) ∧
        ((c.zone z).overdue = true → (c.zoneCfg z).enabled = true → (c.zone z).supplyFault = false →
          (c.flagsOf l).sealed = false → r.stamp ≠ none →
          let q := r.accrue c.now (c.tables.classes.getD r.cls ⟨0, 0⟩).rate
          ∃ r', d.rec? m = some r' ∧ r'.stamp = none ∧ r'.e = less q.e ∧ r'.frac = if q.e < k then 0 else q.frac))) ∧
    ((∀ z, ¬hit z) → ∀ ok, c.deliverReport a (.purgeDone ch n ok) = c.say (.purgeLate a (ch % 4) n ok))

/-- The reports of a robot. One that answers no current move is too late (R122). A clean pick takes the pod to the hand,
the account of its record running (R123), where the record is IN_TRANSIT with the job reference of its step, as a grant
leaves it (R121); a record that another move's end has left IN_DOUBT is IN_TRANSIT again (the reading of assumption 15).
An unreadable pod of a move with no record is a clean pick too. A pick of nothing leaves the source VACANT, the record
LOST, the destination free, the robot IDLE at the source, and ends the move PICK_EMPTY (R124). A read that does not agree
makes the hand FOREIGN, is kept in the move, frees the destination and sends PUT_BACK, with ID_MISMATCH and the hold
MISMATCH for a record (R125). A place takes the pod to the destination, verified: IDLE in a slot, and at a port RETURNED
but for an unheld pod of a DELIVER or CROSS, which is PRESENTED (R126). That this is judged by the hold at the place
alone, where R40, R96 and R126 speak of a hold gained in transit, is the model's choice (assumption 57). A scan or a place
leaves the robot IDLE where it stands, its move gone (R126, R129). A destination found taken becomes UNKNOWN, with
PRESENCE_CONFLICT; the leg goes to the new slot chosen, or the pod is put back (R127). A put-back (R128) ends the move
with the pod at its source again, or by the read kept; with the source taken the source is UNKNOWN, the record IN_DOUBT on
the hand and the robot SUSPECT with PUT_BACK_OCCUPIED. -/
def Obligations.RobotReports : Prop :=
  ∀ (c : Part) (x : Side) (num kind : Nat) (read : Read), c.sound → c.agrees →
    (c.current? x num = none →
      c.picked x num read kind = c.say (.moveFault x (some num) (some .picked) .lateReport) ∧
      c.scanned x num read kind = c.say (.moveFault x (some num) (some .scanned) .lateReport) ∧
      ∀ ok, c.placed x num ok = c.say (.moveFault x (some num) (some .placed) .lateReport)) ∧
    (∀ m s n r, c.current? x num = some m → m.state = .dispatched → m.kind ≠ .scan → m.src = some s → s < 968 →
      m.reticle = some n → c.rec? n = some r → idOk r.id = true →
      let d := c.picked x num (.id r.id) kind
      d.occ s = .vacant ∧ d.occ (handOf x) = .occupied n true ∧ d.robot x = c.robot x ∧
      let q : Rec := { r with place := .loc (handOf x), kind := kind % 4, stamp := some (r.stamp.getD c.now) }
      d.move? num = some { m with state := .picked } ∧
      (r.state = .inTransit → (∀ j k, m.owner = .step j k → r.job = some (j, k)) → d.rec? n = some q) ∧
      (r.state = .inDoubt → d.rec? n = some { q with
        state := .inTransit, job := match m.owner with | .step j k => some (j, k) | _ => r.job })) ∧
    (∀ m l n r, c.current? x num = some m → m.state = .picked → m.dst = some l → l < 968 → m.reticle = some n →
      c.rec? n = some r → ((m.kind = .deliver ∨ m.kind = .cross) → 960 ≤ l) →
      let d := c.placed x num true
      d.occ (handOf x) = .vacant ∧ d.occ l = .occupied n true ∧ d.move? num = none ∧
      d.robot x = { c.robot x with
        state := .idle, span := some (c.tables.spanAt l), held := some (c.tables.spanAt l, c.tables.spanAt l)
        current := none } ∧
      ∃ r', d.rec? n = some r' ∧ r'.id = r.id ∧ r'.place = .loc l ∧
        r'.state = (if l < 960 then .idle
          else if (m.kind = .deliver ∨ m.kind = .cross) ∧ r.held = false then .presented else .returned)) ∧
    (∀ m l, c.current? x num = some m → m.state = .dispatched → m.kind = .scan → m.dst = some l →
      let d := c.scanned x num read kind
      d.move? num = none ∧ d.robot x = { c.robot x with
        state := .idle, span := some (c.tables.spanAt l), held := some (c.tables.spanAt l, c.tables.spanAt l)
        current := none }) ∧
    let stands : Nat → Robot := fun l => { c.robot x with
      state := .idle, span := some (c.tables.spanAt l), held := some (c.tables.spanAt l, c.tables.spanAt l)
      current := none }
    (∀ m s, c.current? x num = some m → m.state = .dispatched → m.kind ≠ .scan → m.src = some s → s < 968 →
      (∀ l, m.dst = some l → l < 968) →
      let d := c.picked x num read kind
      let orders : Prop := ∀ a q, c.robotAddr x = some a → (c.planOf a).kind ≠ .none → c.node? a = some q →
        d.node? a = some { q with queue := q.queue ++ [⟨.putBack num (c.tables.coord s), none⟩] }
      let back : Move := { m with
        dst := none, putBack := true, state := .puttingBack, pickRead := some (read.norm, kind % 4) }
      (∀ n v r, m.reticle = some n → c.occ s = .outbound n v → c.rec? n = some r → r.state = .inTransit →
        (read ≠ .id r.id → ∀ l, m.dst = some l → c.occ l = .inbound n → d.occ l = .vacant) ∧
        (read = .empty → (∀ k ∈ c.mv.moves, k.reticle = some n → k.num = num) →
          d.occ s = .vacant ∧ d.move? num = none ∧ d.robot x = stands s ∧ d.occ (handOf x) = c.occ (handOf x) ∧
          (v = true → s < 960 → (d.flagsOf s).conflict = true) ∧
          (∃ r', d.rec? n = some r' ∧ r'.id = r.id ∧ r'.state = .lost ∧ r'.place = .none ∧ r'.job = none) ∧
          (∃ l, d.out = c.out ++ Subject.reconciled s .empty none none (some n) ::
            Subject.reticleLost n r.id (.loc s) .pickEmpty :: l) ∧
          (m.owner = .relocate → Subject.relocateDone num (some n) (some s) m.dst .pickEmpty ∈ d.out) ∧
          (∀ j k b st, m.owner = .step j k → c.job? j = some b → b.steps[k]? = some st → st.state ≠ .ended →
            ∃ y, Subject.stepResult j (k + 1) .pickFailed y ∈ d.out)) ∧
        (read ≠ .empty → read ≠ .id r.id → (c.occ (handOf x)).resident = none →
          d.occ (handOf x) = .foreign (kind % 4) ∧ d.occ s = c.occ s ∧ d.move? num = some back ∧
          d.robot x = c.robot x ∧ (s < 960 → (d.flagsOf s).mismatch = true) ∧
          d.rec? n = some { r with mismatch := true } ∧ orders)) ∧
      (∀ i, m.reticle = none → c.occ s = .foreign i → (c.occ (handOf x)).resident = none →
        (read.norm = .empty → d.occ s = .vacant ∧ d.move? num = none ∧ d.robot x = stands s) ∧
        (read.norm = .unreadable → d.occ s = .vacant ∧ d.occ (handOf x) = .foreign (kind % 4) ∧
          d.move? num = some { m with state := .picked } ∧ d.robot x = c.robot x) ∧
        (∀ y, read.norm = .id y → d.occ (handOf x) = .foreign (kind % 4) ∧ d.occ s = c.occ s ∧
          d.move? num = some back ∧ d.robot x = c.robot x ∧ d.inv.recs = c.inv.recs ∧ d.inv.flags = c.inv.flags ∧
          orders))) ∧
    (∀ m l, c.current? x num = some m → m.state = .picked → m.dst = some l → l < 968 →
      let d := c.placed x num false
      let b := (c.raiseFlag l .conflict).clear l none .unknown
      d.occ l = .unknown ∧ (l < 960 → (d.flagsOf l).conflict = true) ∧
      (m.refColumn = none → b.rechoose x m = none) ∧
      (b.rechoose x m = none →
        d.move? num = some { m with dst := none, putBack := true, state := .puttingBack, pickRead := none } ∧
        d.robot x = c.robot x) ∧
      (∀ q i, b.rechoose x m = some q → (c.robot x).held = some i →
        d.move? num = some { m with dst := some q } ∧ (∀ n, m.reticle = some n → d.occ q = .inbound n) ∧
        d.robot x = { c.robot x with held := some (min i.1 (q / 60 + 1), max i.2 (q / 60 + 1)) })) ∧
    (∀ m s, c.current? x num = some m → m.state = .puttingBack → m.src = some s → s < 968 →
      let d := c.placed x num true
      let u := c.placed x num false
      (d.robot x = stands s ∧ d.occ (handOf x) = .vacant ∧ d.move? num = none) ∧
      (∀ y k, m.pickRead = some (y, k) →
        d.inv = ((c.clear (handOf x) none .vacant).readAt s y k (some num)).inv ∧
        (m.owner = .relocate → Subject.relocateDone num m.reticle (some s) m.dst .pickMismatch ∈ d.out)) ∧
      (m.pickRead = none →
        (m.owner = .relocate → Subject.relocateDone num m.reticle (some s) m.dst .placeOccupied ∈ d.out) ∧
        (∀ n r, m.reticle = some n → c.rec? n = some r → d.occ s = .occupied n true ∧ ∃ r', d.rec? n = some r' ∧
          r'.id = r.id ∧ r'.place = .loc s ∧ r'.state = (if s < 960 then .idle else .returned) ∧ r'.job = none) ∧
        (∀ i, m.reticle = none → c.occ (handOf x) = .foreign i → d.occ s = .foreign i)) ∧
      u.occ s = .unknown ∧ (s < 960 → (u.flagsOf s).conflict = true) ∧ u.occ (handOf x) = c.occ (handOf x) ∧
      u.robot x = { c.robot x with state := .suspect, current := none, recovery := [s] } ∧ u.move? num = none ∧
      Subject.moveFault x (some num) none .putBackOccupied ∈ u.out ∧
      (∀ n r, m.reticle = some n → c.rec? n = some r → r.place = .loc (handOf x) ∨ r.place = .loc s → ∃ r',
        u.rec? n = some r' ∧ r'.id = r.id ∧ r'.state = .inDoubt ∧ r'.job = none ∧
        r'.place = if r.place = .loc s then .none else r.place))

/-! ### Notices and frames -/

/-- The notice queue (R169): a notice is stamped with its sequence number and the part time of its event and joins the
tail while 32 are not yet queued; after that a minor one is dropped and a major one displaces the oldest minor notice
not in transmission, or is dropped, with NOTICES_LOST set. The sequence counts every notice, and the notices of an event
join in their order. -/
def Obligations.NoticeQueueRules : Prop :=
  (∀ (q : NoticeQueue) (time : Nat) (s : Subject),
    let n : Notice := ⟨q.next, time, s⟩
    (q.push time s).next = (if q.next = 65535 then 0 else (q.next + 1) % 65536) ∧
    (q.push time s).sending = q.sending ∧
    (q.size < 32 → (q.push time s).queue = q.queue ++ [n] ∧ (q.push time s).lost = q.lost) ∧
    (32 ≤ q.size → (q.push time s).lost = true) ∧
    (32 ≤ q.size → s.minor = true → (q.push time s).queue = q.queue) ∧
    (32 ≤ q.size → s.minor = false → ∀ a y b, q.queue = a ++ y :: b → (∀ k ∈ a, k.subject.minor = false) →
      y.subject.minor = true → (q.push time s).queue = a ++ b ++ [n]) ∧
    (32 ≤ q.size → s.minor = false → (∀ k ∈ q.queue, k.subject.minor = false) →
      (q.push time s).queue = q.queue)) ∧
  (∀ s : Subject, s.minor = true ↔ s.code = 0x43 ∨ s.code = 0x51 ∨ s.code = 0x30) ∧
  (∀ s : State, s.status.notices = s.noticed.length ∧ s.status.nextSeq = s.notices.next ∧
    s.flush.notices = s.part.out.foldl (fun q x => q.push s.part.now x) s.notices ∧
    (s.listens = true → ∀ tag, ∃ t, exec (.getStatusClear tag) s = .next t ∧ t.notices.lost = false ∧
      t.noticed = s.noticed))

/-- A frame formed as R192 says passes its check, and is the request its kind and payload spell or the pass-through order it
carries to its address; a frame that fails its check is FRAME_CHECK_FAILED (R164, R167, R171, R192). -/
def Obligations.FramesCarryRequests : Prop :=
  (∀ (addr tag kind result info : Nat) (payload : List Byte), addr < 256 → tag < 256 → kind < 256 →
    payload.length ≤ 1024 →
    let b := upFrame addr 0 tag kind result info payload
    goodFrame b = true ∧
    (addr = 0 → commandOf b = (requestOf tag kind payload).getD (.unknownRequest tag kind)) ∧
    (addr ≠ 0 → kind = 0x10 → payload.length = 5 →
      commandOf b = .passThroughMoveLeg tag addr (field payload 0 2) (field payload 2 2) (field payload 4 1)) ∧
    (addr ≠ 0 → kind ≠ 0x10 ∨ payload.length ≠ 5 → commandOf b = .passThroughOrder tag addr kind payload)) ∧
  (∀ b, goodFrame b = false → commandOf b = .frameCheckFailed)
end

