-- ==== Sys2Proof/Laws/State.lean ====
section
/-! SUPPORT. What the named operations leave as it was: one lemma for each field and each operation. -/

namespace Sys2Proof.Machine

/-! ### `Part.say` -/

@[simp] theorem Part.say_now (c : Part) (n : Subject) : (c.say n).now = c.now := rfl
@[simp] theorem Part.say_tables (c : Part) (n : Subject) : (c.say n).tables = c.tables := rfl
@[simp] theorem Part.say_gens (c : Part) (n : Subject) : (c.say n).gens = c.gens := rfl
@[simp] theorem Part.say_inv (c : Part) (n : Subject) : (c.say n).inv = c.inv := rfl
@[simp] theorem Part.say_zones (c : Part) (n : Subject) : (c.say n).zones = c.zones := rfl
@[simp] theorem Part.say_jobs (c : Part) (n : Subject) : (c.say n).jobs = c.jobs := rfl
@[simp] theorem Part.say_mv (c : Part) (n : Subject) : (c.say n).mv = c.mv := rfl
@[simp] theorem Part.say_watch (c : Part) (n : Subject) : (c.say n).watch = c.watch := rfl
@[simp] theorem Part.say_bus (c : Part) (n : Subject) : (c.say n).bus = c.bus := rfl
@[simp] theorem Part.say_window (c : Part) (n : Subject) : (c.say n).window = c.window := rfl
@[simp] theorem Part.say_ctl (c : Part) (n : Subject) : (c.say n).ctl = c.ctl := rfl
@[simp] theorem Part.say_work (c : Part) (n : Subject) : (c.say n).work = c.work := rfl

/-! ### `Part.signal` -/

@[simp] theorem Part.signal_now (c : Part) (g : Sig) : (c.signal g).now = c.now := by unfold Part.signal; split <;> rfl
@[simp] theorem Part.signal_tables (c : Part) (g : Sig) : (c.signal g).tables = c.tables := by unfold Part.signal; split <;> rfl
@[simp] theorem Part.signal_gens (c : Part) (g : Sig) : (c.signal g).gens = c.gens := by unfold Part.signal; split <;> rfl
@[simp] theorem Part.signal_inv (c : Part) (g : Sig) : (c.signal g).inv = c.inv := by unfold Part.signal; split <;> rfl
@[simp] theorem Part.signal_zones (c : Part) (g : Sig) : (c.signal g).zones = c.zones := by unfold Part.signal; split <;> rfl
@[simp] theorem Part.signal_jobs (c : Part) (g : Sig) : (c.signal g).jobs = c.jobs := by unfold Part.signal; split <;> rfl
@[simp] theorem Part.signal_mv (c : Part) (g : Sig) : (c.signal g).mv = c.mv := by unfold Part.signal; split <;> rfl
@[simp] theorem Part.signal_watch (c : Part) (g : Sig) : (c.signal g).watch = c.watch := by unfold Part.signal; split <;> rfl
@[simp] theorem Part.signal_bus (c : Part) (g : Sig) : (c.signal g).bus = c.bus := by unfold Part.signal; split <;> rfl
@[simp] theorem Part.signal_window (c : Part) (g : Sig) : (c.signal g).window = c.window := by unfold Part.signal; split <;> rfl
@[simp] theorem Part.signal_ctl (c : Part) (g : Sig) : (c.signal g).ctl = c.ctl := by unfold Part.signal; split <;> rfl
@[simp] theorem Part.signal_out (c : Part) (g : Sig) : (c.signal g).out = c.out := by unfold Part.signal; split <;> rfl

/-! ### `Part.reach` -/

@[simp] theorem Part.reach_tables (c : Part) (t : Nat) : (c.reach t).tables = c.tables := rfl
@[simp] theorem Part.reach_gens (c : Part) (t : Nat) : (c.reach t).gens = c.gens := rfl
@[simp] theorem Part.reach_inv (c : Part) (t : Nat) : (c.reach t).inv = c.inv := rfl
@[simp] theorem Part.reach_zones (c : Part) (t : Nat) : (c.reach t).zones = c.zones := rfl
@[simp] theorem Part.reach_jobs (c : Part) (t : Nat) : (c.reach t).jobs = c.jobs := rfl
@[simp] theorem Part.reach_mv (c : Part) (t : Nat) : (c.reach t).mv = c.mv := rfl
@[simp] theorem Part.reach_watch (c : Part) (t : Nat) : (c.reach t).watch = c.watch := rfl
@[simp] theorem Part.reach_bus (c : Part) (t : Nat) : (c.reach t).bus = c.bus := rfl
@[simp] theorem Part.reach_window (c : Part) (t : Nat) : (c.reach t).window = c.window := rfl
@[simp] theorem Part.reach_ctl (c : Part) (t : Nat) : (c.reach t).ctl = c.ctl := rfl
@[simp] theorem Part.reach_out (c : Part) (t : Nat) : (c.reach t).out = c.out := rfl
@[simp] theorem Part.reach_work (c : Part) (t : Nat) : (c.reach t).work = c.work := rfl

/-! ### `Part.putOcc` -/

@[simp] theorem Part.putOcc_now (c : Part) (l : Nat) (o : Occ) : (c.putOcc l o).now = c.now := rfl
@[simp] theorem Part.putOcc_tables (c : Part) (l : Nat) (o : Occ) : (c.putOcc l o).tables = c.tables := rfl
@[simp] theorem Part.putOcc_gens (c : Part) (l : Nat) (o : Occ) : (c.putOcc l o).gens = c.gens := rfl
@[simp] theorem Part.putOcc_zones (c : Part) (l : Nat) (o : Occ) : (c.putOcc l o).zones = c.zones := rfl
@[simp] theorem Part.putOcc_jobs (c : Part) (l : Nat) (o : Occ) : (c.putOcc l o).jobs = c.jobs := rfl
@[simp] theorem Part.putOcc_mv (c : Part) (l : Nat) (o : Occ) : (c.putOcc l o).mv = c.mv := rfl
@[simp] theorem Part.putOcc_watch (c : Part) (l : Nat) (o : Occ) : (c.putOcc l o).watch = c.watch := rfl
@[simp] theorem Part.putOcc_bus (c : Part) (l : Nat) (o : Occ) : (c.putOcc l o).bus = c.bus := rfl
@[simp] theorem Part.putOcc_window (c : Part) (l : Nat) (o : Occ) : (c.putOcc l o).window = c.window := rfl
@[simp] theorem Part.putOcc_ctl (c : Part) (l : Nat) (o : Occ) : (c.putOcc l o).ctl = c.ctl := rfl
@[simp] theorem Part.putOcc_out (c : Part) (l : Nat) (o : Occ) : (c.putOcc l o).out = c.out := rfl
@[simp] theorem Part.putOcc_work (c : Part) (l : Nat) (o : Occ) : (c.putOcc l o).work = c.work := rfl
@[simp] theorem Part.putOcc_inv_hints (c : Part) (l : Nat) (o : Occ) : (c.putOcc l o).inv.hints = c.inv.hints := rfl
@[simp] theorem Part.putOcc_inv_flags (c : Part) (l : Nat) (o : Occ) : (c.putOcc l o).inv.flags = c.inv.flags := rfl
@[simp] theorem Part.putOcc_inv_recs (c : Part) (l : Nat) (o : Occ) : (c.putOcc l o).inv.recs = c.inv.recs := rfl
@[simp] theorem Part.putOcc_inv_rescan (c : Part) (l : Nat) (o : Occ) : (c.putOcc l o).inv.rescan = c.inv.rescan := rfl
@[simp] theorem Part.putOcc_inv_cursor (c : Part) (l : Nat) (o : Occ) : (c.putOcc l o).inv.cursor = c.inv.cursor := rfl

/-! ### `Part.setHint` -/

@[simp] theorem Part.setHint_now (c : Part) (l : Nat) (h : Hint) : (c.setHint l h).now = c.now := rfl
@[simp] theorem Part.setHint_tables (c : Part) (l : Nat) (h : Hint) : (c.setHint l h).tables = c.tables := rfl
@[simp] theorem Part.setHint_gens (c : Part) (l : Nat) (h : Hint) : (c.setHint l h).gens = c.gens := rfl
@[simp] theorem Part.setHint_zones (c : Part) (l : Nat) (h : Hint) : (c.setHint l h).zones = c.zones := rfl
@[simp] theorem Part.setHint_jobs (c : Part) (l : Nat) (h : Hint) : (c.setHint l h).jobs = c.jobs := rfl
@[simp] theorem Part.setHint_mv (c : Part) (l : Nat) (h : Hint) : (c.setHint l h).mv = c.mv := rfl
@[simp] theorem Part.setHint_watch (c : Part) (l : Nat) (h : Hint) : (c.setHint l h).watch = c.watch := rfl
@[simp] theorem Part.setHint_bus (c : Part) (l : Nat) (h : Hint) : (c.setHint l h).bus = c.bus := rfl
@[simp] theorem Part.setHint_window (c : Part) (l : Nat) (h : Hint) : (c.setHint l h).window = c.window := rfl
@[simp] theorem Part.setHint_ctl (c : Part) (l : Nat) (h : Hint) : (c.setHint l h).ctl = c.ctl := rfl
@[simp] theorem Part.setHint_out (c : Part) (l : Nat) (h : Hint) : (c.setHint l h).out = c.out := rfl
@[simp] theorem Part.setHint_work (c : Part) (l : Nat) (h : Hint) : (c.setHint l h).work = c.work := rfl
@[simp] theorem Part.setHint_inv_occ (c : Part) (l : Nat) (h : Hint) : (c.setHint l h).inv.occ = c.inv.occ := rfl
@[simp] theorem Part.setHint_inv_flags (c : Part) (l : Nat) (h : Hint) : (c.setHint l h).inv.flags = c.inv.flags := rfl
@[simp] theorem Part.setHint_inv_recs (c : Part) (l : Nat) (h : Hint) : (c.setHint l h).inv.recs = c.inv.recs := rfl
@[simp] theorem Part.setHint_inv_rescan (c : Part) (l : Nat) (h : Hint) : (c.setHint l h).inv.rescan = c.inv.rescan := rfl
@[simp] theorem Part.setHint_inv_cursor (c : Part) (l : Nat) (h : Hint) : (c.setHint l h).inv.cursor = c.inv.cursor := rfl

/-! ### `Part.putFlags` -/

@[simp] theorem Part.putFlags_now (c : Part) (l : Nat) (f : SlotFlags) : (c.putFlags l f).now = c.now := rfl
@[simp] theorem Part.putFlags_tables (c : Part) (l : Nat) (f : SlotFlags) : (c.putFlags l f).tables = c.tables := rfl
@[simp] theorem Part.putFlags_gens (c : Part) (l : Nat) (f : SlotFlags) : (c.putFlags l f).gens = c.gens := rfl
@[simp] theorem Part.putFlags_zones (c : Part) (l : Nat) (f : SlotFlags) : (c.putFlags l f).zones = c.zones := rfl
@[simp] theorem Part.putFlags_jobs (c : Part) (l : Nat) (f : SlotFlags) : (c.putFlags l f).jobs = c.jobs := rfl
@[simp] theorem Part.putFlags_mv (c : Part) (l : Nat) (f : SlotFlags) : (c.putFlags l f).mv = c.mv := rfl
@[simp] theorem Part.putFlags_watch (c : Part) (l : Nat) (f : SlotFlags) : (c.putFlags l f).watch = c.watch := rfl
@[simp] theorem Part.putFlags_bus (c : Part) (l : Nat) (f : SlotFlags) : (c.putFlags l f).bus = c.bus := rfl
@[simp] theorem Part.putFlags_window (c : Part) (l : Nat) (f : SlotFlags) : (c.putFlags l f).window = c.window := rfl
@[simp] theorem Part.putFlags_ctl (c : Part) (l : Nat) (f : SlotFlags) : (c.putFlags l f).ctl = c.ctl := rfl
@[simp] theorem Part.putFlags_out (c : Part) (l : Nat) (f : SlotFlags) : (c.putFlags l f).out = c.out := rfl
@[simp] theorem Part.putFlags_work (c : Part) (l : Nat) (f : SlotFlags) : (c.putFlags l f).work = c.work := rfl
@[simp] theorem Part.putFlags_inv_occ (c : Part) (l : Nat) (f : SlotFlags) : (c.putFlags l f).inv.occ = c.inv.occ := rfl
@[simp] theorem Part.putFlags_inv_hints (c : Part) (l : Nat) (f : SlotFlags) : (c.putFlags l f).inv.hints = c.inv.hints := rfl
@[simp] theorem Part.putFlags_inv_recs (c : Part) (l : Nat) (f : SlotFlags) : (c.putFlags l f).inv.recs = c.inv.recs := rfl
@[simp] theorem Part.putFlags_inv_rescan (c : Part) (l : Nat) (f : SlotFlags) : (c.putFlags l f).inv.rescan = c.inv.rescan := rfl
@[simp] theorem Part.putFlags_inv_cursor (c : Part) (l : Nat) (f : SlotFlags) : (c.putFlags l f).inv.cursor = c.inv.cursor := rfl

/-! ### `Part.putRec` -/

@[simp] theorem Part.putRec_now (c : Part) (n : Nat) (r : Rec) : (c.putRec n r).now = c.now := rfl
@[simp] theorem Part.putRec_tables (c : Part) (n : Nat) (r : Rec) : (c.putRec n r).tables = c.tables := rfl
@[simp] theorem Part.putRec_gens (c : Part) (n : Nat) (r : Rec) : (c.putRec n r).gens = c.gens := rfl
@[simp] theorem Part.putRec_zones (c : Part) (n : Nat) (r : Rec) : (c.putRec n r).zones = c.zones := rfl
@[simp] theorem Part.putRec_jobs (c : Part) (n : Nat) (r : Rec) : (c.putRec n r).jobs = c.jobs := rfl
@[simp] theorem Part.putRec_mv (c : Part) (n : Nat) (r : Rec) : (c.putRec n r).mv = c.mv := rfl
@[simp] theorem Part.putRec_watch (c : Part) (n : Nat) (r : Rec) : (c.putRec n r).watch = c.watch := rfl
@[simp] theorem Part.putRec_bus (c : Part) (n : Nat) (r : Rec) : (c.putRec n r).bus = c.bus := rfl
@[simp] theorem Part.putRec_window (c : Part) (n : Nat) (r : Rec) : (c.putRec n r).window = c.window := rfl
@[simp] theorem Part.putRec_ctl (c : Part) (n : Nat) (r : Rec) : (c.putRec n r).ctl = c.ctl := rfl
@[simp] theorem Part.putRec_out (c : Part) (n : Nat) (r : Rec) : (c.putRec n r).out = c.out := rfl
@[simp] theorem Part.putRec_work (c : Part) (n : Nat) (r : Rec) : (c.putRec n r).work = c.work := rfl
@[simp] theorem Part.putRec_inv_occ (c : Part) (n : Nat) (r : Rec) : (c.putRec n r).inv.occ = c.inv.occ := rfl
@[simp] theorem Part.putRec_inv_hints (c : Part) (n : Nat) (r : Rec) : (c.putRec n r).inv.hints = c.inv.hints := rfl
@[simp] theorem Part.putRec_inv_flags (c : Part) (n : Nat) (r : Rec) : (c.putRec n r).inv.flags = c.inv.flags := rfl
@[simp] theorem Part.putRec_inv_rescan (c : Part) (n : Nat) (r : Rec) : (c.putRec n r).inv.rescan = c.inv.rescan := rfl
@[simp] theorem Part.putRec_inv_cursor (c : Part) (n : Nat) (r : Rec) : (c.putRec n r).inv.cursor = c.inv.cursor := rfl

/-! ### `Part.dropRec` -/

@[simp] theorem Part.dropRec_now (c : Part) (n : Nat) : (c.dropRec n).now = c.now := rfl
@[simp] theorem Part.dropRec_tables (c : Part) (n : Nat) : (c.dropRec n).tables = c.tables := rfl
@[simp] theorem Part.dropRec_gens (c : Part) (n : Nat) : (c.dropRec n).gens = c.gens := rfl
@[simp] theorem Part.dropRec_zones (c : Part) (n : Nat) : (c.dropRec n).zones = c.zones := rfl
@[simp] theorem Part.dropRec_jobs (c : Part) (n : Nat) : (c.dropRec n).jobs = c.jobs := rfl
@[simp] theorem Part.dropRec_mv (c : Part) (n : Nat) : (c.dropRec n).mv = c.mv := rfl
@[simp] theorem Part.dropRec_watch (c : Part) (n : Nat) : (c.dropRec n).watch = c.watch := rfl
@[simp] theorem Part.dropRec_bus (c : Part) (n : Nat) : (c.dropRec n).bus = c.bus := rfl
@[simp] theorem Part.dropRec_window (c : Part) (n : Nat) : (c.dropRec n).window = c.window := rfl
@[simp] theorem Part.dropRec_ctl (c : Part) (n : Nat) : (c.dropRec n).ctl = c.ctl := rfl
@[simp] theorem Part.dropRec_out (c : Part) (n : Nat) : (c.dropRec n).out = c.out := rfl
@[simp] theorem Part.dropRec_work (c : Part) (n : Nat) : (c.dropRec n).work = c.work := rfl
@[simp] theorem Part.dropRec_inv_occ (c : Part) (n : Nat) : (c.dropRec n).inv.occ = c.inv.occ := rfl
@[simp] theorem Part.dropRec_inv_hints (c : Part) (n : Nat) : (c.dropRec n).inv.hints = c.inv.hints := rfl
@[simp] theorem Part.dropRec_inv_flags (c : Part) (n : Nat) : (c.dropRec n).inv.flags = c.inv.flags := rfl
@[simp] theorem Part.dropRec_inv_rescan (c : Part) (n : Nat) : (c.dropRec n).inv.rescan = c.inv.rescan := rfl
@[simp] theorem Part.dropRec_inv_cursor (c : Part) (n : Nat) : (c.dropRec n).inv.cursor = c.inv.cursor := rfl

/-! ### `Part.rescan` -/

@[simp] theorem Part.rescan_now (c : Part) (l : Nat) : (c.rescan l).now = c.now := by unfold Part.rescan; split <;> rfl
@[simp] theorem Part.rescan_tables (c : Part) (l : Nat) : (c.rescan l).tables = c.tables := by unfold Part.rescan; split <;> rfl
@[simp] theorem Part.rescan_gens (c : Part) (l : Nat) : (c.rescan l).gens = c.gens := by unfold Part.rescan; split <;> rfl
@[simp] theorem Part.rescan_zones (c : Part) (l : Nat) : (c.rescan l).zones = c.zones := by unfold Part.rescan; split <;> rfl
@[simp] theorem Part.rescan_jobs (c : Part) (l : Nat) : (c.rescan l).jobs = c.jobs := by unfold Part.rescan; split <;> rfl
@[simp] theorem Part.rescan_mv (c : Part) (l : Nat) : (c.rescan l).mv = c.mv := by unfold Part.rescan; split <;> rfl
@[simp] theorem Part.rescan_watch (c : Part) (l : Nat) : (c.rescan l).watch = c.watch := by unfold Part.rescan; split <;> rfl
@[simp] theorem Part.rescan_bus (c : Part) (l : Nat) : (c.rescan l).bus = c.bus := by unfold Part.rescan; split <;> rfl
@[simp] theorem Part.rescan_window (c : Part) (l : Nat) : (c.rescan l).window = c.window := by unfold Part.rescan; split <;> rfl
@[simp] theorem Part.rescan_ctl (c : Part) (l : Nat) : (c.rescan l).ctl = c.ctl := by unfold Part.rescan; split <;> rfl
@[simp] theorem Part.rescan_out (c : Part) (l : Nat) : (c.rescan l).out = c.out := by unfold Part.rescan; split <;> rfl
@[simp] theorem Part.rescan_work (c : Part) (l : Nat) : (c.rescan l).work = c.work := by unfold Part.rescan; split <;> rfl
@[simp] theorem Part.rescan_inv_occ (c : Part) (l : Nat) : (c.rescan l).inv.occ = c.inv.occ := by unfold Part.rescan; split <;> rfl
@[simp] theorem Part.rescan_inv_hints (c : Part) (l : Nat) : (c.rescan l).inv.hints = c.inv.hints := by unfold Part.rescan; split <;> rfl
@[simp] theorem Part.rescan_inv_flags (c : Part) (l : Nat) : (c.rescan l).inv.flags = c.inv.flags := by unfold Part.rescan; split <;> rfl
@[simp] theorem Part.rescan_inv_recs (c : Part) (l : Nat) : (c.rescan l).inv.recs = c.inv.recs := by unfold Part.rescan; split <;> rfl
@[simp] theorem Part.rescan_inv_cursor (c : Part) (l : Nat) : (c.rescan l).inv.cursor = c.inv.cursor := by unfold Part.rescan; split <;> rfl

/-! ### `Part.unrescan` -/

@[simp] theorem Part.unrescan_now (c : Part) (l : Nat) : (c.unrescan l).now = c.now := rfl
@[simp] theorem Part.unrescan_tables (c : Part) (l : Nat) : (c.unrescan l).tables = c.tables := rfl
@[simp] theorem Part.unrescan_gens (c : Part) (l : Nat) : (c.unrescan l).gens = c.gens := rfl
@[simp] theorem Part.unrescan_zones (c : Part) (l : Nat) : (c.unrescan l).zones = c.zones := rfl
@[simp] theorem Part.unrescan_jobs (c : Part) (l : Nat) : (c.unrescan l).jobs = c.jobs := rfl
@[simp] theorem Part.unrescan_mv (c : Part) (l : Nat) : (c.unrescan l).mv = c.mv := rfl
@[simp] theorem Part.unrescan_watch (c : Part) (l : Nat) : (c.unrescan l).watch = c.watch := rfl
@[simp] theorem Part.unrescan_bus (c : Part) (l : Nat) : (c.unrescan l).bus = c.bus := rfl
@[simp] theorem Part.unrescan_window (c : Part) (l : Nat) : (c.unrescan l).window = c.window := rfl
@[simp] theorem Part.unrescan_ctl (c : Part) (l : Nat) : (c.unrescan l).ctl = c.ctl := rfl
@[simp] theorem Part.unrescan_out (c : Part) (l : Nat) : (c.unrescan l).out = c.out := rfl
@[simp] theorem Part.unrescan_work (c : Part) (l : Nat) : (c.unrescan l).work = c.work := rfl
@[simp] theorem Part.unrescan_inv_occ (c : Part) (l : Nat) : (c.unrescan l).inv.occ = c.inv.occ := rfl
@[simp] theorem Part.unrescan_inv_hints (c : Part) (l : Nat) : (c.unrescan l).inv.hints = c.inv.hints := rfl
@[simp] theorem Part.unrescan_inv_flags (c : Part) (l : Nat) : (c.unrescan l).inv.flags = c.inv.flags := rfl
@[simp] theorem Part.unrescan_inv_recs (c : Part) (l : Nat) : (c.unrescan l).inv.recs = c.inv.recs := rfl
@[simp] theorem Part.unrescan_inv_cursor (c : Part) (l : Nat) : (c.unrescan l).inv.cursor = c.inv.cursor := rfl

/-! ### `Part.setCursor` -/

@[simp] theorem Part.setCursor_now (c : Part) (k : Cursor) : (c.setCursor k).now = c.now := rfl
@[simp] theorem Part.setCursor_tables (c : Part) (k : Cursor) : (c.setCursor k).tables = c.tables := rfl
@[simp] theorem Part.setCursor_gens (c : Part) (k : Cursor) : (c.setCursor k).gens = c.gens := rfl
@[simp] theorem Part.setCursor_zones (c : Part) (k : Cursor) : (c.setCursor k).zones = c.zones := rfl
@[simp] theorem Part.setCursor_jobs (c : Part) (k : Cursor) : (c.setCursor k).jobs = c.jobs := rfl
@[simp] theorem Part.setCursor_mv (c : Part) (k : Cursor) : (c.setCursor k).mv = c.mv := rfl
@[simp] theorem Part.setCursor_watch (c : Part) (k : Cursor) : (c.setCursor k).watch = c.watch := rfl
@[simp] theorem Part.setCursor_bus (c : Part) (k : Cursor) : (c.setCursor k).bus = c.bus := rfl
@[simp] theorem Part.setCursor_window (c : Part) (k : Cursor) : (c.setCursor k).window = c.window := rfl
@[simp] theorem Part.setCursor_ctl (c : Part) (k : Cursor) : (c.setCursor k).ctl = c.ctl := rfl
@[simp] theorem Part.setCursor_out (c : Part) (k : Cursor) : (c.setCursor k).out = c.out := rfl
@[simp] theorem Part.setCursor_work (c : Part) (k : Cursor) : (c.setCursor k).work = c.work := rfl
@[simp] theorem Part.setCursor_inv_occ (c : Part) (k : Cursor) : (c.setCursor k).inv.occ = c.inv.occ := rfl
@[simp] theorem Part.setCursor_inv_hints (c : Part) (k : Cursor) : (c.setCursor k).inv.hints = c.inv.hints := rfl
@[simp] theorem Part.setCursor_inv_flags (c : Part) (k : Cursor) : (c.setCursor k).inv.flags = c.inv.flags := rfl
@[simp] theorem Part.setCursor_inv_recs (c : Part) (k : Cursor) : (c.setCursor k).inv.recs = c.inv.recs := rfl
@[simp] theorem Part.setCursor_inv_rescan (c : Part) (k : Cursor) : (c.setCursor k).inv.rescan = c.inv.rescan := rfl

/-! ### `Part.putZone` -/

@[simp] theorem Part.putZone_now (c : Part) (z : Nat) (r : Zone) : (c.putZone z r).now = c.now := rfl
@[simp] theorem Part.putZone_tables (c : Part) (z : Nat) (r : Zone) : (c.putZone z r).tables = c.tables := rfl
@[simp] theorem Part.putZone_gens (c : Part) (z : Nat) (r : Zone) : (c.putZone z r).gens = c.gens := rfl
@[simp] theorem Part.putZone_inv (c : Part) (z : Nat) (r : Zone) : (c.putZone z r).inv = c.inv := rfl
@[simp] theorem Part.putZone_jobs (c : Part) (z : Nat) (r : Zone) : (c.putZone z r).jobs = c.jobs := rfl
@[simp] theorem Part.putZone_mv (c : Part) (z : Nat) (r : Zone) : (c.putZone z r).mv = c.mv := rfl
@[simp] theorem Part.putZone_watch (c : Part) (z : Nat) (r : Zone) : (c.putZone z r).watch = c.watch := rfl
@[simp] theorem Part.putZone_bus (c : Part) (z : Nat) (r : Zone) : (c.putZone z r).bus = c.bus := rfl
@[simp] theorem Part.putZone_window (c : Part) (z : Nat) (r : Zone) : (c.putZone z r).window = c.window := rfl
@[simp] theorem Part.putZone_ctl (c : Part) (z : Nat) (r : Zone) : (c.putZone z r).ctl = c.ctl := rfl
@[simp] theorem Part.putZone_out (c : Part) (z : Nat) (r : Zone) : (c.putZone z r).out = c.out := rfl
@[simp] theorem Part.putZone_work (c : Part) (z : Nat) (r : Zone) : (c.putZone z r).work = c.work := rfl

/-! ### `Part.putJob` -/

@[simp] theorem Part.putJob_now (c : Part) (j : Nat) (r : Job) : (c.putJob j r).now = c.now := rfl
@[simp] theorem Part.putJob_tables (c : Part) (j : Nat) (r : Job) : (c.putJob j r).tables = c.tables := rfl
@[simp] theorem Part.putJob_gens (c : Part) (j : Nat) (r : Job) : (c.putJob j r).gens = c.gens := rfl
@[simp] theorem Part.putJob_inv (c : Part) (j : Nat) (r : Job) : (c.putJob j r).inv = c.inv := rfl
@[simp] theorem Part.putJob_zones (c : Part) (j : Nat) (r : Job) : (c.putJob j r).zones = c.zones := rfl
@[simp] theorem Part.putJob_mv (c : Part) (j : Nat) (r : Job) : (c.putJob j r).mv = c.mv := rfl
@[simp] theorem Part.putJob_watch (c : Part) (j : Nat) (r : Job) : (c.putJob j r).watch = c.watch := rfl
@[simp] theorem Part.putJob_bus (c : Part) (j : Nat) (r : Job) : (c.putJob j r).bus = c.bus := rfl
@[simp] theorem Part.putJob_window (c : Part) (j : Nat) (r : Job) : (c.putJob j r).window = c.window := rfl
@[simp] theorem Part.putJob_ctl (c : Part) (j : Nat) (r : Job) : (c.putJob j r).ctl = c.ctl := rfl
@[simp] theorem Part.putJob_out (c : Part) (j : Nat) (r : Job) : (c.putJob j r).out = c.out := rfl
@[simp] theorem Part.putJob_work (c : Part) (j : Nat) (r : Job) : (c.putJob j r).work = c.work := rfl
@[simp] theorem Part.putJob_jobs_ports (c : Part) (j : Nat) (r : Job) : (c.putJob j r).jobs.ports = c.jobs.ports := rfl
@[simp] theorem Part.putJob_jobs_offers (c : Part) (j : Nat) (r : Job) : (c.putJob j r).jobs.offers = c.jobs.offers := rfl

/-! ### `Part.dropJob` -/

@[simp] theorem Part.dropJob_now (c : Part) (j : Nat) : (c.dropJob j).now = c.now := rfl
@[simp] theorem Part.dropJob_tables (c : Part) (j : Nat) : (c.dropJob j).tables = c.tables := rfl
@[simp] theorem Part.dropJob_gens (c : Part) (j : Nat) : (c.dropJob j).gens = c.gens := rfl
@[simp] theorem Part.dropJob_inv (c : Part) (j : Nat) : (c.dropJob j).inv = c.inv := rfl
@[simp] theorem Part.dropJob_zones (c : Part) (j : Nat) : (c.dropJob j).zones = c.zones := rfl
@[simp] theorem Part.dropJob_mv (c : Part) (j : Nat) : (c.dropJob j).mv = c.mv := rfl
@[simp] theorem Part.dropJob_watch (c : Part) (j : Nat) : (c.dropJob j).watch = c.watch := rfl
@[simp] theorem Part.dropJob_bus (c : Part) (j : Nat) : (c.dropJob j).bus = c.bus := rfl
@[simp] theorem Part.dropJob_window (c : Part) (j : Nat) : (c.dropJob j).window = c.window := rfl
@[simp] theorem Part.dropJob_ctl (c : Part) (j : Nat) : (c.dropJob j).ctl = c.ctl := rfl
@[simp] theorem Part.dropJob_out (c : Part) (j : Nat) : (c.dropJob j).out = c.out := rfl
@[simp] theorem Part.dropJob_work (c : Part) (j : Nat) : (c.dropJob j).work = c.work := rfl
@[simp] theorem Part.dropJob_jobs_ports (c : Part) (j : Nat) : (c.dropJob j).jobs.ports = c.jobs.ports := rfl
@[simp] theorem Part.dropJob_jobs_offers (c : Part) (j : Nat) : (c.dropJob j).jobs.offers = c.jobs.offers := rfl

/-! ### `Part.putPort` -/

@[simp] theorem Part.putPort_now (c : Part) (p : Nat) (r : Port) : (c.putPort p r).now = c.now := rfl
@[simp] theorem Part.putPort_tables (c : Part) (p : Nat) (r : Port) : (c.putPort p r).tables = c.tables := rfl
@[simp] theorem Part.putPort_gens (c : Part) (p : Nat) (r : Port) : (c.putPort p r).gens = c.gens := rfl
@[simp] theorem Part.putPort_inv (c : Part) (p : Nat) (r : Port) : (c.putPort p r).inv = c.inv := rfl
@[simp] theorem Part.putPort_zones (c : Part) (p : Nat) (r : Port) : (c.putPort p r).zones = c.zones := rfl
@[simp] theorem Part.putPort_mv (c : Part) (p : Nat) (r : Port) : (c.putPort p r).mv = c.mv := rfl
@[simp] theorem Part.putPort_watch (c : Part) (p : Nat) (r : Port) : (c.putPort p r).watch = c.watch := rfl
@[simp] theorem Part.putPort_bus (c : Part) (p : Nat) (r : Port) : (c.putPort p r).bus = c.bus := rfl
@[simp] theorem Part.putPort_window (c : Part) (p : Nat) (r : Port) : (c.putPort p r).window = c.window := rfl
@[simp] theorem Part.putPort_ctl (c : Part) (p : Nat) (r : Port) : (c.putPort p r).ctl = c.ctl := rfl
@[simp] theorem Part.putPort_out (c : Part) (p : Nat) (r : Port) : (c.putPort p r).out = c.out := rfl
@[simp] theorem Part.putPort_work (c : Part) (p : Nat) (r : Port) : (c.putPort p r).work = c.work := rfl
@[simp] theorem Part.putPort_jobs_jobs (c : Part) (p : Nat) (r : Port) : (c.putPort p r).jobs.jobs = c.jobs.jobs := rfl
@[simp] theorem Part.putPort_jobs_offers (c : Part) (p : Nat) (r : Port) : (c.putPort p r).jobs.offers = c.jobs.offers := rfl

/-! ### `Part.putMove` -/

@[simp] theorem Part.putMove_now (c : Part) (m : Move) : (c.putMove m).now = c.now := rfl
@[simp] theorem Part.putMove_tables (c : Part) (m : Move) : (c.putMove m).tables = c.tables := rfl
@[simp] theorem Part.putMove_gens (c : Part) (m : Move) : (c.putMove m).gens = c.gens := rfl
@[simp] theorem Part.putMove_inv (c : Part) (m : Move) : (c.putMove m).inv = c.inv := rfl
@[simp] theorem Part.putMove_zones (c : Part) (m : Move) : (c.putMove m).zones = c.zones := rfl
@[simp] theorem Part.putMove_jobs (c : Part) (m : Move) : (c.putMove m).jobs = c.jobs := rfl
@[simp] theorem Part.putMove_watch (c : Part) (m : Move) : (c.putMove m).watch = c.watch := rfl
@[simp] theorem Part.putMove_bus (c : Part) (m : Move) : (c.putMove m).bus = c.bus := rfl
@[simp] theorem Part.putMove_window (c : Part) (m : Move) : (c.putMove m).window = c.window := rfl
@[simp] theorem Part.putMove_ctl (c : Part) (m : Move) : (c.putMove m).ctl = c.ctl := rfl
@[simp] theorem Part.putMove_out (c : Part) (m : Move) : (c.putMove m).out = c.out := rfl
@[simp] theorem Part.putMove_work (c : Part) (m : Move) : (c.putMove m).work = c.work := rfl
@[simp] theorem Part.putMove_mv_nextNum (c : Part) (m : Move) : (c.putMove m).mv.nextNum = c.mv.nextNum := rfl
@[simp] theorem Part.putMove_mv_lastSeq (c : Part) (m : Move) : (c.putMove m).mv.lastSeq = c.mv.lastSeq := rfl
@[simp] theorem Part.putMove_mv_robotA (c : Part) (m : Move) : (c.putMove m).mv.robotA = c.mv.robotA := rfl
@[simp] theorem Part.putMove_mv_robotB (c : Part) (m : Move) : (c.putMove m).mv.robotB = c.mv.robotB := rfl

/-! ### `Part.putRobot` -/

@[simp] theorem Part.putRobot_now (c : Part) (x : Side) (r : Robot) : (c.putRobot x r).now = c.now := by cases x <;> rfl
@[simp] theorem Part.putRobot_tables (c : Part) (x : Side) (r : Robot) : (c.putRobot x r).tables = c.tables := by cases x <;> rfl
@[simp] theorem Part.putRobot_gens (c : Part) (x : Side) (r : Robot) : (c.putRobot x r).gens = c.gens := by cases x <;> rfl
@[simp] theorem Part.putRobot_inv (c : Part) (x : Side) (r : Robot) : (c.putRobot x r).inv = c.inv := by cases x <;> rfl
@[simp] theorem Part.putRobot_zones (c : Part) (x : Side) (r : Robot) : (c.putRobot x r).zones = c.zones := by cases x <;> rfl
@[simp] theorem Part.putRobot_jobs (c : Part) (x : Side) (r : Robot) : (c.putRobot x r).jobs = c.jobs := by cases x <;> rfl
@[simp] theorem Part.putRobot_watch (c : Part) (x : Side) (r : Robot) : (c.putRobot x r).watch = c.watch := by cases x <;> rfl
@[simp] theorem Part.putRobot_bus (c : Part) (x : Side) (r : Robot) : (c.putRobot x r).bus = c.bus := by cases x <;> rfl
@[simp] theorem Part.putRobot_window (c : Part) (x : Side) (r : Robot) : (c.putRobot x r).window = c.window := by cases x <;> rfl
@[simp] theorem Part.putRobot_ctl (c : Part) (x : Side) (r : Robot) : (c.putRobot x r).ctl = c.ctl := by cases x <;> rfl
@[simp] theorem Part.putRobot_out (c : Part) (x : Side) (r : Robot) : (c.putRobot x r).out = c.out := by cases x <;> rfl
@[simp] theorem Part.putRobot_work (c : Part) (x : Side) (r : Robot) : (c.putRobot x r).work = c.work := by cases x <;> rfl
@[simp] theorem Part.putRobot_mv_moves (c : Part) (x : Side) (r : Robot) : (c.putRobot x r).mv.moves = c.mv.moves := by cases x <;> rfl
@[simp] theorem Part.putRobot_mv_nextNum (c : Part) (x : Side) (r : Robot) : (c.putRobot x r).mv.nextNum = c.mv.nextNum := by cases x <;> rfl
@[simp] theorem Part.putRobot_mv_lastSeq (c : Part) (x : Side) (r : Robot) : (c.putRobot x r).mv.lastSeq = c.mv.lastSeq := by cases x <;> rfl

/-! ### `Part.putNode` -/

@[simp] theorem Part.putNode_now (c : Part) (a : Nat) (n : Node) : (c.putNode a n).now = c.now := rfl
@[simp] theorem Part.putNode_tables (c : Part) (a : Nat) (n : Node) : (c.putNode a n).tables = c.tables := rfl
@[simp] theorem Part.putNode_gens (c : Part) (a : Nat) (n : Node) : (c.putNode a n).gens = c.gens := rfl
@[simp] theorem Part.putNode_inv (c : Part) (a : Nat) (n : Node) : (c.putNode a n).inv = c.inv := rfl
@[simp] theorem Part.putNode_zones (c : Part) (a : Nat) (n : Node) : (c.putNode a n).zones = c.zones := rfl
@[simp] theorem Part.putNode_jobs (c : Part) (a : Nat) (n : Node) : (c.putNode a n).jobs = c.jobs := rfl
@[simp] theorem Part.putNode_mv (c : Part) (a : Nat) (n : Node) : (c.putNode a n).mv = c.mv := rfl
@[simp] theorem Part.putNode_watch (c : Part) (a : Nat) (n : Node) : (c.putNode a n).watch = c.watch := rfl
@[simp] theorem Part.putNode_window (c : Part) (a : Nat) (n : Node) : (c.putNode a n).window = c.window := rfl
@[simp] theorem Part.putNode_ctl (c : Part) (a : Nat) (n : Node) : (c.putNode a n).ctl = c.ctl := rfl
@[simp] theorem Part.putNode_out (c : Part) (a : Nat) (n : Node) : (c.putNode a n).out = c.out := rfl
@[simp] theorem Part.putNode_work (c : Part) (a : Nat) (n : Node) : (c.putNode a n).work = c.work := rfl
@[simp] theorem Part.putNode_bus_enum (c : Part) (a : Nat) (n : Node) : (c.putNode a n).bus.enum = c.bus.enum := rfl
@[simp] theorem Part.putNode_bus_exchange (c : Part) (a : Nat) (n : Node) : (c.putNode a n).bus.exchange = c.bus.exchange := rfl
@[simp] theorem Part.putNode_bus_lastOrder (c : Part) (a : Nat) (n : Node) : (c.putNode a n).bus.lastOrder = c.bus.lastOrder := rfl
@[simp] theorem Part.putNode_bus_lastPoll (c : Part) (a : Nat) (n : Node) : (c.putNode a n).bus.lastPoll = c.bus.lastPoll := rfl
@[simp] theorem Part.putNode_bus_retry (c : Part) (a : Nat) (n : Node) : (c.putNode a n).bus.retry = c.bus.retry := rfl

/-! ### `Part.dropNode` -/

@[simp] theorem Part.dropNode_now (c : Part) (a : Nat) : (c.dropNode a).now = c.now := rfl
@[simp] theorem Part.dropNode_tables (c : Part) (a : Nat) : (c.dropNode a).tables = c.tables := rfl
@[simp] theorem Part.dropNode_gens (c : Part) (a : Nat) : (c.dropNode a).gens = c.gens := rfl
@[simp] theorem Part.dropNode_inv (c : Part) (a : Nat) : (c.dropNode a).inv = c.inv := rfl
@[simp] theorem Part.dropNode_zones (c : Part) (a : Nat) : (c.dropNode a).zones = c.zones := rfl
@[simp] theorem Part.dropNode_jobs (c : Part) (a : Nat) : (c.dropNode a).jobs = c.jobs := rfl
@[simp] theorem Part.dropNode_mv (c : Part) (a : Nat) : (c.dropNode a).mv = c.mv := rfl
@[simp] theorem Part.dropNode_watch (c : Part) (a : Nat) : (c.dropNode a).watch = c.watch := rfl
@[simp] theorem Part.dropNode_window (c : Part) (a : Nat) : (c.dropNode a).window = c.window := rfl
@[simp] theorem Part.dropNode_ctl (c : Part) (a : Nat) : (c.dropNode a).ctl = c.ctl := rfl
@[simp] theorem Part.dropNode_out (c : Part) (a : Nat) : (c.dropNode a).out = c.out := rfl
@[simp] theorem Part.dropNode_work (c : Part) (a : Nat) : (c.dropNode a).work = c.work := rfl
@[simp] theorem Part.dropNode_bus_enum (c : Part) (a : Nat) : (c.dropNode a).bus.enum = c.bus.enum := rfl
@[simp] theorem Part.dropNode_bus_exchange (c : Part) (a : Nat) : (c.dropNode a).bus.exchange = c.bus.exchange := rfl
@[simp] theorem Part.dropNode_bus_lastOrder (c : Part) (a : Nat) : (c.dropNode a).bus.lastOrder = c.bus.lastOrder := rfl
@[simp] theorem Part.dropNode_bus_lastPoll (c : Part) (a : Nat) : (c.dropNode a).bus.lastPoll = c.bus.lastPoll := rfl
@[simp] theorem Part.dropNode_bus_retry (c : Part) (a : Nat) : (c.dropNode a).bus.retry = c.bus.retry := rfl

/-! ### What an operation writes -/

@[simp] theorem Part.say_out (c : Part) (n : Subject) : (c.say n).out = c.out ++ [n] := rfl
@[simp] theorem Part.reach_now (c : Part) (t : Nat) : (c.reach t).now = max c.now t := rfl
@[simp] theorem Part.putOcc_occ (c : Part) (l : Nat) (o : Occ) :
    (c.putOcc l o).inv.occ = Store.setD .unknown c.inv.occ l o := rfl
@[simp] theorem Part.setHint_hints (c : Part) (l : Nat) (h : Hint) :
    (c.setHint l h).inv.hints = Store.setD .missing c.inv.hints l h := rfl
@[simp] theorem Part.putFlags_flags (c : Part) (l : Nat) (f : SlotFlags) :
    (c.putFlags l f).inv.flags = Store.setD SlotFlags.clear c.inv.flags l f := rfl
@[simp] theorem Part.putRec_recs (c : Part) (n : Nat) (r : Rec) : (c.putRec n r).inv.recs = Store.put c.inv.recs n r := rfl
@[simp] theorem Part.dropRec_recs (c : Part) (n : Nat) : (c.dropRec n).inv.recs = Store.erase c.inv.recs n := rfl
@[simp] theorem Part.setCursor_cursor (c : Part) (k : Cursor) : (c.setCursor k).inv.cursor = k := rfl
@[simp] theorem Part.putZone_zones (c : Part) (z : Nat) (r : Zone) :
    (c.putZone z r).zones = Store.setD Zone.cold c.zones z r := rfl
@[simp] theorem Part.putJob_jobs_jobs (c : Part) (j : Nat) (r : Job) :
    (c.putJob j r).jobs.jobs = Store.put c.jobs.jobs j r := rfl
@[simp] theorem Part.dropJob_jobs_jobs (c : Part) (j : Nat) : (c.dropJob j).jobs.jobs = Store.erase c.jobs.jobs j := rfl
@[simp] theorem Part.putPort_jobs_ports (c : Part) (p : Nat) (r : Port) :
    (c.putPort p r).jobs.ports = Store.setD Port.cold c.jobs.ports p r := rfl
@[simp] theorem Part.putNode_roster (c : Part) (a : Nat) (n : Node) :
    (c.putNode a n).bus.roster = Store.put c.bus.roster a n := rfl
@[simp] theorem Part.dropNode_roster (c : Part) (a : Nat) :
    (c.dropNode a).bus.roster = Store.erase c.bus.roster a := rfl
@[simp] theorem Part.putRobot_robot (c : Part) (x : Side) (r : Robot) : (c.putRobot x r).robot x = r := by
  cases x <;> rfl
@[simp] theorem Part.putRobot_robot_other (c : Part) (x : Side) (r : Robot) :
    (c.putRobot x r).robot x.other = c.robot x.other := by cases x <;> rfl

/-! ### The machine -/

@[simp] theorem State.heard_part (s : State) : (s.heard).part = s.part := rfl
@[simp] theorem State.heard_notices (s : State) : (s.heard).notices = s.notices := rfl
@[simp] theorem State.heard_image (s : State) : (s.heard).image = s.image := rfl
@[simp] theorem State.heard_pending (s : State) : (s.heard).pending = s.pending := rfl
@[simp] theorem State.reply_part (s : State) (r : Reply) : (s.reply r).part = s.part := rfl
@[simp] theorem State.reply_notices (s : State) (r : Reply) : (s.reply r).notices = s.notices := rfl
@[simp] theorem State.reply_image (s : State) (r : Reply) : (s.reply r).image = s.image := rfl
@[simp] theorem State.reply_pending (s : State) (r : Reply) : (s.reply r).pending = s.pending := rfl
@[simp] theorem State.heard_state (s : State) : s.heard.link.state = .up := rfl
@[simp] theorem State.heard_replies (s : State) : s.heard.link.replies = s.link.replies := rfl
@[simp] theorem State.heard_sending (s : State) : s.heard.link.sending = s.link.sending := rfl
@[simp] theorem State.heard_error (s : State) : s.heard.link.error = s.link.error := rfl
@[simp] theorem State.heard_mode (s : State) : s.heard.mode = s.mode := rfl
@[simp] theorem State.reply_replies (s : State) (r : Reply) : (s.reply r).link.replies = s.link.replies ++ [r] := rfl
@[simp] theorem State.reply_sending (s : State) (r : Reply) : (s.reply r).link.sending = s.link.sending := rfl
@[simp] theorem State.reply_state (s : State) (r : Reply) : (s.reply r).link.state = s.link.state := rfl
@[simp] theorem State.reply_silence (s : State) (r : Reply) : (s.reply r).link.silence = s.link.silence := rfl
@[simp] theorem State.reply_error (s : State) (r : Reply) : (s.reply r).link.error = s.link.error := rfl
@[simp] theorem State.flush_link (s : State) : s.flush.link = s.link := rfl
@[simp] theorem State.flush_image (s : State) : s.flush.image = s.image := rfl
@[simp] theorem State.flush_pending (s : State) : s.flush.pending = s.pending := rfl
@[simp] theorem State.flush_part (s : State) : s.flush.part = { s.part with out := [] } := rfl
@[simp] theorem State.flush_notices (s : State) :
    s.flush.notices = s.notices.pushAll s.part.now s.part.out := rfl

@[simp] theorem State.transmit_part (s : State) : s.transmit.part = s.part := by
  unfold State.transmit; split <;> try rfl
  split <;> try rfl
  split <;> rfl
@[simp] theorem State.transmit_image (s : State) : s.transmit.image = s.image := by
  unfold State.transmit; split <;> try rfl
  split <;> try rfl
  split <;> rfl
@[simp] theorem State.transmit_pending (s : State) : s.transmit.pending = s.pending := by
  unfold State.transmit; split <;> try rfl
  split <;> try rfl
  split <;> rfl
@[simp] theorem State.transmit_link_state (s : State) : s.transmit.link.state = s.link.state := by
  unfold State.transmit; split <;> try rfl
  split <;> try rfl
  split <;> rfl
@[simp] theorem State.transmit_link_silence (s : State) : s.transmit.link.silence = s.link.silence := by
  unfold State.transmit; split <;> try rfl
  split <;> try rfl
  split <;> rfl
@[simp] theorem State.transmit_link_error (s : State) : s.transmit.link.error = s.link.error := by
  unfold State.transmit; split <;> try rfl
  split <;> try rfl
  split <;> rfl
@[simp] theorem State.transmit_notices_next (s : State) : s.transmit.notices.next = s.notices.next := by
  unfold State.transmit; split <;> try rfl
  split <;> try rfl
  split <;> rfl
@[simp] theorem State.transmit_notices_lost (s : State) : s.transmit.notices.lost = s.notices.lost := by
  unfold State.transmit; split <;> try rfl
  split <;> try rfl
  split <;> rfl

@[simp] theorem State.finish_image (s : State) : s.finish.image = s.image := by simp [State.finish]
@[simp] theorem State.finish_pending (s : State) : s.finish.pending = s.pending := by simp [State.finish]
@[simp] theorem State.finish_part (s : State) : s.finish.part = { s.part.close with out := [] } := by
  simp [State.finish]
@[simp] theorem State.finish_link_state (s : State) : s.finish.link.state = s.link.state := by simp [State.finish]
@[simp] theorem State.finish_link_silence (s : State) : s.finish.link.silence = s.link.silence := by
  simp [State.finish]
@[simp] theorem State.finish_link_error (s : State) : s.finish.link.error = s.link.error := by simp [State.finish]

end Sys2Proof.Machine
end

