-- ==== Sys2Proof/Laws/Store.lean ====
section
/-! SUPPORT. Sparse tables: reading what was written, and the canonical form kept by every operation. -/

namespace Sys2Proof.Machine

variable {α : Type}

/-- The keys of a table rise strictly exactly when they are pairwise increasing. -/
theorem Store.rising_iff (m : Store α) : Store.rising m = true ↔ (m.map Prod.fst).Pairwise (· < ·) := by
  rw [← List.isChain_iff_pairwise]
  fun_induction Store.rising m <;> simp_all

/-- The first key of a table whose keys rise is below all others. -/
theorem Store.rising_cons (e : Nat × α) (t : Store α) :
    Store.rising (e :: t) = true ↔ (∀ k v, (k, v) ∈ t → e.1 < k) ∧ Store.rising t = true := by
  simp [Store.rising_iff]

/-- What a table holds after a write, entry by entry. -/
theorem Store.mem_put {m : Store α} {k : Nat} {v : α} {e : Nat × α} (h : e ∈ Store.put m k v) :
    e = (k, v) ∨ e ∈ m := by
  fun_induction Store.put m k v <;> grind

/-- Erasing gives a sublist. -/
theorem Store.erase_sublist (m : Store α) (k : Nat) : (Store.erase m k).Sublist m := by
  fun_induction Store.erase m k <;> grind

/-- Erasing leaves entries of the table. -/
theorem Store.mem_erase {m : Store α} {k : Nat} {e : Nat × α} (h : e ∈ Store.erase m k) : e ∈ m := by
  exact (Store.erase_sublist m k).subset h

/-- A write keeps the keys rising. -/
theorem Store.rising_put {m : Store α} (h : Store.rising m = true) (k : Nat) (v : α) :
    Store.rising (Store.put m k v) = true := by
  fun_induction Store.put m k v with
  | case1 => rfl
  | case2 => grind [Store.rising_cons]
  | case3 => simpa only [Store.rising_cons] using h
  | case4 j w t k v _ _ ih =>
    have h := (Store.rising_cons _ _).1 h
    refine (Store.rising_cons _ _).2 ⟨fun i x hx => ?_, ih h.2⟩
    have := Store.mem_put hx
    grind

/-- Erasing keeps the keys rising. -/
theorem Store.rising_erase {m : Store α} (h : Store.rising m = true) (k : Nat) :
    Store.rising (Store.erase m k) = true := by
  rw [Store.rising_iff] at *
  exact List.Pairwise.sublist ((Store.erase_sublist m k).map _) h

/-- Taking entries out keeps the keys rising. -/
theorem Store.rising_filter {m : Store α} (h : Store.rising m = true) (p : Nat × α → Bool) :
    Store.rising (m.filter p) = true := by
  rw [Store.rising_iff] at *
  exact List.Pairwise.sublist (List.filter_sublist.map _) h

/-- Changing values alone keeps the keys rising. -/
theorem Store.rising_map {β : Type} {m : Store α} (h : Store.rising m = true) (f : Nat × α → Nat × β)
    (hf : ∀ e, (f e).1 = e.1) : Store.rising (m.map f) = true := by
  rw [Store.rising_iff] at *
  have e : (m.map f).map Prod.fst = m.map Prod.fst := by simp [Function.comp_def, hf]
  rw [e]; exact h

theorem Store.find_map {β : Type} (m : Store α) (f : α → β) (k : Nat) :
    Store.find (m.map fun e => (e.1, f e.2)) k = (Store.find m k).map f := by
  fun_induction Store.find m k <;> grind [Store.find]

/-- What is found is listed. -/
theorem Store.mem_of_find {m : Store α} {k : Nat} {v : α} (h : Store.find m k = some v) : (k, v) ∈ m := by
  fun_induction Store.find m k <;> grind

/-- A key that is not listed is not found. -/
theorem Store.find_none {m : Store α} {k : Nat} (h : ∀ v, (k, v) ∉ m) : Store.find m k = none :=
  Option.eq_none_iff_forall_ne_some.2 fun v hv => h v (Store.mem_of_find hv)

/-- With rising keys, what is listed is found. -/
theorem Store.find_of_mem {m : Store α} (hm : Store.rising m = true) {k : Nat} {v : α} (h : (k, v) ∈ m) :
    Store.find m k = some v := by
  fun_induction Store.find m k <;> grind [Store.rising_cons]

/-- A write is read back. -/
@[simp] theorem Store.find_put_self (m : Store α) (k : Nat) (v : α) : Store.find (Store.put m k v) k = some v := by
  fun_induction Store.put m k v <;> grind [Store.find]

/-- A write leaves every other key as it was. -/
theorem Store.find_put_of_ne (m : Store α) {k j : Nat} (v : α) (h : j ≠ k) :
    Store.find (Store.put m k v) j = Store.find m j := by
  fun_induction Store.put m k v <;> grind [Store.find]

/-- Erasing leaves every other key as it was. -/
theorem Store.find_erase_of_ne (m : Store α) {k j : Nat} (h : j ≠ k) :
    Store.find (Store.erase m k) j = Store.find m j := by
  fun_induction Store.erase m k <;> grind [Store.find]

/-- With rising keys, an erased key is gone. -/
theorem Store.find_erase_self {m : Store α} (hm : Store.rising m = true) (k : Nat) :
    Store.find (Store.erase m k) k = none := by
  refine Store.find_none fun v hv => ?_
  fun_induction Store.erase m k <;> try simp only [Store.rising_cons] at hm
  all_goals grind

section Default

variable [DecidableEq α]

/-- Writing a table with a default keeps its canonical form. -/
theorem Store.wf_setD {d : α} {m : Store α} (h : Store.wf d m = true) (k : Nat) (v : α) :
    Store.wf d (Store.setD d m k v) = true := by
  simp only [Store.wf, Bool.and_eq_true, List.all_eq_true, decide_eq_true_eq] at *
  unfold Store.setD
  split
  · exact ⟨Store.rising_erase h.1 k, fun e he => h.2 e (Store.mem_erase he)⟩
  · refine ⟨Store.rising_put h.1 k v, fun e he => ?_⟩
    rcases Store.mem_put he with rfl | he
    · assumption
    · exact h.2 e he

/-- What a table with a default holds after a write, entry by entry. -/
theorem Store.mem_setD {d : α} {m : Store α} {k : Nat} {v : α} {e : Nat × α} (h : e ∈ Store.setD d m k v) :
    e = (k, v) ∨ e ∈ m := by
  unfold Store.setD at h
  split at h
  · exact .inr (Store.mem_erase h)
  · exact Store.mem_put h

/-- Taking entries out of a table with a default keeps its canonical form. -/
theorem Store.wf_filter {d : α} {m : Store α} (h : Store.wf d m = true) (p : Nat × α → Bool) :
    Store.wf d (m.filter p) = true := by
  simp only [Store.wf, Bool.and_eq_true, List.all_eq_true, decide_eq_true_eq] at *
  exact ⟨Store.rising_filter h.1 p, fun e he => h.2 e (List.mem_filter.1 he).1⟩

/-- What is written to a table with a default is read back. -/
theorem Store.getD_setD_self {d : α} {m : Store α} (h : Store.wf d m = true) (k : Nat) (v : α) :
    Store.getD d (Store.setD d m k v) k = v := by
  simp only [Store.wf, Bool.and_eq_true] at h
  unfold Store.getD Store.setD
  split
  · rename_i hv; rw [Store.find_erase_self h.1]; simp [hv]
  · simp

/-- Writing one key of a table with a default leaves every other as it was. -/
theorem Store.getD_setD_of_ne (d : α) (m : Store α) {k j : Nat} (v : α) (h : j ≠ k) :
    Store.getD d (Store.setD d m k v) j = Store.getD d m j := by
  unfold Store.getD Store.setD
  split
  · rw [Store.find_erase_of_ne m h]
  · rw [Store.find_put_of_ne m v h]

end Default

theorem Store.le_lowestFree (m : Store α) (k : Nat) : k ≤ Store.lowestFree m k := by
  fun_induction Store.lowestFree m k <;> omega

/-- The lowest free key is free. -/
theorem Store.find_lowestFree {m : Store α} (hm : Store.rising m = true) (k : Nat) :
    Store.find m (Store.lowestFree m k) = none ∧ k ≤ Store.lowestFree m k := by
  refine ⟨Store.find_none fun v hv => ?_, Store.le_lowestFree m k⟩
  fun_induction Store.lowestFree m k <;> try simp only [Store.rising_cons] at hm
  all_goals grind [Store.le_lowestFree]

end Sys2Proof.Machine
end

