-- ==== Sys2Proof/Laws/Kept.lean ====
section
/-! SUPPORT. What the blocks' own operations keep, said once for every property. `Kept R` says that the primitive
writes of a cascade keep `R`; each operation of the blocks then has one lemma that it keeps `R` too. Laws/KeptAll.lean
goes on to whole events. -/

namespace Sys2Proof.Machine

/-! ### Changes of a record keep its ID -/

@[simp] theorem Rec.accrue_id (r : Rec) (now rate : Nat) : (r.accrue now rate).id = r.id := by
  unfold Rec.accrue
  split
  · rfl
  · dsimp only
    split <;> rfl

@[simp] theorem Rec.credited_id (r : Rec) (k : Nat) : (r.credited k).id = r.id := by
  unfold Rec.credited
  split <;> rfl

@[simp] theorem Rec.setHold_id (r : Rec) (h : HoldReason) (v : Bool) : (r.setHold h v).id = r.id := by
  cases h <;> rfl

@[simp] theorem Rec.placedAt_id (r : Rec) (k : MoveKind) (d : Nat) : (r.placedAt k d).id = r.id := by
  cases k <;> simp only [Rec.placedAt] <;> split <;> rfl

@[simp] theorem Rec.relocating_id (r : Rec) : r.relocating.id = r.id := by
  unfold Rec.relocating
  split <;> rfl

@[simp] theorem Rec.accrue_place (r : Rec) (now rate : Nat) : (r.accrue now rate).place = r.place := by
  unfold Rec.accrue
  split
  · rfl
  · dsimp only
    split <;> rfl

@[simp] theorem Rec.credited_place (r : Rec) (k : Nat) : (r.credited k).place = r.place := by
  unfold Rec.credited
  split <;> rfl

@[simp] theorem Rec.setHold_place (r : Rec) (h : HoldReason) (v : Bool) : (r.setHold h v).place = r.place := by
  cases h <;> rfl

@[simp] theorem Rec.relocating_place (r : Rec) : r.relocating.place = r.place := by
  unfold Rec.relocating
  split <;> rfl

@[simp] theorem Occ.withVerified_resident (v : Bool) (o : Occ) : (o.withVerified v).resident = o.resident := by
  cases o <;> rfl

@[simp] theorem Rec.warm_place (r : Rec) : r.warm.place = r.place := by
  unfold Rec.warm
  split
  · split <;> rfl
  all_goals rfl

/-! ### What a cascade keeps -/

/-- A change of a zone record keeps it in its ranges and begins no pass. -/
def Zone.keeps (old new : Zone) : Prop := (old.bounded → new.bounded) ∧ (new.pass.isSome → old.pass.isSome)

theorem Zone.keeps_refl (z : Zone) : z.keeps z := ⟨id, id⟩

/-- The primitive writes of a cascade keep `R`, those of the occupancies and the records apart. -/
structure KeptCore (R : Part → Prop) : Prop where
  out : ∀ {c : Part} {o}, R c → R { c with out := o }
  work : ∀ {c : Part} {w}, R c → R { c with work := w }
  watch : ∀ {c : Part} {w}, R c → R { c with watch := w }
  setHint : ∀ {c : Part} {l v}, R c → R (c.setHint l v)
  putFlags : ∀ {c : Part} {l v}, R c → R (c.putFlags l v)
  clearHints : ∀ {c : Part} {k}, R c → R (c.clearHints k)
  rescanList : ∀ {c : Part} {l}, R c → R { c with inv := { c.inv with rescan := l } }
  setCursor : ∀ {c : Part} {k}, R c → R (c.setCursor k)
  putZone : ∀ {c : Part} {z r}, (c.zone z).keeps r → R c → R (c.putZone z r)
  beginPass : ∀ {c : Part} {z q n}, c.passes < c.sched.concurrency → R c →
    R (c.putZone z { c.zone z with pass := some q, nextPass := n })
  updJob : ∀ {c : Part} {j f}, (∀ r, (f r).port = r.port) → R c → R (c.updJob j f)
  newJob : ∀ {c : Part} {j r}, c.freeJob = some j → c.jobsAt r.port < 4 → R c → R (c.putJob j r)
  dropJob : ∀ {c : Part} {j}, R c → R (c.dropJob j)
  putPort : ∀ {c : Part} {p r}, R c → R (c.putPort p r)
  offers : ∀ {c : Part} {l}, R c → R { c with jobs := { c.jobs with offers := l } }
  putNode : ∀ {c : Part} {a n}, R c → R (c.putNode a n)
  dropNode : ∀ {c : Part} {a}, R c → R (c.dropNode a)
  exchange : ∀ {c : Part} {e a b}, R c →
    R { c with bus := { c.bus with exchange := e, lastOrder := a, lastPoll := b } }
  putRobot : ∀ {c : Part} {x r}, R c → R (c.putRobot x r)
  filterMoves : ∀ {c : Part} {p}, R c → R { c with mv := { c.mv with moves := c.mv.moves.filter p } }
  mapMoves : ∀ {c : Part} {f : Move → Move}, (∀ m, (f m).num = m.num ∧ (f m).seq = m.seq) → R c →
    R { c with mv := { c.mv with moves := c.mv.moves.map f } }
  admitMove : ∀ {c : Part} {m k}, c.hasRoom k = true → m.num = c.nextNumber → m.seq = c.mv.lastSeq + 1 → R c →
    R { c with mv := { c.mv with moves := c.mv.moves ++ [m], nextNum := (m.num + 1) % 256, lastSeq := m.seq } }

/-- Changes of an occupancy that names the same record, and of a record that stays where it is, keep `R` too. -/
structure Kept0 (R : Part → Prop) : Prop extends KeptCore R where
  sameOcc : ∀ {c : Part} {l o}, o.resident = (c.occ l).resident → R c → R (c.putOcc l o)
  updRec : ∀ {c : Part} {n f}, (∀ r, (f r).id = r.id ∧ (f r).place = r.place) → R c → R (c.updRec n f)

/-- A record's leaving its location keeps `R` too. -/
structure Kept1 (R : Part → Prop) : Prop extends Kept0 R where
  unplace : ∀ {c : Part} {n o f}, o.resident = none → (∀ r, (f r).id = r.id ∧ ∀ l, (f r).place ≠ .loc l) → R c →
    R ((c.vacate n o).updRec n f)

/-- Every result of an optional action keeps `R`. -/
def Some' (R : Part → Prop) (o : Option Part) : Prop := ∀ d, o = some d → R d

section Basics

variable {R : Part → Prop} {c d : Part}

theorem Some'.none : Some' R none := fun _ h => nomatch h
theorem Some'.some (h : R c) : Some' R (some c) := fun _ e => Option.some.inj e ▸ h
theorem Some'.orElse {x y : Option Part} (hx : Some' R x) (hy : Some' R y) : Some' R (x <|> y) := by
  cases x <;> simp_all [Some']
theorem Some'.getD {x : Option Part} (hx : Some' R x) (h : R c) : R (x.getD c) := by
  cases x <;> simp_all [Some']
theorem Some'.map {α : Type} {x : Option α} {f : α → Part} (hx : ∀ a, x = Option.some a → R (f a)) :
    Some' R (x.map f) := by
  cases x <;> simp_all [Some']
theorem Some'.mapPart {x : Option Part} {f : Part → Part} (hx : Some' R x) (hf : ∀ d, R d → R (f d)) :
    Some' R (x.map f) := Some'.map fun a e => hf a (hx a e)

theorem Kept0.foldl {α : Type} {f : Part → α → Part} (h : R c) (hf : ∀ d a, R d → R (f d a)) (l : List α) :
    R (l.foldl f c) := l.foldlRecOn f h fun d hd a _ => hf d a hd

theorem Kept0.each {f : Part → Nat → Part} {n : Nat} (h : R c) (hf : ∀ d a, R d → R (f d a)) : R (c.each n f) :=
  Kept0.foldl h hf _

end Basics

section Primitives

variable {R : Part → Prop} (K : Kept0 R) {c : Part}
include K

theorem Kept0.say {n : Subject} (h : R c) : R (c.say n) := K.out h

theorem Kept0.signal {g : Sig} (h : R c) : R (c.signal g) := by
  unfold Part.signal
  split
  · exact h
  · exact K.work h

theorem Kept0.setRobot {x : Side} {r : Robot} (h : R c) : R (c.setRobot x r) := by
  unfold Part.setRobot
  dsimp only
  split
  · exact K.signal (K.signal (K.putRobot h))
  · exact K.signal (K.putRobot h)
  · exact K.putRobot h

theorem Kept0.setOcc {l : Nat} {o : Occ} (ho : o.resident = (c.occ l).resident) (h : R c) : R (c.setOcc l o) := by
  unfold Part.setOcc
  dsimp only
  split
  · split
    · exact K.signal (K.sameOcc ho h)
    · split
      · exact K.signal (K.sameOcc ho h)
      · exact K.sameOcc ho h
  · exact K.sameOcc ho h

theorem Kept0.rescan {l : Nat} (h : R c) : R (c.rescan l) := by
  unfold Part.rescan
  split
  · exact K.rescanList h
  · exact h

theorem Kept0.unrescan {l : Nat} (h : R c) : R (c.unrescan l) := K.rescanList h

theorem Kept0.setExchange {e : Option Exchange} (h : R c) : R { c with bus := { c.bus with exchange := e } } :=
  K.exchange h

theorem Kept0.putMove {m : Move} (h : R c) : R (c.putMove m) := by
  refine K.mapMoves (fun k => ?_) h
  split
  · exact ⟨(‹k.num = m.num›).symm, rfl⟩
  · exact ⟨rfl, rfl⟩

end Primitives

section Cascade

variable {R : Part → Prop} (K : Kept0 R) {c : Part}
include K

theorem Kept0.signalPorts (hR : R c) : R c.signalPorts := by
  unfold Part.signalPorts
  try dsimp only
  repeat' first
    | with_reducible assumption | with_reducible refine K.each ?_ | with_reducible refine K.signal ?_
    | with_reducible refine K.attempt ?_ | with_reducible refine Kept0.each ?_ (fun _ _ _ => ?_)

theorem Kept0.setStep {j k : Nat} {f : Step → Step} (hR : R c) : R (c.setStep j k f) := by
  unfold Part.setStep
  try dsimp only
  repeat' first
    | with_reducible assumption | with_reducible refine K.updJob (fun r => ?_) ?_ | split | rfl

theorem Kept0.queueOrder {a : Option Nat} {o : QOrder} (hR : R c) : R (c.queueOrder a o) := by
  unfold Part.queueOrder
  try dsimp only
  repeat' first
    | with_reducible assumption | with_reducible refine K.putNode ?_ | split

theorem Kept0.order {a : Option Nat} {o : Order} (hR : R c) : R (c.order a o) := by
  unfold Part.order
  try dsimp only
  repeat' first
    | with_reducible assumption | with_reducible refine K.queueOrder ?_

theorem Kept0.robotOrder {x : Side} {o : Order} (hR : R c) : R (c.robotOrder x o) := by
  unfold Part.robotOrder
  try dsimp only
  repeat' first
    | with_reducible assumption | with_reducible refine K.order ?_

theorem Kept0.portOrder {p : Nat} {o : Order} (hR : R c) : R (c.portOrder p o) := by
  unfold Part.portOrder
  try dsimp only
  repeat' first
    | with_reducible assumption | with_reducible refine K.order ?_

theorem Kept0.manifoldOrder {z : Nat} {o : Order} (hR : R c) : R (c.manifoldOrder z o) := by
  unfold Part.manifoldOrder
  try dsimp only
  repeat' first
    | with_reducible assumption | with_reducible refine K.order ?_

theorem Kept0.raiseFlag {l : Nat} {f : SlotFlag} (hR : R c) : R (c.raiseFlag l f) := by
  unfold Part.raiseFlag
  try dsimp only
  repeat' first
    | with_reducible assumption | with_reducible refine K.putFlags ?_ | with_reducible refine K.say ?_ | split

theorem Kept0.markStep {j k : Nat} {res : StepResult} {n : Option Nat} (hR : R c) : R (c.markStep j k res n) := by
  unfold Part.markStep
  try dsimp only
  repeat' first
    | with_reducible assumption | with_reducible refine K.setStep ?_ | with_reducible refine K.say ?_ | split

theorem Kept0.markSteps {j : Nat} {sel : StepState → Bool} {res : StepResult} (hR : R c) :
    R (c.markSteps j sel res) := by
  unfold Part.markSteps
  try dsimp only
  repeat' first
    | with_reducible assumption | with_reducible refine K.each ?_ | with_reducible refine K.markStep ?_
    | with_reducible refine Kept0.each ?_ (fun _ _ _ => ?_) | split

theorem Kept0.sendIdle {j : Nat} (hR : R c) : R (c.sendIdle j) := by
  unfold Part.sendIdle
  try dsimp only
  repeat' first
    | with_reducible assumption | with_reducible refine K.portOrder ?_ | with_reducible refine K.putPort ?_ | split

theorem Kept0.unbindWatch {j : Nat} (hR : R c) : R (c.unbindWatch j) := by
  unfold Part.unbindWatch
  try dsimp only
  repeat' first
    | with_reducible assumption | with_reducible refine K.watch ?_

theorem Kept0.followChain {j p q : Nat} (hR : R c) : R (c.followChain j p q) := by
  unfold Part.followChain
  try dsimp only
  repeat' first
    | with_reducible assumption | with_reducible refine K.putPort ?_ | with_reducible refine K.say ?_ | split

theorem Kept0.endJob {j : Nat} {out : JobOutcome} (hR : R c) : R (c.endJob j out) := by
  unfold Part.endJob
  try dsimp only
  repeat' first
    | with_reducible assumption | with_reducible refine K.markSteps ?_ | with_reducible refine K.sendIdle ?_
    | with_reducible refine K.say ?_ | with_reducible refine K.unbindWatch ?_ | with_reducible refine K.dropJob ?_
    | with_reducible refine K.putPort ?_ | with_reducible refine K.followChain ?_ | split

theorem Kept0.afterStep {j : Nat} {failed : Bool} (hR : R c) : R (c.afterStep j failed) := by
  unfold Part.afterStep
  try dsimp only
  repeat' first
    | with_reducible assumption | with_reducible refine K.endJob ?_ | with_reducible refine K.signal ?_
    | with_reducible refine K.attempt ?_ | split

theorem Kept0.endStep {j k : Nat} {res : StepResult} {n : Option Nat} {failed : Bool} (hR : R c) :
    R (c.endStep j k res n failed) := by
  unfold Part.endStep
  try dsimp only
  repeat' first
    | with_reducible assumption | with_reducible refine K.markStep ?_ | with_reducible refine K.afterStep ?_

theorem Kept0.restoreReady {p : Nat} {time : Option Nat} (hR : R c) : R (c.restoreReady p time) := by
  unfold Part.restoreReady
  try dsimp only
  repeat' first
    | with_reducible assumption | with_reducible refine K.putPort ?_ | with_reducible refine K.signal ?_
    | with_reducible refine K.attempt ?_ | split

theorem Kept0.serveReturn {p : Nat} (hR : R c) : R (c.serveReturn p) := by
  unfold Part.serveReturn
  try dsimp only
  repeat' first
    | with_reducible assumption | with_reducible refine K.putPort ?_ | with_reducible refine K.signal ?_
    | with_reducible refine K.attempt ?_ | split

theorem Kept0.endReturn {p : Nat} (hR : R c) : R (c.endReturn p) := by
  unfold Part.endReturn
  try dsimp only
  repeat' first
    | with_reducible assumption | with_reducible refine K.putPort ?_ | with_reducible refine K.serveReturn ?_ | split

theorem Kept0.newReturn {p : Nat} {pod : Pod} {forced : Bool} (hR : R c) : R (c.newReturn p pod forced) := by
  unfold Part.newReturn
  try dsimp only
  repeat' first
    | with_reducible assumption | with_reducible refine K.putPort ?_ | with_reducible refine K.signal ?_

theorem Kept0.endReturnOf {n : Nat} {l : Nat} (hR : R c) : R (c.endReturnOf n l) := by
  unfold Part.endReturnOf
  try dsimp only
  repeat' first
    | with_reducible assumption | with_reducible refine K.endReturn ?_ | split

theorem Kept0.returnMoveEnd {m : Move} {res : MoveResult} (hR : R c) : R (c.returnMoveEnd m res) := by
  unfold Part.returnMoveEnd
  try dsimp only
  repeat' first
    | with_reducible assumption | with_reducible refine K.putPort ?_ | with_reducible refine K.signal ?_
    | with_reducible refine K.endReturn ?_ | with_reducible refine K.newReturn ?_ | split

theorem Kept0.stepMoveEnd {m : Move} {j k : Nat} {res : MoveResult} (hR : R c) : R (c.stepMoveEnd m j k res) := by
  unfold Part.stepMoveEnd
  try dsimp only
  repeat' first
    | with_reducible assumption | with_reducible refine K.restoreReady ?_ | with_reducible refine K.returnMoveEnd ?_
    | with_reducible refine K.endStep ?_ | with_reducible refine K.sendIdle ?_ | split

theorem Kept0.removeMove {m : Move} (hR : R c) : R (c.removeMove m) := by
  unfold Part.removeMove
  try dsimp only
  repeat' first
    | with_reducible assumption | with_reducible refine K.signal ?_ | with_reducible refine K.filterMoves ?_ | split

theorem Kept0.endMove {m : Move} {res : MoveResult} (hR : R c) : R (c.endMove m res) := by
  unfold Part.endMove
  try dsimp only
  repeat' first
    | with_reducible assumption | with_reducible refine K.removeMove ?_ | with_reducible refine K.stepMoveEnd ?_
    | with_reducible refine K.returnMoveEnd ?_ | with_reducible refine K.rescan ?_ | with_reducible refine K.say ?_
    | split

theorem Kept0.endPendingOf {n : Nat} {cause : CancelCause} (hR : R c) : R (c.endPendingOf n cause) := by
  unfold Part.endPendingOf
  try dsimp only
  repeat' first
    | with_reducible assumption | with_reducible refine K.endMove ?_
    | with_reducible refine Kept0.foldl ?_ (fun _ _ _ => ?_) _

theorem Kept0.release {n : Nat} (hR : R c) : R (c.release n) := by
  unfold Part.release
  try dsimp only
  repeat' first
    | with_reducible assumption | with_reducible refine K.updRec (fun r => ?_) ?_ | exact ⟨rfl, rfl⟩ | split

theorem Kept0.cancelMove {m : Move} {cause : CancelCause} (hR : R c) : R (c.cancelMove m cause) := by
  unfold Part.cancelMove
  try dsimp only
  repeat' first
    | with_reducible assumption | with_reducible refine K.release ?_ | with_reducible refine K.endMove ?_ | split

theorem Kept0.signalReturnOf {n : Nat} {r : Rec} (hR : R c) : R (c.signalReturnOf n r) := by
  unfold Part.signalReturnOf
  try dsimp only
  repeat' first
    | with_reducible assumption | with_reducible refine K.signal ?_ | split

theorem Kept0.holdActs {n : Nat} {r : Rec} (hR : R c) : R (c.holdActs n r) := by
  unfold Part.holdActs
  try dsimp only
  repeat' first
    | with_reducible assumption | with_reducible refine K.endMove ?_ | with_reducible refine K.portOrder ?_ | split

theorem Kept0.addHold {n : Nat} {h : HoldReason} (hR : R c) : R (c.addHold n h) := by
  unfold Part.addHold
  try dsimp only
  repeat' first
    | with_reducible assumption | with_reducible refine K.updRec (fun r => ?_) ?_ | exact ⟨rfl, rfl⟩ | with_reducible refine K.say ?_
    | with_reducible refine K.holdActs ?_ | with_reducible refine K.signalReturnOf ?_ | split | rfl | simp

theorem Kept0.clearHold {n : Nat} {h : HoldReason} {byPart : Bool} (hR : R c) : R (c.clearHold n h byPart) := by
  unfold Part.clearHold
  try dsimp only
  repeat' first
    | with_reducible assumption | with_reducible refine K.updRec (fun r => ?_) ?_ | exact ⟨rfl, rfl⟩ | with_reducible refine K.say ?_
    | with_reducible refine K.signalReturnOf ?_ | split | rfl | simp

theorem Kept0.threshold {n : Nat} {down : Bool} (hR : R c) : R (c.threshold n down) := by
  unfold Part.threshold
  try dsimp only
  repeat' first
    | with_reducible assumption | with_reducible refine K.addHold ?_ | with_reducible refine K.clearHold ?_ | split

theorem Kept0.accrueRec {n : Nat} (hR : R c) : R (c.accrueRec n) := by
  unfold Part.accrueRec
  try dsimp only
  repeat' first
    | with_reducible assumption | with_reducible refine K.updRec (fun r => ?_) ?_ | exact ⟨rfl, rfl⟩ | split | rfl | simp

theorem Kept0.settle {n : Nat} (hR : R c) : R (c.settle n) := by
  unfold Part.settle
  try dsimp only
  repeat' first
    | with_reducible assumption | with_reducible refine K.accrueRec ?_ | with_reducible refine K.threshold ?_

theorem Kept0.fixProtection {n : Nat} (hR : R c) : R (c.fixProtection n) := by
  unfold Part.fixProtection
  try dsimp only
  repeat' first
    | with_reducible assumption | with_reducible refine K.accrueRec ?_
    | with_reducible refine K.updRec (fun r => ?_) ?_ | exact ⟨rfl, rfl⟩ | with_reducible refine K.threshold ?_ | split

theorem Kept0.limboAccount {n : Nat} (hR : R c) : R (c.limboAccount n) := by
  unfold Part.limboAccount
  try dsimp only
  repeat' first
    | with_reducible assumption | with_reducible refine K.settle ?_ | with_reducible refine K.updRec (fun r => ?_) ?_ | exact ⟨rfl, rfl⟩
    | split

theorem Kept0.fixZone {z : Nat} (hR : R c) : R (c.fixZone z) := by
  unfold Part.fixZone
  try dsimp only
  repeat' first
    | with_reducible assumption | with_reducible refine K.fixProtection ?_
    | with_reducible refine Kept0.foldl ?_ (fun _ _ _ => ?_) _

theorem Kept0.creditZone {z : Nat} (hR : R c) : R (c.creditZone z) := by
  unfold Part.creditZone
  try dsimp only
  repeat' first
    | with_reducible assumption | with_reducible refine K.updRec (fun r => ?_) ?_ | exact ⟨rfl, rfl⟩
    | with_reducible refine K.threshold ?_ | with_reducible refine Kept0.foldl ?_ (fun _ _ _ => ?_) _ | split | rfl
    | simp

theorem Kept0.endOffer {n : Nat} {res : StepResult} (hR : R c) : R (c.endOffer n res) := by
  unfold Part.endOffer
  try dsimp only
  repeat' first
    | with_reducible assumption | with_reducible refine K.portOrder ?_ | with_reducible refine K.endStep ?_ | split

theorem Kept0.endCommitments {n : Nat} {cause : CancelCause} (hR : R c) : R (c.endCommitments n cause) := by
  unfold Part.endCommitments
  try dsimp only
  repeat' first
    | with_reducible assumption | with_reducible refine K.endReturnOf ?_ | with_reducible refine K.endPendingOf ?_
    | with_reducible refine K.endOffer ?_ | split

theorem Kept0.setKind {n kind : Nat} (hR : R c) : R (c.setKind n kind) := by
  unfold Part.setKind
  try dsimp only
  repeat' first
    | with_reducible assumption | with_reducible refine K.updRec (fun r => ?_) ?_ | exact ⟨rfl, rfl⟩

theorem Kept0.placedAccount {n l : Nat} (hR : R c) : R (c.placedAccount n l) := by
  unfold Part.placedAccount
  try dsimp only
  repeat' first
    | with_reducible assumption | with_reducible refine K.limboAccount ?_ | with_reducible refine K.fixProtection ?_
    | split

theorem Kept0.endForeignReturn {l : Nat} (hR : R c) : R (c.endForeignReturn l) := by
  unfold Part.endForeignReturn
  try dsimp only
  repeat' first
    | with_reducible assumption | with_reducible refine K.endReturn ?_ | split

end Cascade

section Cascade1

variable {R : Part → Prop} (K : Kept1 R) {c : Part}
include K

theorem Kept1.makeLost {n : Nat} {cause : LostCause} (hR : R c) : R (c.makeLost n cause) := by
  unfold Part.makeLost
  split
  · exact hR
  · exact K.limboAccount (K.say (K.unplace rfl (fun _ => ⟨rfl, nofun⟩) hR))

theorem Kept1.makeInDoubt {n : Nat} (hR : R c) : R (c.makeInDoubt n) :=
  K.limboAccount (K.unplace rfl (fun _ => ⟨rfl, nofun⟩) hR)

theorem Kept1.displace {l : Nat} {cause : LostCause} (hR : R c) : R (c.displace l cause) := by
  unfold Part.displace
  try dsimp only
  repeat' first
    | with_reducible assumption | with_reducible refine K.endCommitments ?_ | with_reducible refine K.makeLost ?_
    | with_reducible refine K.raiseFlag ?_ | split

theorem Kept1.evict {l : Nat} {own : Option Nat} (hR : R c) : R (c.evict l own) := by
  unfold Part.evict
  split
  · exact K.displace hR
  · exact hR

theorem Kept1.doubt {l : Nat} (hR : R c) : R (c.doubt l) := by
  unfold Part.doubt
  repeat' first
    | with_reducible assumption | with_reducible refine K.makeInDoubt ?_ | with_reducible refine K.endCommitments ?_
    | split

end Cascade1

/-! ### Where a pod may come to stand -/

/-- The primitive writes of a cascade keep `R`: a location loses its pod, a record comes to stand at a location, is
created there or elsewhere, or is removed. -/
structure Kept (R : Part → Prop) : Prop extends Kept1 R where
  gone : ∀ {c : Part} {n l o cause}, (c.occ l).resident = some n → o.resident = none → R c →
    R ((c.makeLost n cause).setOcc l o)
  emptied : ∀ {c : Part} {l o cause}, o.resident = none → R c → R ((c.displace l cause).setOcc l o)
  doubted : ∀ {c : Part} {l o}, o.resident = none → R c → R ((c.doubt l).setOcc l o)
  arrive : ∀ {c : Part} {n l left f}, left.resident = none → (∀ r, (f r).id = r.id) → R c →
    R ((c.evict l (some n)).putPod n l left f)
  create : ∀ {c : Part} {n l cause} {r : Rec}, r.place = .loc l → (c.displace l cause).freeRec = some n →
    c.findId r.id = none → R c → R (((c.displace l cause).putRec n r).setOcc l (.occupied n true))
  declareAt : ∀ {c : Part} {n l} {r : Rec}, r.place = .loc l → c.freeRec = some n → c.findId r.id = none →
    (c.occ l).resident = none → R c → R (((c.putRec n r).signal (.reticle n)).setOcc l (.occupied n false))
  newRec : ∀ {c : Part} {n} {r : Rec}, (∀ l, r.place ≠ .loc l) → c.freeRec = some n → c.findId r.id = none → R c →
    R (c.putRec n r)
  remove : ∀ {c : Part} {n o}, o.resident = none → R c → R ((c.vacate n o).dropRec n)

/-- `R` is kept whatever an occupancy or a record becomes, so long as IDs stay. -/
structure KeptFree0 (R : Part → Prop) : Prop extends KeptCore R where
  putOcc : ∀ {c : Part} {l o}, R c → R (c.putOcc l o)
  updRec : ∀ {c : Part} {n f}, (∀ r, (f r).id = r.id) → R c → R (c.updRec n f)
  dropRec : ∀ {c : Part} {n}, R c → R (c.dropRec n)

/-- `R` is kept whatever an occupancy or a record becomes. -/
structure KeptFree (R : Part → Prop) : Prop extends KeptFree0 R where
  newRec : ∀ {c : Part} {n r}, c.freeRec = some n → c.findId r.id = none → R c → R (c.putRec n r)

section Free

variable {R : Part → Prop} {c : Part}

theorem KeptFree0.kept0 (F : KeptFree0 R) : Kept0 R :=
  { F with sameOcc := fun _ => F.putOcc, updRec := fun hf => F.updRec fun r => (hf r).1 }

theorem KeptFree0.setOcc (F : KeptFree0 R) {l : Nat} {o : Occ} (h : R c) : R (c.setOcc l o) := by
  unfold Part.setOcc
  dsimp only
  split
  · split
    · exact F.kept0.signal (F.putOcc h)
    · split
      · exact F.kept0.signal (F.putOcc h)
      · exact F.putOcc h
  · exact F.putOcc h

theorem KeptFree0.vacate (F : KeptFree0 R) {n : Nat} {o : Occ} (h : R c) : R (c.vacate n o) := by
  unfold Part.vacate
  split
  · split
    · exact F.setOcc h
    · exact h
  · exact h

theorem KeptFree0.putPod (F : KeptFree0 R) {n l : Nat} {o : Occ} {f : Rec → Rec} (hf : ∀ r, (f r).id = r.id) (h : R c) :
    R (c.putPod n l o f) := by
  unfold Part.putPod
  split
  · exact F.updRec hf (F.setOcc (F.vacate h))
  · exact h

theorem KeptFree0.kept1 (F : KeptFree0 R) : Kept1 R :=
  { F.kept0 with unplace := fun _ hf h => F.updRec (fun r => (hf r).1) (F.vacate h) }

/-- An ID no record carries stays so, where no record is created. -/
theorem kept_unused (x : RetId) : KeptFree0 fun c => c.findId x = none where
  out h := h
  work h := h
  watch h := h
  putOcc h := h
  setHint h := h
  putFlags h := h
  clearHints h := h
  rescanList h := h
  setCursor h := h
  dropRec h := by
    unfold Part.findId at *
    exact List.find?_eq_none.2 fun e he => List.find?_eq_none.1 h e (Store.mem_erase he)
  updRec {c n f} hf h := by
    unfold Part.updRec
    split
    · exact h
    · rename_i r hr
      have key : (c.putRec n (f r)).findId x = none := by
        unfold Part.findId at *
        refine List.find?_eq_none.2 fun e he => ?_
        rcases Store.mem_put he with rfl | he
        · have := List.find?_eq_none.1 h (n, r) (Store.mem_of_find hr)
          simpa [hf r] using this
        · exact List.find?_eq_none.1 h e he
      dsimp only
      split
      · exact key
      · simpa [Part.findId] using key
  putZone _ h := h
  beginPass _ h := h
  updJob {c j f} _ h := by
    unfold Part.updJob
    split <;> exact h
  newJob _ _ h := h
  dropJob h := h
  putPort h := h
  offers h := h
  putNode h := h
  dropNode h := h
  exchange h := h
  putRobot {c x r} h := by cases x <;> exact h
  filterMoves h := h
  mapMoves _ h := h
  admitMove _ _ _ h := h

/-- A property that no occupancy and no record's place bears on is kept. -/
theorem KeptFree.kept (F : KeptFree R) : Kept R :=
  { F.kept1 with
    gone := fun _ _ h => F.setOcc (F.kept1.makeLost h)
    emptied := fun _ h => F.setOcc (F.kept1.displace h)
    doubted := fun _ h => F.setOcc (F.kept1.doubt h)
    arrive := fun _ hf h => F.putPod hf (F.kept1.evict h)
    create := fun _ hn hx h => F.setOcc (F.newRec hn ((kept_unused _).kept1.displace hx) (F.kept1.displace h))
    declareAt := fun _ hn hx _ h => F.setOcc (F.kept0.signal (F.newRec hn hx h))
    newRec := fun _ => F.newRec
    remove := fun _ h => F.dropRec (F.vacate h) }

end Free

section Cascade2

variable {R : Part → Prop} (K : Kept R) {c : Part}
include K

theorem Kept.clear {l : Nat} {own : Option Nat} {o : Occ} (ho : o.resident = none) (hR : R c) :
    R (c.clear l own o) := by
  unfold Part.clear
  split
  · exact hR
  · exact K.doubted ho hR

theorem Kept.emptiedFor {l : Nat} {o : Occ} (ho : o.resident = none) (hR : R c) : R ((c.evict l none).setOcc l o) := by
  have e : c.evict l none = c.displace l .otherPod := by
    unfold Part.evict Part.displace
    cases (c.occ l).resident <;> simp
  rw [e]
  exact K.emptied ho hR

theorem Kept.presence {s : Nat} {v snapshot : Bool} (hR : R c) : R (c.presence s v snapshot) := by
  unfold Part.presence
  extract_lets h same c1
  have h1 : R c1 := K.setHint hR
  have e : c1.occ s = c.occ s := rfl
  clear_value c1
  split
  · exact h1
  · split
    · rename_i ho _
      exact K.rescan (K.raiseFlag (K.setOcc (by rw [e, ho]; rfl) h1))
    · rename_i n seen ho _
      have h2 : R (((c1.makeLost n .presence).setOcc s .vacant).endPendingOf n .lostSource) :=
        K.endPendingOf (K.gone (by rw [e, ho]; rfl) rfl h1)
      dsimp only
      split
      · exact K.raiseFlag h2
      · exact h2
    · rename_i ho _
      exact K.setOcc (by rw [e, ho]; rfl) h1
    · rename_i ho _
      exact K.setOcc (by rw [e, ho]; rfl) h1
    · exact h1

theorem Kept.readMoved {m l kind : Nat} {r : Rec} (hR : R c) : R (c.readMoved m l kind r) := by
  unfold Part.readMoved
  extract_lets seen c1 c2 c3 c4
  have h1 : R c1 := K.endCommitments hR
  have h2 : R c2 := by
    unfold c2
    repeat' first
      | with_reducible assumption | with_reducible refine K.raiseFlag ?_ | with_reducible refine K.rescan ?_ | split
  have h4 : R c4 := K.placedAccount (K.arrive rfl (fun _ => rfl) h2)
  split
  · exact K.addHold h4
  · exact h4

theorem Kept.readContradicts {m l kind : Nat} (hR : R c) : R (c.readContradicts m l kind) := by
  have h1 : R ((c.displace l .otherPod).setOcc l .unknown) := K.emptied rfl hR
  unfold Part.readContradicts
  try dsimp only
  repeat' first
    | with_reducible assumption
    | with_reducible refine K.rescan ?_ | with_reducible refine K.raiseFlag ?_ | with_reducible refine K.addHold ?_
    | with_reducible refine K.setKind ?_ | split

theorem Kept.readEmpty {l : Nat} {ownPick : Bool} (hR : R c) : R (c.readEmpty l ownPick) := K.emptied rfl hR

theorem Kept.readUnreadable {l kind : Nat} (hR : R c) : R (c.readUnreadable l kind) := by
  unfold Part.readUnreadable
  try dsimp only
  repeat' first
    | with_reducible assumption | with_reducible refine K.clear rfl ?_
    | with_reducible refine K.newReturn ?_ | with_reducible refine K.endReturn ?_
    | split

theorem Kept.readNew {x : RetId} {l kind : Nat} (hx : c.findId x = none) (hR : R c) : R (c.readNew x l kind) := by
  unfold Part.readNew
  dsimp only
  split
  · exact K.say (K.emptied rfl hR)
  · rename_i n hn
    exact K.threshold (K.fixProtection (K.signal (K.create rfl hn hx hR)))

theorem Kept.applyRead {l : Nat} {read : Read} {kind : Nat} {own : Option Nat} (hR : R c) :
    R (c.applyRead l read kind own) := by
  unfold Part.applyRead
  try dsimp only
  repeat' first
    | with_reducible assumption | with_reducible refine K.readEmpty ?_ | with_reducible refine K.readUnreadable ?_
    | with_reducible refine K.readNew ?_ | with_reducible refine K.sameOcc (Occ.withVerified_resident _ _) ?_
    | with_reducible refine K.setKind ?_ | with_reducible refine K.readContradicts ?_ | with_reducible refine K.readMoved ?_
    | exact K.readNew (by assumption) hR | split

theorem Kept.readAt {l : Nat} {read : Read} {kind : Nat} {own : Option Nat} (hR : R c) :
    R (c.readAt l read kind own) := by
  have key : ∀ {d : Part} {o o'}, R d → R { ({ d with out := o }.applyRead l read.norm kind own).endForeignReturn l with
      out := o' } := fun h => K.out (K.endForeignReturn (K.applyRead (K.out h)))
  unfold Part.readAt
  extract_lets
  split
  · exact K.rescan hR
  · exact key (K.unrescan hR)

theorem Kept.zoneSettled {z : Nat} {dis prot : Bool} (hR : R c) : R (c.zoneSettled z dis prot) := by
  unfold Part.zoneSettled
  try dsimp only
  repeat' first
    | with_reducible assumption | with_reducible refine K.say ?_ | with_reducible refine K.fixZone ?_
    | with_reducible refine K.signal ?_ | split

theorem Kept.updZone {z : Nat} {f : Zone → Zone} (hf : (c.zone z).keeps (f (c.zone z))) (hR : R c) :
    R (c.updZone z f) := K.zoneSettled (K.putZone hf hR)

theorem Kept.failOnLoss {z : Nat} (hR : R c) : R (c.failOnLoss z) := by
  unfold Part.failOnLoss
  split
  · exact K.say (K.updZone ⟨id, nofun⟩ hR)
  · exact hR

theorem Kept.evalSupply {z : Nat} (hR : R c) : R (c.evalSupply z) := by
  unfold Part.evalSupply
  extract_lets bad c1
  refine K.updZone ⟨id, id⟩ ?_
  unfold c1
  split
  · exact K.failOnLoss hR
  · exact hR

theorem Kept.rosterChanged {a : Nat} (hR : R c) : R (c.rosterChanged a) := by
  unfold Part.rosterChanged
  try dsimp only
  repeat' first
    | with_reducible assumption | with_reducible refine K.each ?_ | with_reducible refine K.evalSupply ?_
    | with_reducible refine Kept0.each ?_ (fun _ _ _ => ?_) | split

theorem Kept.manifoldLoss {a : Nat} (hR : R c) : R (c.manifoldLoss a) := by
  unfold Part.manifoldLoss
  try dsimp only
  repeat' first
    | with_reducible assumption | with_reducible refine K.each ?_ | with_reducible refine K.failOnLoss ?_
    | with_reducible refine K.rosterChanged ?_ | with_reducible refine Kept0.each ?_ (fun _ _ _ => ?_) | split

theorem Kept.intervalPassed {z : Nat} (hR : R c) : R (c.intervalPassed z) := by
  unfold Part.intervalPassed
  extract_lets timer
  split
  · exact K.updZone ⟨fun h => ⟨by dsimp only; omega, by have := h.2.1; dsimp only; omega, h.2.2⟩, id⟩ hR
  · split
    · exact K.updZone ⟨id, id⟩ hR
    · exact K.updZone ⟨id, id⟩ (K.say hR)

theorem Kept.issuePass {z : Nat} (hp : c.passes < c.sched.concurrency) (hR : R c) : R (c.issuePass z) :=
  K.manifoldOrder (K.beginPass hp hR)

theorem Kept.supplyOnce (hR : R c) : Some' R c.supplyOnce := by
  unfold Part.supplyOnce
  split
  · exact Some'.map fun _ _ => K.issuePass ‹_› hR
  · exact Some'.none

theorem Kept.passSucceeds {z : Nat} (hR : R c) : R (c.passSucceeds z) := by
  unfold Part.passSucceeds
  refine K.creditZone (K.updZone ⟨fun h => ⟨?_, ?_, Nat.zero_le _⟩, nofun⟩ hR) <;> obtain ⟨h1, h2, -⟩ := h <;> dsimp only <;>
    split <;> omega

theorem Kept.passFails {z : Nat} {cause : PassFail} (hR : R c) : R (c.passFails z cause) := by
  unfold Part.passFails
  split
  · exact hR
  · extract_lets n c1
    have h1 : R c1 := K.updZone ⟨fun h => ⟨h.1, h.2.1, Nat.min_le_left _ _⟩, nofun⟩ (K.say hR)
    split
    · exact K.manifoldOrder h1
    · exact h1

theorem Kept.purgeDone {a channel pass : Nat} {ok : Bool} (hR : R c) : R (c.purgeDone a channel pass ok) := by
  unfold Part.purgeDone
  try dsimp only
  repeat' first
    | with_reducible assumption | with_reducible refine K.passSucceeds ?_ | with_reducible refine K.passFails ?_
    | with_reducible refine K.say ?_ | split

theorem Kept.abortPass {z : Nat} (hR : R c) : R (c.abortPass z) := by
  unfold Part.abortPass
  split
  · exact K.manifoldOrder (K.putZone ⟨id, nofun⟩ hR)
  · exact hR

theorem Kept.abortPasses (hR : R c) : R c.abortPasses := by
  unfold Part.abortPasses
  try dsimp only
  repeat' first
    | with_reducible assumption | with_reducible refine K.each ?_ | with_reducible refine K.abortPass ?_
    | with_reducible refine Kept0.each ?_ (fun _ _ _ => ?_)

theorem Kept.clearMarks (hR : R c) : R c.clearMarks := Kept0.each hR fun _ _ h => K.putZone ⟨id, id⟩ h

theorem Kept.fixSlot {s : Nat} (hR : R c) : R (c.fixSlot s) := by
  unfold Part.fixSlot
  try dsimp only
  repeat' first
    | with_reducible assumption | with_reducible refine K.fixProtection ?_ | split

theorem Kept.sealReport {a s : Nat} (hR : R c) : R (c.sealReport a s) := by
  unfold Part.sealReport
  try dsimp only
  repeat' first
    | with_reducible assumption | with_reducible refine K.raiseFlag ?_ | with_reducible refine K.fixSlot ?_ | split

theorem Kept.flagWatch {hits : List Nat} (hR : R c) : R (c.flagWatch hits) := by
  unfold Part.flagWatch
  try dsimp only
  repeat' first
    | with_reducible assumption | with_reducible refine K.watch ?_

theorem Kept.watchHold {m : Move} (hR : R c) : R (c.watchHold m) := by
  unfold Part.watchHold
  try dsimp only
  repeat' first
    | with_reducible assumption | with_reducible refine K.flagWatch ?_ | with_reducible refine K.say ?_
    | with_reducible refine K.watch ?_

theorem Kept.watchSeen {m : Move} {id : Option RetId} {hits : List Nat} (hR : R c) : R (c.watchSeen m id hits) := by
  unfold Part.watchSeen
  try dsimp only
  repeat' first
    | with_reducible assumption | with_reducible refine K.flagWatch ?_ | with_reducible refine K.say ?_ | split

theorem Kept.enlist {m : Move} {k : MoveKind} (hr : c.hasRoom k = true) (hn : m.num = c.nextNumber)
    (hs : m.seq = c.mv.lastSeq + 1) (hR : R c) : R (c.enlist m) := by
  have key : ∀ m1 : Move, m1.num = m.num → m1.seq = m.seq →
      R { c with mv := { c.mv with
        moves := c.mv.moves ++ [m1], nextNum := (m.num + 1) % 256, lastSeq := m.seq } } := by
    intro m1 e1 e2
    rw [← e1, ← e2]
    exact K.admitMove hr (e1.trans hn) (e2.trans hs) hR
  unfold Part.enlist
  dsimp only
  repeat' first
    | exact key _ rfl rfl | with_reducible refine K.watchHold ?_ | with_reducible refine K.signal ?_ | split

omit K in
theorem Part.enlist_occ {m : Move} {l : Nat} : (c.enlist m).occ l = c.occ l := by
  have hs : ∀ (d : Part) g, (d.signal g).occ l = d.occ l := fun d g => by
    unfold Part.signal
    split <;> rfl
  have hw : ∀ (d : Part) m, (d.watchHold m).occ l = d.occ l := fun _ _ => rfl
  unfold Part.enlist
  dsimp only
  split
  · rw [hw]
    split
    · rw [hs]; rfl
    · rfl
  · split
    · rw [hs]; rfl
    · rfl

omit K in
/-- A pod with no record stands FOREIGN where a move is to take it (R112). -/
theorem Part.locationsFit_foreign {q : Ask} {n : Option Nat} (h : c.locationsFit q = some n) (hk : q.kind ≠ .scan)
    {s : Nat} (hs : q.src = some s) (hn : n = none) : (c.occ s).resident = none := by
  subst hn
  unfold Part.locationsFit at h
  rw [hs] at h
  split at h
  · exact absurd ‹q.kind = .scan› hk
  · exact absurd ‹q.kind = .scan› hk
  · rename_i e _ _
    obtain rfl := Option.some.inj e
    unfold Part.podStanding at h
    split at h
    · cases h
    · rename_i pod hp
      split at hp
      · cases hr : c.rec? ‹Nat› with
        | none => simp [hr] at hp
        | some r =>
          rw [hr] at hp
          simp only [Option.map_some, Option.some.injEq] at hp
          subst hp
          simp at h
      · rename_i ho
        rw [ho]; rfl
      · cases hp
  · contradiction

theorem Kept.giveKind {m : Move} (hm : ∀ s, m.kind = .manual → m.src = some s → m.podKind.isSome → (c.occ s).resident = none)
    (hR : R c) : R (c.giveKind m) := by
  unfold Part.giveKind
  split
  · rename_i h1 h2 h3
    exact K.sameOcc (hm _ h1 h2 (by rw [h3]; rfl)).symm hR
  · exact hR

omit K in
/-- What an admission that succeeds has found and done (R112): room for the kind, a robot, the reticle its locations fit,
a destination, and the move enlisted. -/
theorem Part.admitAsk_ok {q : Ask} {d : Part} {m : Move} (he : c.admitAsk q = .ok (d, m)) :
    c.hasRoom q.kind = true ∧ ∃ x n l, c.locationsFit q = some n ∧
      d = (c.enlist (c.moveOf q x n (some l))).giveKind (c.moveOf q x n (some l)) := by
  grind [Part.admitAsk]

theorem Kept.admitAsk {q : Ask} {d : Part} {m : Move} (hR : R c) (he : c.admitAsk q = .ok (d, m)) : R d := by
  obtain ⟨hr, x, n, l, hn, rfl⟩ := Part.admitAsk_ok he
  refine K.giveKind (fun s h1 h2 h3 => ?_) (K.enlist hr rfl rfl hR)
  rw [Part.enlist_occ]
  refine Part.locationsFit_foreign hn (fun e => nomatch (e.symm.trans h1 : MoveKind.scan = .manual)) h2 ?_
  cases n with
  | none => rfl
  | some k => simp [Part.moveOf] at h3

theorem Kept.reassign {held : Bool} (hR : R c) : Some' R (c.reassign held) := by
  unfold Part.reassign
  dsimp only
  split
  · refine Some'.some (K.mapMoves (fun m => ?_) hR)
    split <;> exact ⟨rfl, rfl⟩
  · exact Some'.none

theorem Kept.dispatched {m : Move} (hR : R c) : R (c.dispatched m) := by
  unfold Part.dispatched
  try dsimp only
  repeat' first
    | with_reducible assumption | with_reducible refine K.setStep ?_ | with_reducible refine K.sendIdle ?_ | split

omit K in
theorem Part.setOcc_inv {l : Nat} {o : Occ} : (c.setOcc l o).inv = (c.putOcc l o).inv := by
  unfold Part.setOcc Part.signal
  dsimp only
  repeat' split
  all_goals rfl

omit K in
theorem Part.setOcc_occ_ne {l k : Nat} {o : Occ} (h : l ≠ k) : (c.setOcc l o).occ k = c.occ k := by
  unfold Part.occ
  rw [Part.setOcc_inv]
  exact Store.getD_setD_of_ne _ _ _ h.symm

theorem Kept.grantPlaces {m : Move} (hs : c.sourceHolds m = true) (hd : ∀ d, m.dst = some d → c.occ d = .vacant)
    (hR : R c) : R (c.grantPlaces m) := by
  unfold Part.grantPlaces
  split
  · rename_i n s d hm hsrc hdst
    have h1 : c.occ s = .occupied n (c.occ s).verified := by
      unfold Part.sourceHolds at hs
      rw [hsrc, hm] at hs
      dsimp only at hs
      rw [Bool.and_eq_true] at hs
      cases ho : c.occ s with
      | occupied k v =>
        rw [ho] at hs
        simp only [beq_iff_eq] at hs
        rw [hs.1]; rfl
      | _ => rw [ho] at hs; simp at hs
    have h2 := hd d hdst
    have hne : s ≠ d := by rintro rfl; rw [h2] at h1; cases h1
    refine K.updRec (fun r => ⟨rfl, rfl⟩) (K.setOcc ?_ (K.setOcc (by rw [h1]; rfl) hR))
    rw [Part.setOcc_occ_ne hne, h2]
    rfl
  · exact hR

theorem Kept.dispatch {x : Side} {m : Move} {i : Nat × Nat} (hR : R c) : R (c.dispatch x m i) := by
  unfold Part.dispatch
  try dsimp only
  repeat' first
    | with_reducible assumption | with_reducible refine K.dispatched ?_ | with_reducible refine K.setRobot ?_
    | with_reducible refine K.putMove ?_ | with_reducible refine K.robotOrder ?_ | split

theorem Kept.grant {x : Side} {m : Move} {i : Nat × Nat} (hR : R c) : R (c.grant x m i) := by
  unfold Part.grant
  dsimp only
  split
  · exact K.dispatch hR
  · split
    · exact K.cancelMove hR
    · rename_i hs
      split
      · exact K.cancelMove hR
      · rename_i d hd
        split
        · rename_i he
          refine K.dispatch (K.grantPlaces (by simpa using hs) (fun k hk => ?_) hR)
          obtain rfl : d = k := by simpa [hd] using hk
          unfold Part.eligibleDst at he
          simp only [Bool.and_eq_true, decide_eq_true_eq] at he
          exact he.1.2
        · repeat' first
            | with_reducible assumption | with_reducible refine K.cancelMove ?_ | with_reducible refine K.putMove ?_
            | split

theorem Kept.issueYield {y : Side} {target : Nat} (hR : R c) : R (c.issueYield y target) := by
  unfold Part.issueYield
  try dsimp only
  repeat' first
    | with_reducible assumption | with_reducible refine K.setRobot ?_ | with_reducible refine K.robotOrder ?_

theorem Kept.arbitrate {x : Side} {m : Move} (hR : R c) : Some' R (c.arbitrate x m) := by
  unfold Part.arbitrate
  try dsimp only
  repeat' first
    | with_reducible assumption | exact Some'.none | refine Some'.some ?_ | refine Some'.orElse ?_ ?_
    | refine Some'.mapPart ?_ (fun _ _ => ?_) | with_reducible refine K.grant ?_
    | with_reducible refine K.issueYield ?_ | split

theorem Kept.railOnce (hR : R c) : Some' R c.railOnce := by
  unfold Part.railOnce
  try dsimp only
  repeat' first
    | with_reducible assumption | exact Some'.none | refine Some'.some ?_ | refine Some'.orElse ?_ ?_
    | refine Some'.mapPart ?_ (fun _ _ => ?_) | with_reducible refine K.arbitrate ?_ | split

theorem Kept.popReady {p : Nat} (hR : R c) : R (c.popReady p) := by
  unfold Part.popReady
  try dsimp only
  repeat' first
    | with_reducible assumption | with_reducible refine K.putPort ?_

theorem Kept.signalReturns {q n : Nat} (hR : R c) : R (c.signalReturns q n) := by
  unfold Part.signalReturns
  try dsimp only
  repeat' first
    | with_reducible assumption | with_reducible refine K.each ?_ | with_reducible refine K.signal ?_
    | with_reducible refine Kept0.each ?_ (fun _ _ _ => ?_) | split

theorem Kept.tellReturns {q : Nat} (hR : R c) : R (c.tellReturns q) := by
  unfold Part.tellReturns
  split
  · exact K.signalReturns hR
  · exact hR

theorem Kept.waitStep {q j k : Nat} {st : Step} (hR : R c) : R (c.waitStep q j k st) := by
  unfold Part.waitStep
  try dsimp only
  repeat' first
    | with_reducible assumption | with_reducible refine K.setStep ?_ | with_reducible refine K.tellReturns ?_
    | split

theorem Kept.reserve {n j k p : Nat} {m : Move} (hR : R c) : R (c.reserve n j k p m) := by
  unfold Part.reserve
  try dsimp only
  repeat' first
    | with_reducible assumption | with_reducible refine K.updRec (fun r => ?_) ?_ | exact ⟨rfl, rfl⟩ | with_reducible refine K.setStep ?_
    | with_reducible refine K.popReady ?_

theorem Kept.attempt {p : Nat} (hR : R c) : R (c.attempt p) := by
  unfold Part.attempt
  try dsimp only
  repeat' first
    | with_reducible assumption | with_reducible refine K.waitStep ?_ | with_reducible refine K.settle ?_
    | with_reducible refine K.endStep ?_ | with_reducible refine K.reserve ?_
    | exact K.admitAsk (by assumption) (by assumption) | exact K.admitAsk (K.settle hR) (by assumption) | split

theorem Kept.returnTakes {p : Nat} {m : Move} (hR : R c) : R (c.returnTakes p m) := by
  unfold Part.returnTakes
  try dsimp only
  repeat' first
    | with_reducible assumption | with_reducible refine K.putPort ?_ | with_reducible refine K.serveReturn ?_ | split

theorem Kept.tryCross {p : Nat} {ret : PortReturn} {d : Part} {x : Bool} (hR : R c) (he : c.tryCross p ret = (d, x)) :
    R d := by
  have out : ∀ {e : Part} {y : Bool}, R e → (e, y) = (d, x) → R d := by
    intro e y hy hh
    rw [← (Prod.mk.inj hh).1]
    exact hy
  unfold Part.tryCross at he
  dsimp only at he
  repeat' first
    | exact out hR he | exact out (K.settle hR) he
    | exact out (K.returnTakes (K.reserve (K.admitAsk (K.settle hR) (by assumption)))) he | split at he

theorem Kept.sayNoSlot {p : Nat} {ret : PortReturn} (hR : R c) : R (c.sayNoSlot p ret) := by
  unfold Part.sayNoSlot
  try dsimp only
  repeat' first
    | with_reducible assumption | with_reducible refine K.say ?_ | with_reducible refine K.putPort ?_ | split

theorem Kept.sayWaiting {p : Nat} {ret : PortReturn} (hR : R c) : R (c.sayWaiting p ret) := by
  unfold Part.sayWaiting
  try dsimp only
  repeat' first
    | with_reducible assumption | with_reducible refine K.say ?_ | with_reducible refine K.putPort ?_ | split

theorem Kept.storeReturn {p : Nat} {ret : PortReturn} (hR : R c) : R (c.storeReturn p ret) := by
  unfold Part.storeReturn
  try dsimp only
  repeat' first
    | with_reducible assumption | with_reducible refine K.returnTakes ?_ | with_reducible refine K.sayNoSlot ?_
    | with_reducible refine K.sayWaiting ?_ | exact K.admitAsk (by assumption) (by assumption)
    | exact K.admitAsk (K.settle hR) (by assumption) | split

theorem Kept.directedReturn {p : Nat} {ret : PortReturn} (hR : R c) : R (c.directedReturn p ret) := by
  unfold Part.directedReturn
  try dsimp only
  repeat' first
    | with_reducible assumption | with_reducible refine K.sayWaiting ?_ | with_reducible refine K.endStep ?_
    | with_reducible refine K.setStep ?_ | with_reducible refine K.returnTakes ?_
    | with_reducible refine K.sayNoSlot ?_ | exact K.admitAsk (by assumption) (by assumption)
    | exact K.admitAsk (K.settle hR) (by assumption) | split

theorem Kept.handleReturn {p : Nat} (hR : R c) : R (c.handleReturn p) := by
  unfold Part.handleReturn
  split
  · exact hR
  · rename_i ret _
    have h1 : R (c.tryCross p ret).1 := K.tryCross hR rfl
    split
    · exact hR
    · dsimp only
      repeat' first
        | with_reducible assumption
        | with_reducible refine K.storeReturn ?_
        | with_reducible refine K.directedReturn ?_
        | split

theorem Kept.attemptReturn {p : Nat} (hR : R c) : R (c.attemptReturn p) := by
  unfold Part.attemptReturn
  repeat' first
    | with_reducible assumption | with_reducible refine K.directedReturn ?_ | split

theorem Kept.activate {p j : Nat} (hR : R c) : R (c.activate p j) := by
  unfold Part.activate
  try dsimp only
  repeat' first
    | with_reducible assumption | with_reducible refine K.putPort ?_ | with_reducible refine K.endJob ?_
    | with_reducible refine K.updJob (fun r => ?_) ?_ | with_reducible refine K.portOrder ?_
    | with_reducible refine K.signal ?_ | split | rfl

theorem Kept.activateHead {p : Nat} (hR : R c) : R (c.activateHead p) := by
  unfold Part.activateHead
  split
  · split
    · exact K.activate hR
    · exact hR
  · exact hR

theorem Kept.unmask {p : Nat} (hR : R c) : R (c.unmask p) :=
  K.handleReturn (K.attempt (Kept0.each (K.putPort hR) fun _ _ h => K.activateHead h))

theorem Kept.waitingOnce (hR : R c) : Some' R c.waitingOnce := by
  unfold Part.waitingOnce
  split
  · exact Some'.none
  · exact Some'.map fun _ _ => K.sayWaiting hR

theorem Kept.activateOnce (hR : R c) : Some' R c.activateOnce := by
  unfold Part.activateOnce
  exact Some'.map fun _ _ => K.activateHead hR

theorem Kept.lastNeeded {p : Nat} (hR : R c) : R (c.lastNeeded p) := by
  unfold Part.lastNeeded
  try dsimp only
  repeat' first
    | with_reducible assumption | with_reducible refine K.updJob (fun r => ?_) ?_ | with_reducible refine K.markSteps ?_
    | with_reducible refine K.afterStep ?_ | split | rfl

theorem Kept.chargeReturn {p : Nat} (hR : R c) : R (c.chargeReturn p) := by
  unfold Part.chargeReturn
  try dsimp only
  repeat' first
    | with_reducible assumption | with_reducible refine K.signal ?_ | with_reducible refine K.putPort ?_
    | with_reducible refine K.newReturn ?_ | split

theorem Kept.serviceRequest {p : Nat} {q : SvcReq} (hR : R c) : R (c.serviceRequest p q) := by
  unfold Part.serviceRequest
  try dsimp only
  repeat' first
    | with_reducible assumption | with_reducible refine K.putPort ?_ | with_reducible refine K.portOrder ?_
    | with_reducible refine K.signal ?_ | with_reducible refine K.tellReturns ?_ | with_reducible refine K.lastNeeded ?_
    | with_reducible refine K.readAt ?_ | with_reducible refine K.chargeReturn ?_ | split

theorem Kept.endOfferStep {n : Nat} {r : Rec} {res : StepResult} {failed : Bool} (hR : R c) :
    R (c.endOfferStep n r res failed) := by
  unfold Part.endOfferStep
  try dsimp only
  repeat' first
    | with_reducible assumption | with_reducible refine K.endStep ?_ | split

theorem Kept.taken {p : Nat} {x : RetId} (hR : R c) : R (c.taken p x) := by
  unfold Part.taken
  split
  · exact K.say hR
  · rename_i n r _
    have := K.endOfferStep (n := n) (r := r) (res := .done) (failed := false) (K.unplace (n := n) (o := .vacant)
      (f := fun r => { r with state := .out, place := .scanner p, job := none }) rfl (fun _ => ⟨rfl, nofun⟩) hR)
    dsimp only
    split
    · exact K.say this
    · exact this

theorem Kept.withdrawn {p : Nat} {x : RetId} (hR : R c) : R (c.withdrawn p x) := by
  unfold Part.withdrawn
  try dsimp only
  repeat' first
    | with_reducible assumption | with_reducible refine K.say ?_ | with_reducible refine K.updRec (fun r => ?_) ?_ | exact ⟨rfl, rfl⟩
    | with_reducible refine K.newReturn ?_ | with_reducible refine K.endOfferStep ?_ | split

theorem Kept.cancelActive {j : Nat} {r : Job} (hR : R c) : R (c.cancelActive j r) := by
  unfold Part.cancelActive
  try dsimp only
  repeat' first
    | with_reducible assumption | with_reducible refine K.updJob (fun r => ?_) ?_ | with_reducible refine K.markSteps ?_
    | with_reducible refine K.cancelMove ?_ | with_reducible refine K.afterStep ?_ | split | rfl

theorem Kept.cancelJob {j : Nat} {r : Job} (hR : R c) : R (c.cancelJob j r) := by
  unfold Part.cancelJob
  try dsimp only
  repeat' first
    | with_reducible assumption | with_reducible refine K.cancelActive ?_ | with_reducible refine K.endJob ?_ | split

theorem Kept.lateReport {x : Side} {num : Option Nat} {k : RobotReport} (hR : R c) : R (c.lateReport x num k) := by
  unfold Part.lateReport
  try dsimp only
  repeat' first
    | with_reducible assumption | with_reducible refine K.say ?_

theorem Kept.standAt {x : Side} {s : Nat} (hR : R c) : R (c.standAt x s) := by
  unfold Part.standAt
  try dsimp only
  repeat' first
    | with_reducible assumption | with_reducible refine K.setRobot ?_

theorem Kept.freeDest {m : Move} (hR : R c) : R (c.freeDest m) := by
  unfold Part.freeDest
  split
  · split
    · rename_i ho
      exact K.setOcc (by rw [ho]; rfl) hR
    · exact hR
  · exact hR

theorem Kept.leavePort {l : Nat} (hR : R c) : R (c.leavePort l) := by
  unfold Part.leavePort
  try dsimp only
  repeat' first
    | with_reducible assumption | with_reducible refine K.endReturn ?_ | split

theorem Kept.putBack {x : Side} {m : Move} {read : Option (Read × Nat)} (hR : R c) : R (c.putBack x m read) := by
  unfold Part.putBack
  try dsimp only
  repeat' first
    | with_reducible assumption | with_reducible refine K.putMove ?_ | with_reducible refine K.robotOrder ?_ | split

theorem Kept.cleanPick {x : Side} {m : Move} {s kind : Nat} (hR : R c) : R (c.cleanPick x m s kind) := by
  have h1 : R (c.clear s m.reticle .vacant) := K.clear rfl hR
  unfold Part.cleanPick
  dsimp only
  refine K.leavePort (K.putMove ?_)
  split
  · rename_i n hn
    rw [hn]
    exact K.fixProtection (K.arrive rfl (fun _ => rfl) (hn ▸ h1))
  · rename_i hn
    rw [hn]
    exact K.emptiedFor rfl (hn ▸ h1)

theorem Kept.emptyPick {x : Side} {m : Move} {s : Nat} (hR : R c) : R (c.emptyPick x m s) := by
  unfold Part.emptyPick
  try dsimp only
  repeat' first
    | with_reducible assumption | with_reducible refine K.readAt ?_ | with_reducible refine K.freeDest ?_
    | with_reducible refine K.standAt ?_ | with_reducible refine K.endMove ?_

theorem Kept.mismatchedPick {x : Side} {m : Move} {s : Nat} {read : Read} {kind : Nat} (hR : R c) :
    R (c.mismatchedPick x m s read kind) := by
  have h1 : R ((c.evict (handOf x) none).setOcc (handOf x) (.foreign kind)) := K.emptiedFor rfl hR
  unfold Part.mismatchedPick
  try dsimp only
  repeat' first
    | with_reducible assumption | with_reducible refine K.freeDest ?_
    | with_reducible refine K.putBack ?_ | with_reducible refine K.raiseFlag ?_ | with_reducible refine K.addHold ?_
    | split

theorem Kept.picked {x : Side} {num : Nat} {read : Read} {kind : Nat} (hR : R c) : R (c.picked x num read kind) := by
  unfold Part.picked
  try dsimp only
  repeat' first
    | with_reducible assumption | with_reducible refine K.lateReport ?_ | with_reducible refine K.dispatched ?_
    | with_reducible refine K.cleanPick ?_ | with_reducible refine K.emptyPick ?_
    | with_reducible refine K.mismatchedPick ?_ | split

theorem Kept.presentAtPort {m : Move} {n : Nat} {r : Rec} {p j k : Nat} (hR : R c) :
    R (c.presentAtPort m n r p j k) := by
  unfold Part.presentAtPort
  try dsimp only
  repeat' first
    | with_reducible assumption | with_reducible refine K.setStep ?_ | with_reducible refine K.portOrder ?_
    | with_reducible refine K.newReturn ?_ | with_reducible refine K.endStep ?_
    | with_reducible refine K.restoreReady ?_ | split

theorem Kept.placeOk {x : Side} {m : Move} {d : Nat} (hR : R c) : R (c.placeOk x m d) := by
  have h1 : R (c.clear (handOf x) m.reticle .vacant) := K.clear rfl hR
  unfold Part.placeOk
  extract_lets hits id kind c1 c2 c3 c4
  have h2 : R c2 := by
    unfold c2 c1
    split
    · rename_i n hn
      rw [hn]
      exact K.fixProtection (K.arrive rfl (fun r => by simp) (hn ▸ h1))
    · rename_i hn
      rw [hn]
      exact K.emptiedFor rfl (hn ▸ h1)
  have h3 : R c3 := K.endMove (K.standAt h2)
  refine K.watchSeen ?_
  unfold c4
  repeat' first
    | with_reducible assumption | with_reducible refine K.presentAtPort ?_ | split

omit K in
/-- The slot chosen for ANY is VACANT (R15). -/
theorem Part.chooseSlot_vacant {kind ref src s : Nat} {ok : Nat → Bool} (h : c.chooseSlot kind ref src ok = some s) :
    c.occ s = .vacant := by
  have hc : ∀ z s, c.candidateIn kind z = some s → c.occ s = .vacant := by
    intro z s hs
    simp only [Part.candidateIn, Option.ite_none_right_eq_some, Option.map_eq_some_iff] at hs
    obtain ⟨-, e, he, rfl⟩ := hs
    have hf := List.find?_some he
    grind [Part.eligibleDst]
  suffices ∀ s, c.chooseSlot kind ref src ok = some s → c.occ s = .vacant from this s h
  refine List.foldlRecOn (motive := fun b => ∀ s, b = some s → c.occ s = .vacant) _ _ (fun _ => nofun)
    fun b hb z _ => ?_
  grind

omit K in
theorem Part.rechoose_vacant {x : Side} {m : Move} {s : Nat} (h : c.rechoose x m = some s) : c.occ s = .vacant := by
  unfold Part.rechoose at h
  split at h
  · cases h
  · exact Part.chooseSlot_vacant h

theorem Kept.placeTaken {x : Side} {m : Move} {d : Nat} (hR : R c) : R (c.placeTaken x m d) := by
  have h1 : R ((c.raiseFlag d .conflict).clear d none .unknown) := K.clear rfl (K.raiseFlag hR)
  unfold Part.placeTaken
  extract_lets c1
  split
  · rename_i s hs
    have h2 : R (match m.reticle with
        | some n => c1.setOcc s (.inbound n)
        | none => c1) := by
      split
      · refine K.setOcc ?_ h1
        rw [Part.rechoose_vacant hs]
        rfl
      · exact h1
    dsimp only
    exact K.robotOrder (K.putMove (K.putRobot h2))
  · exact K.putBack h1

theorem Kept.putBackRead {x : Side} {m : Move} {s : Nat} {read : Read} {kind : Nat} (hR : R c) :
    R (c.putBackRead x m s read kind) := K.endMove (K.standAt (K.readAt (K.clear rfl hR)))

theorem Kept.putBackClean {x : Side} {m : Move} {s : Nat} (hR : R c) : R (c.putBackClean x m s) := by
  have h1 : R (c.clear (handOf x) m.reticle .vacant) := K.clear rfl hR
  unfold Part.putBackClean
  dsimp only
  refine K.endMove (K.standAt ?_)
  split
  · rename_i n hn
    rw [hn]
    exact K.fixProtection (K.arrive rfl (fun _ => rfl) (hn ▸ h1))
  · rename_i hn
    rw [hn]
    exact K.emptiedFor rfl (hn ▸ h1)

theorem Kept.putBackTaken {x : Side} {m : Move} {s : Nat} (hR : R c) : R (c.putBackTaken x m s) := by
  unfold Part.putBackTaken
  try dsimp only
  repeat' first
    | with_reducible assumption | with_reducible refine K.raiseFlag ?_ | with_reducible refine K.clear rfl ?_
    | with_reducible refine K.updRec (fun r => ?_) ?_ | exact ⟨rfl, rfl⟩ | with_reducible refine K.limboAccount ?_
    | with_reducible refine K.setRobot ?_ | with_reducible refine K.say ?_ | with_reducible refine K.endMove ?_
    | split

theorem Kept.placedBack {x : Side} {m : Move} {s : Nat} {ok : Bool} (hR : R c) : R (c.placedBack x m s ok) := by
  unfold Part.placedBack
  try dsimp only
  repeat' first
    | with_reducible assumption | with_reducible refine K.putBackRead ?_ | with_reducible refine K.putBackClean ?_
    | with_reducible refine K.putBackTaken ?_ | split

theorem Kept.placed {x : Side} {num : Nat} {ok : Bool} (hR : R c) : R (c.placed x num ok) := by
  unfold Part.placed
  try dsimp only
  repeat' first
    | with_reducible assumption | with_reducible refine K.lateReport ?_ | with_reducible refine K.picked ?_
    | with_reducible refine K.placeOk ?_ | with_reducible refine K.placeTaken ?_
    | with_reducible refine K.placedBack ?_ | split

theorem Kept.scanned {x : Side} {num : Nat} {read : Read} {kind : Nat} (hR : R c) :
    R (c.scanned x num read kind) := by
  unfold Part.scanned
  try dsimp only
  repeat' first
    | with_reducible assumption | with_reducible refine K.lateReport ?_ | with_reducible refine K.dispatched ?_
    | with_reducible refine K.readAt ?_ | with_reducible refine K.standAt ?_ | with_reducible refine K.endMove ?_
    | split

theorem Kept.positioned {x : Side} {span : Nat} (hR : R c) : R (c.positioned x span) := by
  unfold Part.positioned
  try dsimp only
  repeat' first
    | with_reducible assumption | with_reducible refine K.lateReport ?_ | with_reducible refine K.setRobot ?_
    | with_reducible refine K.say ?_ | split

theorem Kept.parkTravel {x : Side} (hR : R c) : R (c.parkTravel x) := by
  unfold Part.parkTravel
  try dsimp only
  repeat' first
    | with_reducible assumption | with_reducible refine K.setRobot ?_ | with_reducible refine K.robotOrder ?_

theorem Kept.parkAgain {x : Side} (hR : R c) : R (c.parkAgain x) := by
  unfold Part.parkAgain
  try dsimp only
  repeat' first
    | with_reducible assumption | with_reducible refine K.parkTravel ?_ | split

theorem Kept.cloud {l : Nat} (hR : R c) : R (c.cloud l) := K.leavePort (K.clear rfl hR)

theorem Kept.wreck {m : Move} (hR : R c) : R (c.wreck m) := by
  unfold Part.wreck
  dsimp only
  refine K.clear rfl (Kept0.foldl ?_ (fun _ _ h => K.cloud h) _)
  split
  · exact K.makeInDoubt hR
  · exact hR

theorem Kept.timeOut {m : Move} (hR : R c) : R (c.timeOut m) := by
  unfold Part.timeOut
  try dsimp only
  repeat' first
    | with_reducible assumption | with_reducible refine K.wreck ?_ | with_reducible refine K.setRobot ?_
    | with_reducible refine K.robotOrder ?_ | with_reducible refine K.abortMotion ?_ | with_reducible refine K.say ?_
    | with_reducible refine K.endMove ?_

theorem Kept.robotLost {x : Side} (hR : R c) : R (c.robotLost x) := by
  unfold Part.robotLost
  try dsimp only
  repeat' first
    | with_reducible assumption | with_reducible refine K.setRobot ?_ | with_reducible refine K.wreck ?_
    | with_reducible refine K.say ?_ | with_reducible refine K.endMove ?_ | with_reducible refine K.signal ?_ | split

theorem Kept.robotBack {x : Side} (hR : R c) : R (c.robotBack x) := by
  unfold Part.robotBack
  try dsimp only
  repeat' first
    | with_reducible assumption | with_reducible refine K.setRobot ?_ | split

theorem Kept.interrupt {rescan : Bool} {m : Move} (hR : R c) : R (c.interrupt rescan m) := by
  unfold Part.interrupt
  try dsimp only
  repeat' first
    | with_reducible assumption | with_reducible refine K.wreck ?_ | with_reducible refine K.rescan ?_
    | with_reducible refine K.endMove ?_ | with_reducible refine Kept0.foldl ?_ (fun _ _ _ => ?_) _ | split

theorem Kept.interruptAll {rescan : Bool} (hR : R c) : R (c.interruptAll rescan) := by
  unfold Part.interruptAll
  try dsimp only
  repeat' first
    | with_reducible assumption | with_reducible refine K.interrupt ?_
    | with_reducible refine Kept0.foldl ?_ (fun _ _ _ => ?_) _

theorem Kept.recoveryScan {x : Side} (hR : R c) : Some' R (c.recoveryScan x) := by
  unfold Part.recoveryScan
  try dsimp only
  repeat' first
    | with_reducible assumption | exact Some'.none | refine Some'.some ?_ | refine Some'.orElse ?_ ?_
    | refine Some'.mapPart ?_ (fun _ _ => ?_) | with_reducible refine K.putRobot ?_
    | exact K.admitAsk (by assumption) (by assumption) | exact K.admitAsk (K.settle hR) (by assumption) | split

theorem Kept.recoveryOnce (hR : R c) : Some' R c.recoveryOnce := by
  unfold Part.recoveryOnce
  try dsimp only
  repeat' first
    | with_reducible assumption | exact Some'.none | refine Some'.some ?_ | refine Some'.orElse ?_ ?_
    | refine Some'.mapPart ?_ (fun _ _ => ?_) | with_reducible refine K.recoveryScan ?_

theorem Kept.yieldAway {x : Side} (hR : R c) : R (c.yieldAway x) := by
  unfold Part.yieldAway
  try dsimp only
  repeat' first
    | with_reducible assumption | with_reducible refine K.setRobot ?_ | with_reducible refine K.robotOrder ?_ | split

theorem Kept.recovered {x : Side} {s : Nat} (hR : R c) : R (c.recovered x s) := by
  unfold Part.recovered
  try dsimp only
  repeat' first
    | with_reducible assumption | refine Some'.getD ?_ ?_ | with_reducible refine K.setRobot ?_
    | with_reducible refine K.yieldAway ?_ | with_reducible refine K.recoveryScan ?_ | with_reducible refine K.say ?_
    | split

theorem Kept.handAnswer {x : Side} {span : Nat} {read : Read} {kind : Nat} (hR : R c) :
    R (c.handAnswer x span read kind) := by
  unfold Part.handAnswer
  try dsimp only
  repeat' first
    | with_reducible assumption | with_reducible refine K.readAt ?_ | with_reducible refine K.putRobot ?_
    | with_reducible refine K.say ?_ | with_reducible refine K.recovered ?_ | with_reducible refine K.setRobot ?_
    | split

theorem Kept.askHand {x : Side} (hR : R c) : R (c.askHand x) := by
  unfold Part.askHand
  try dsimp only
  repeat' first
    | with_reducible assumption | with_reducible refine K.putRobot ?_ | with_reducible refine K.robotOrder ?_

end Cascade2

end Sys2Proof.Machine
end

