-- ==== Sys2Proof/Laws/KeptAll.lean ====
section
/-! SUPPORT. What whole events keep: the operations of the Mode Controller, the tables, the bus and the starts, said
once for every property, as Laws/Kept.lean says it of the cascades. -/

namespace Sys2Proof.Machine

/-- The writes of a whole event, those of the part time, the live tables and the starts apart, keep `R`. -/
structure KeptCtl (R : Part → Prop) : Prop extends Kept R where
  ctl : ∀ {c : Part} {k}, R c → R { c with ctl := k }
  window : ∀ {c : Part} {w}, R c → R { c with window := w }
  bus : ∀ {c : Part} {u : BusPort}, (u.roster.map (·.1)).Sublist (c.bus.roster.map (·.1)) → R c → R { c with bus := u }
  robots : ∀ {c : Part} {a b}, R c → R { c with mv := { c.mv with robotA := a, robotB := b } }

/-- The writes of a whole event, the live tables and the starts apart, keep `R`. -/
structure KeptTime (R : Part → Prop) : Prop extends KeptCtl R where
  now : ∀ {c : Part} {t}, c.now ≤ t → R c → R { c with now := t }

/-- Every write of the blocks keeps `R`. -/
structure KeptAll (R : Part → Prop) : Prop extends KeptTime R where
  tables : ∀ {c : Part} {t}, R c → R { c with tables := t }
  gens : ∀ {c : Part} {g}, R c → R { c with gens := g }
  noMoves : ∀ {c : Part}, R c → R { c with mv := { c.mv with moves := [], nextNum := 0, lastSeq := 0 } }
  noJobs : ∀ {c : Part} {o}, R c → R { c with jobs := { c.jobs with jobs := [], offers := o } }
  warmInventory : ∀ {c : Part}, R c → R c.warmInventory

section KeptTimeS

variable {R : Part → Prop} (K : KeptTime R) {c : Part}
include K

theorem KeptTime.reach {t : Nat} (hR : R c) : R (c.reach t) := K.now (Nat.le_max_left _ _) hR

theorem KeptTime.intervalExpired {z : Nat} (hR : R c) : R (c.intervalExpired z) := by
  unfold Part.intervalExpired
  try dsimp only
  repeat' first
    | with_reducible assumption | with_reducible refine K.reach ?_ | with_reducible refine K.intervalPassed ?_ | split

theorem KeptTime.passExpired {z : Nat} (hR : R c) : R (c.passExpired z) := by
  unfold Part.passExpired
  try dsimp only
  repeat' first
    | with_reducible assumption | with_reducible refine K.reach ?_ | with_reducible refine K.passFails ?_ | split

theorem KeptTime.stepWaitExpired {j : Nat} (hR : R c) : R (c.stepWaitExpired j) := by
  unfold Part.stepWaitExpired
  try dsimp only
  repeat' first
    | with_reducible assumption | with_reducible refine K.reach ?_ | with_reducible refine K.endStep ?_ | split

theorem KeptTime.yieldExpired {x : Side} (hR : R c) : R (c.yieldExpired x) := by
  unfold Part.yieldExpired
  try dsimp only
  repeat' first
    | with_reducible assumption | with_reducible refine K.reach ?_ | with_reducible refine K.setRobot ?_
    | with_reducible refine K.say ?_ | split

theorem KeptTime.moveTimedOut {num : Nat} (hR : R c) : R (c.moveTimedOut num) := by
  unfold Part.moveTimedOut
  try dsimp only
  repeat' first
    | with_reducible assumption | with_reducible refine K.dispatched ?_ | with_reducible refine K.reach ?_
    | with_reducible refine K.timeOut ?_ | split

end KeptTimeS

section KeptCtlS

variable {R : Part → Prop} (K : KeptCtl R) {c : Part}
include K

theorem KeptCtl.setMode {m : Mode} {cause : ModeCause} (hR : R c) : R (c.setMode m cause) := by
  unfold Part.setMode
  try dsimp only
  repeat' first
    | with_reducible assumption | with_reducible refine K.say ?_ | fail_if_no_progress with_reducible refine K.ctl ?_

theorem KeptCtl.discardWindow {cause : DiscardCause} {table : Shadow → TableId} (hR : R c) :
    R (c.discardWindow cause table) := by
  unfold Part.discardWindow
  try dsimp only
  repeat' first
    | with_reducible assumption | with_reducible refine K.say ?_
    | fail_if_no_progress with_reducible refine K.window ?_ | split

theorem KeptCtl.enterStandalone {cause : ModeCause} (hR : R c) : R (c.enterStandalone cause) := by
  unfold Part.enterStandalone
  try dsimp only
  repeat' first
    | with_reducible assumption | with_reducible refine K.setMode ?_ | with_reducible refine K.discardWindow ?_
    | fail_if_no_progress with_reducible refine K.ctl ?_

theorem KeptCtl.standaloneOnce (hR : R c) : Some' R c.standaloneOnce := by
  unfold Part.standaloneOnce
  split
  · exact Some'.some (K.out (K.enterStandalone (K.out hR)))
  · exact Some'.none

theorem KeptCtl.linkSilence (hR : R c) : R c.linkSilence := by
  unfold Part.linkSilence
  try dsimp only
  repeat' first
    | with_reducible assumption | with_reducible refine K.enterStandalone ?_ | with_reducible refine K.say ?_ | split

end KeptCtlS

section KeptS

variable {R : Part → Prop} (K : Kept R) {c : Part}
include K

theorem Kept.resume (hR : R c) : R c.resume := by
  unfold Part.resume
  try dsimp only
  repeat' first
    | with_reducible assumption | with_reducible refine K.signalPorts ?_

theorem Kept.stopRobot {x : Side} {busy : Option Move} {recovery : List Nat} (hR : R c) :
    R (c.stopRobot x busy recovery) := by
  unfold Part.stopRobot
  try dsimp only
  repeat' first
    | with_reducible assumption | with_reducible refine K.putRobot ?_ | split

theorem Kept.abortMotion {x : Side} (hR : R c) : R (c.abortMotion x) := by
  unfold Part.abortMotion
  try dsimp only
  repeat' first
    | with_reducible assumption | with_reducible refine K.robotOrder ?_ | split

theorem Kept.stopAll (hR : R c) : R c.stopAll := by
  unfold Part.stopAll
  try dsimp only
  repeat' first
    | with_reducible assumption | with_reducible refine K.interruptAll ?_ | with_reducible refine K.abortMotion ?_
    | with_reducible refine K.stopRobot ?_

end KeptS

section KeptCtlS

variable {R : Part → Prop} (K : KeptCtl R) {c : Part}
include K

theorem KeptCtl.enterFailSafe {cause : ModeCause} {causes : FailCauses} (hR : R c) :
    R (c.enterFailSafe cause causes) := by
  unfold Part.enterFailSafe
  try dsimp only
  repeat' first
    | with_reducible assumption | with_reducible refine K.say ?_ | with_reducible refine K.setMode ?_
    | with_reducible refine K.stopAll ?_ | fail_if_no_progress with_reducible refine K.ctl ?_ | split

theorem KeptCtl.leaveFailSafe (hR : R c) : R c.leaveFailSafe := by
  unfold Part.leaveFailSafe
  try dsimp only
  repeat' first
    | with_reducible assumption | with_reducible refine K.setMode ?_ | with_reducible refine K.askHand ?_
    | with_reducible refine K.parkAgain ?_ | with_reducible refine K.resume ?_
    | fail_if_no_progress with_reducible refine K.ctl ?_ | split

theorem KeptCtl.leaveStart (hR : R c) : R c.leaveStart := by
  unfold Part.leaveStart
  try dsimp only
  repeat' first
    | with_reducible assumption | with_reducible refine K.enterFailSafe ?_ | with_reducible refine K.setMode ?_
    | with_reducible refine K.resume ?_ | fail_if_no_progress with_reducible refine K.ctl ?_ | split

theorem KeptCtl.lineActs {l : Line} (hR : R c) : R (c.lineActs l) := by
  unfold Part.lineActs
  try dsimp only
  repeat' first
    | with_reducible assumption | with_reducible refine K.enterFailSafe ?_
    | fail_if_no_progress with_reducible refine K.ctl ?_ | split

theorem KeptCtl.lineChange {l : Line} {v : Bool} (hR : R c) : R (c.lineChange l v) := by
  unfold Part.lineChange
  try dsimp only
  repeat' first
    | with_reducible assumption | with_reducible refine K.say ?_ | with_reducible refine K.lineActs ?_
    | with_reducible refine K.abortPasses ?_ | fail_if_no_progress with_reducible refine K.ctl ?_ | split

end KeptCtlS

section KeptS

variable {R : Part → Prop} (K : Kept R) {c : Part}
include K

theorem Kept.admitScan {l : Nat} {cursor : Bool} (hR : R c) : Some' R (c.admitScan l cursor) := by
  unfold Part.admitScan
  try dsimp only
  repeat' first
    | with_reducible assumption | exact Some'.none | with_reducible refine Some'.some ?_
    | with_reducible refine Some'.orElse ?_ ?_ | with_reducible refine Some'.mapPart ?_ (fun _ _ => ?_)
    | exact K.admitAsk (by assumption) (by assumption) | split

theorem Kept.offerScan (hR : R c) : Some' R c.offerScan := by
  unfold Part.offerScan
  try dsimp only
  repeat' first
    | with_reducible assumption | exact Some'.none | with_reducible refine Some'.some ?_
    | with_reducible refine Some'.orElse ?_ ?_ | with_reducible refine Some'.mapPart ?_ (fun _ _ => ?_)
    | with_reducible refine K.rescan ?_ | with_reducible refine K.unrescan ?_ | with_reducible refine K.admitScan ?_
    | with_reducible refine K.setCursor ?_ | split

theorem Kept.cursorDone (hR : R c) : Some' R c.cursorDone := by
  unfold Part.cursorDone
  try dsimp only
  repeat' first
    | with_reducible assumption | exact Some'.none | with_reducible refine Some'.some ?_
    | with_reducible refine Some'.orElse ?_ ?_ | with_reducible refine Some'.mapPart ?_ (fun _ _ => ?_)
    | with_reducible refine K.setCursor ?_ | with_reducible refine K.say ?_ | split

theorem Kept.cancelScan (hR : R c) : R c.cancelScan := by
  unfold Part.cancelScan
  extract_lets k c1 c2 plain c3
  split
  · have h2 : R c2 := Kept0.foldl (K.setCursor hR) (fun _ _ h => K.cancelMove h) _
    exact K.say (K.mapMoves (fun m => by dsimp only [plain]; split <;> exact ⟨rfl, rfl⟩) h2)
  · exact hR

theorem Kept.undelivered {a : Nat} {queue : List QOrder} (hR : R c) : R (c.undelivered a queue) := by
  unfold Part.undelivered
  try dsimp only
  repeat' first
    | with_reducible assumption | with_reducible refine K.say ?_ | with_reducible refine K.order ?_
    | with_reducible refine Kept0.foldl ?_ (fun _ _ _ => ?_) _ | split

theorem Kept.treatQueue {a : Nat} {k : NodeKind} (hR : R c) : R (c.treatQueue a k) := by
  unfold Part.treatQueue
  try dsimp only
  repeat' first
    | with_reducible assumption | with_reducible refine K.putNode ?_ | with_reducible refine K.undelivered ?_ | split

theorem Kept.emptyWindow {p : Nat} (hR : R c) : R (c.emptyWindow p) := by
  unfold Part.emptyWindow
  try dsimp only
  repeat' first
    | with_reducible assumption | with_reducible refine K.putPort ?_

theorem Kept.ownersLose {a : Nat} {plan : PlanEntry} (hR : R c) : R (c.ownersLose a plan) := by
  unfold Part.ownersLose
  try dsimp only
  repeat' first
    | with_reducible assumption | with_reducible refine K.robotLost ?_ | with_reducible refine K.emptyWindow ?_
    | with_reducible refine K.manifoldLoss ?_ | with_reducible refine K.clearHints ?_ | split

theorem Kept.leaveService {a : Nat} {plan : PlanEntry} (hR : R c) : R (c.leaveService a plan) :=
  K.ownersLose (K.treatQueue hR)

theorem Kept.enumStray {x : Side} {m : Move} {s : Nat} (hR : R c) : R (c.enumStray x m s) :=
  K.robotOrder (K.setRobot (K.interrupt hR))

theorem Kept.enumRobot {x : Side} {span : Nat} (hR : R c) : R (c.enumRobot x span) := by
  unfold Part.enumRobot
  try dsimp only
  repeat' first
    | with_reducible assumption | with_reducible refine K.setRobot ?_ | with_reducible refine K.say ?_
    | with_reducible refine K.enumStray ?_ | split

theorem Kept.shelfSnapshot {column : Nat} {present : List Bool} (hR : R c) : R (c.shelfSnapshot column present) := by
  unfold Part.shelfSnapshot
  try dsimp only
  repeat' first
    | with_reducible assumption | with_reducible refine K.each ?_ | with_reducible refine K.presence ?_
    | with_reducible refine Kept0.each ?_ (fun _ _ _ => ?_) | split

theorem Kept.applySnapshot {e : PlanEntry} {snap : Snapshot} {enum plan : Bool} (hR : R c) :
    R (c.applySnapshot e snap enum plan) := by
  unfold Part.applySnapshot
  try dsimp only
  repeat' first
    | with_reducible assumption | with_reducible refine K.readAt ?_ | with_reducible refine K.enumRobot ?_
    | with_reducible refine K.robotBack ?_ | with_reducible refine K.shelfSnapshot ?_ | split

theorem Kept.resendOffers {p : Nat} (hR : R c) : R (c.resendOffers p) := by
  unfold Part.resendOffers
  try dsimp only
  repeat' first
    | with_reducible assumption | with_reducible refine K.portOrder ?_ | split

theorem Kept.resendJob {p : Nat} (hR : R c) : R (c.resendJob p) := by
  unfold Part.resendJob
  try dsimp only
  repeat' first
    | with_reducible assumption | with_reducible refine K.portOrder ?_ | split

theorem Kept.resumePort {p : Nat} {was : Bool} (hR : R c) : R (c.resumePort p was) := by
  unfold Part.resumePort
  split
  · exact K.signal (K.signal hR)
  · exact hR

theorem Kept.rollCorrect {a : Nat} {e : PlanEntry} {n : Node} {r : RollAnswer} (hR : R c) :
    R (c.rollCorrect a e n r) := by
  unfold Part.rollCorrect
  try dsimp only
  repeat' first
    | with_reducible assumption | with_reducible refine K.putNode ?_ | with_reducible refine K.putPort ?_
    | with_reducible refine K.say ?_ | with_reducible refine K.rosterChanged ?_
    | with_reducible refine K.applySnapshot ?_ | with_reducible refine K.resendOffers ?_
    | with_reducible refine K.resendJob ?_ | with_reducible refine K.resumePort ?_ | split

theorem Kept.becomeAbsent {a : Nat} {e : PlanEntry} {n : Node} (hR : R c) : R (c.becomeAbsent a e n) := by
  unfold Part.becomeAbsent
  try dsimp only
  repeat' first
    | with_reducible assumption | with_reducible refine K.putNode ?_ | with_reducible refine K.say ?_
    | with_reducible refine K.leaveService ?_ | with_reducible refine K.ownersLose ?_
    | with_reducible refine K.resendOffers ?_ | with_reducible refine K.clearHints ?_ | split

theorem Kept.rollWrong {a : Nat} {e : PlanEntry} {n : Node} {r : RollAnswer} (hR : R c) :
    R (c.rollWrong a e n r) := by
  unfold Part.rollWrong
  try dsimp only
  repeat' first
    | with_reducible assumption | with_reducible refine K.say ?_ | with_reducible refine K.becomeAbsent ?_

theorem Kept.rollAnswered {a : Nat} {r : RollAnswer} (hR : R c) : R (c.rollAnswered a r) := by
  unfold Part.rollAnswered
  try dsimp only
  repeat' first
    | with_reducible assumption | with_reducible refine K.putNode ?_ | with_reducible refine K.say ?_
    | with_reducible refine K.rollCorrect ?_ | with_reducible refine K.rollWrong ?_ | split

theorem Kept.rollUnanswered {a : Nat} (hR : R c) : R (c.rollUnanswered a) := by
  unfold Part.rollUnanswered
  try dsimp only
  repeat' first
    | with_reducible assumption | with_reducible refine K.becomeAbsent ?_ | with_reducible refine K.putNode ?_ | split

end KeptS

section KeptCtlS

variable {R : Part → Prop} (K : KeptCtl R) {c : Part}
include K

theorem KeptCtl.beginEnum {cause : EnumCause} (hR : R c) : R (c.beginEnum cause) := by
  have sub : ∀ f : Node → Node, (((c.bus.roster.filter fun e => decide (e.2.state ≠ .unexpected)).map fun e =>
      (e.1, f e.2)).map (·.1)).Sublist (c.bus.roster.map (·.1)) := fun f => by
    simpa [List.map_map, Function.comp_def] using (List.filter_sublist (l := c.bus.roster)).map (·.1)
  unfold Part.beginEnum
  extract_lets roster _ bus _ _ _ mv
  split
  · rename_i a rest _
    exact K.robots (c := { c with bus := { bus with exchange := some (.rollCall a), enum := some ⟨cause, rest⟩ } })
      (K.bus (sub fun n => { n with rollPending := false, planCall := false }) hR)
  · exact K.robots (c := { c with bus := { bus with exchange := none, enum := none } })
      (K.bus (sub fun n => { n with rollPending := false, planCall := false }) hR)

end KeptCtlS

section KeptS

variable {R : Part → Prop} (K : Kept R) {c : Part}
include K

theorem Kept.settleInterval {x : Side} (hR : R c) : R (c.settleInterval x) := by
  unfold Part.settleInterval
  try dsimp only
  repeat' first
    | with_reducible assumption | with_reducible refine K.putRobot ?_ | with_reducible refine K.yieldAway ?_ | split

theorem Kept.takeCharge (hR : R c) : R c.takeCharge := by
  unfold Part.takeCharge
  extract_lets forced c1
  refine K.offers (Kept0.each hR fun d p h => ?_)
  repeat' first
    | with_reducible assumption | with_reducible refine K.newReturn ?_ | split

theorem Kept.enumEnds {cause : EnumCause} (hR : R c) : R (c.enumEnds cause) := by
  unfold Part.enumEnds
  try dsimp only
  repeat' first
    | with_reducible assumption | with_reducible refine K.settleInterval ?_ | with_reducible refine K.parkAgain ?_
    | with_reducible refine K.busReset ?_ | with_reducible refine K.each ?_ | with_reducible refine K.evalSupply ?_
    | with_reducible refine K.takeCharge ?_ | with_reducible refine Kept0.each ?_ (fun _ _ _ => ?_) | split

end KeptS

section KeptCtlS

variable {R : Part → Prop} (K : KeptCtl R) {c : Part}
include K

theorem KeptCtl.endEnum {cause : EnumCause} (hR : R c) : R (c.endEnum cause) := by
  have h1 : R { c with bus := { c.bus with enum := none } } := K.bus (List.Sublist.refl _) hR
  unfold Part.endEnum
  extract_lets _ c1 c2 c3
  have h2 : R c2 := K.enumEnds (cause := cause) (K.out (c := c1) (o := []) (K.say h1))
  have h3 : R c3 := by
    unfold c3
    split
    · exact K.out h2
    · exact K.leaveStart (K.out h2)
  exact K.out h3

theorem KeptCtl.nextRoll (hR : R c) : R c.nextRoll := by
  unfold Part.nextRoll
  try dsimp only
  repeat' first
    | with_reducible assumption | with_reducible refine K.endEnum ?_
    | fail_if_no_progress with_reducible refine K.setExchange ?_ | exact K.bus (List.Sublist.refl _) hR | split

theorem KeptCtl.chooseExchange (hR : R c) : R c.chooseExchange := by
  unfold Part.chooseExchange
  try dsimp only
  repeat' first
    | with_reducible assumption | with_reducible refine K.order ?_
    | fail_if_no_progress with_reducible refine K.setExchange ?_ | exact K.bus (List.Sublist.refl _) hR | split

theorem KeptCtl.retryLevel (hR : R c) : R c.retryLevel := by
  unfold Part.retryLevel
  try dsimp only
  repeat' first
    | with_reducible assumption | exact K.bus (List.Sublist.refl _) hR | split

theorem KeptCtl.retryPassed (hR : R c) : R c.retryPassed := by
  unfold Part.retryPassed
  refine K.bus ?_ hR
  have e : ∀ l : Store Node, (l.map fun e =>
      if c.planned e.1 ∧ (e.2.state = .lost ∨ e.2.state = .absent) then (e.1, { e.2 with rollPending := true })
      else e).map (·.1) = l.map (·.1) := by
    intro l
    rw [List.map_map]
    refine List.map_congr_left fun e _ => ?_
    simp only [Function.comp_def]
    split <;> rfl
  rw [e]

end KeptCtlS

section KeptTimeS

variable {R : Part → Prop} (K : KeptTime R) {c : Part}
include K

theorem KeptTime.retryExpired (hR : R c) : R c.retryExpired := by
  unfold Part.retryExpired
  try dsimp only
  repeat' first
    | with_reducible assumption | with_reducible refine K.reach ?_ | with_reducible refine K.retryPassed ?_ | split

end KeptTimeS

section KeptS

variable {R : Part → Prop} (K : Kept R) {c : Part}
include K

theorem Kept.orderData {a : Nat} {o : QOrder} {data : AnswerData} (hR : R c) : R (c.orderData a o data) := by
  unfold Part.orderData
  try dsimp only
  repeat' first
    | with_reducible assumption | with_reducible refine K.say ?_ | with_reducible refine K.order ?_
    | with_reducible refine K.handAnswer ?_ | with_reducible refine K.putRobot ?_ | split

theorem Kept.acknowledged {a : Nat} {data : AnswerData} (hR : R c) : R (c.acknowledged a data) := by
  unfold Part.acknowledged
  try dsimp only
  repeat' first
    | with_reducible assumption | with_reducible refine K.putNode ?_ | with_reducible refine K.orderData ?_ | split

theorem Kept.deliverReport {a : Nat} {rep : Report} (hR : R c) : R (c.deliverReport a rep) := by
  unfold Part.deliverReport
  try dsimp only
  repeat' first
    | with_reducible assumption | with_reducible refine K.say ?_ | with_reducible refine K.picked ?_
    | with_reducible refine K.placed ?_ | with_reducible refine K.scanned ?_ | with_reducible refine K.positioned ?_
    | with_reducible refine K.purgeDone ?_ | with_reducible refine K.sealReport ?_
    | with_reducible refine K.serviceRequest ?_ | with_reducible refine K.taken ?_
    | with_reducible refine K.withdrawn ?_ | with_reducible refine K.presence ?_ | split

theorem Kept.handleReport {a : Nat} {toggle : Bool} {rep : Report} (hR : R c) : R (c.handleReport a toggle rep) := by
  unfold Part.handleReport
  try dsimp only
  repeat' first
    | with_reducible assumption | with_reducible refine K.putNode ?_ | with_reducible refine K.deliverReport ?_
    | split

theorem Kept.clearMiss {a : Nat} (hR : R c) : R (c.clearMiss a) := by
  unfold Part.clearMiss
  try dsimp only
  repeat' first
    | with_reducible assumption | with_reducible refine K.putNode ?_ | split

end KeptS

section KeptCtlS

variable {R : Part → Prop} (K : KeptCtl R) {c : Part}
include K

theorem KeptCtl.answered {ans : Answer} (hR : R c) : R (c.answered ans) := by
  unfold Part.answered
  try dsimp only
  repeat' first
    | with_reducible assumption | with_reducible refine K.order ?_ | with_reducible refine K.clearMiss ?_
    | with_reducible refine K.acknowledged ?_ | with_reducible refine K.handleReport ?_
    | with_reducible refine K.rollAnswered ?_ | with_reducible refine K.rollUnanswered ?_
    | with_reducible refine K.nextRoll ?_ | fail_if_no_progress with_reducible refine K.setExchange ?_
    | exact K.bus (List.Sublist.refl _) hR | split

end KeptCtlS

section KeptS

variable {R : Part → Prop} (K : Kept R) {c : Part}
include K

theorem Kept.missed {a : Nat} (hR : R c) : R (c.missed a) := by
  unfold Part.missed
  try dsimp only
  repeat' first
    | with_reducible assumption | with_reducible refine K.putNode ?_ | with_reducible refine K.say ?_
    | with_reducible refine K.leaveService ?_ | split

end KeptS

section KeptCtlS

variable {R : Part → Prop} (K : KeptCtl R) {c : Part}
include K

theorem KeptCtl.unanswered (hR : R c) : R c.unanswered := by
  unfold Part.unanswered
  try dsimp only
  repeat' first
    | with_reducible assumption | with_reducible refine K.order ?_ | with_reducible refine K.missed ?_
    | with_reducible refine K.rollUnanswered ?_ | with_reducible refine K.nextRoll ?_
    | fail_if_no_progress with_reducible refine K.setExchange ?_ | exact K.bus (List.Sublist.refl _) hR | split

theorem KeptCtl.emptyQueues (hR : R c) : R c.emptyQueues := by
  unfold Part.emptyQueues
  extract_lets c1 empty
  have h1 : R c1 := Kept0.foldl hR (fun _ _ h => K.undelivered h) _
  exact K.bus (by simp [List.map_map, Function.comp_def]) h1

end KeptCtlS

section KeptS

variable {R : Part → Prop} (K : Kept R) {c : Part}
include K

theorem Kept.resetRobot {x : Side} (hR : R c) : R (c.resetRobot x) := by
  unfold Part.resetRobot
  try dsimp only
  repeat' first
    | with_reducible assumption | with_reducible refine K.putRobot ?_ | split

end KeptS

section KeptCtlS

variable {R : Part → Prop} (K : KeptCtl R) {c : Part}
include K

theorem KeptCtl.busReset (hR : R c) : R c.busReset := by
  unfold Part.busReset
  try dsimp only
  repeat' first
    | with_reducible assumption | with_reducible refine K.emptyQueues ?_ | with_reducible refine K.discardWindow ?_
    | with_reducible refine K.each ?_ | with_reducible refine K.emptyWindow ?_
    | with_reducible refine K.interruptAll ?_ | with_reducible refine K.abortPasses ?_
    | with_reducible refine K.resetRobot ?_ | with_reducible refine K.beginEnum ?_
    | with_reducible refine Kept0.each ?_ (fun _ _ _ => ?_)

end KeptCtlS

section KeptAllS

variable {R : Part → Prop} (K : KeptAll R) {c : Part}
include K

theorem KeptAll.liveSlotMap {t : Store SlotCfg} (hR : R c) : R (c.liveSlotMap t) := by
  unfold Part.liveSlotMap
  try dsimp only
  repeat' first
    | with_reducible assumption | with_reducible refine K.signal ?_
    | fail_if_no_progress with_reducible refine K.tables ?_ | split

theorem KeptAll.livePorts {t : Store PortCfg} (hR : R c) : R (c.livePorts t) := by
  unfold Part.livePorts
  try dsimp only
  repeat' first
    | with_reducible assumption | with_reducible refine K.each ?_ | with_reducible refine K.cancelActive ?_
    | with_reducible refine Kept0.each ?_ (fun _ _ _ => ?_) | fail_if_no_progress with_reducible refine K.tables ?_
    | split

theorem KeptAll.liveZones {t : ZoneTable} {eval : Bool} (hR : R c) : R (c.liveZones t eval) := by
  unfold Part.liveZones
  extract_lets c1
  refine Kept0.each (K.tables hR) fun d z h => ?_
  extract_lets old new r timer moved fault c2
  have hz : (d.zone z).keeps { r with timer := timer, supplyFault := fault } := ⟨id, id⟩
  clear_value timer fault
  have h2 : R c2 := K.zoneSettled (K.putZone hz h)
  clear_value c2
  split
  · exact K.signal h2
  · exact h2

theorem KeptAll.liveClasses {t : List ClassCfg} (hR : R c) : R (c.liveClasses t) := by
  unfold Part.liveClasses
  try dsimp only
  repeat' first
    | with_reducible assumption | with_reducible refine K.settle ?_
    | with_reducible refine Kept0.foldl ?_ (fun _ _ _ => ?_) _ | fail_if_no_progress with_reducible refine K.tables ?_

end KeptAllS

section KeptS

variable {R : Part → Prop} (K : Kept R) {c : Part}
include K

theorem Kept.disableChange {x : Side} {was : Bool} (hR : R c) : R (c.disableChange x was) := by
  unfold Part.disableChange
  try dsimp only
  repeat' first
    | with_reducible assumption | with_reducible refine K.setRobot ?_ | with_reducible refine K.putRobot ?_
    | with_reducible refine K.parkTravel ?_ | with_reducible refine K.signal ?_ | split

end KeptS

section KeptAllS

variable {R : Part → Prop} (K : KeptAll R) {c : Part}
include K

theorem KeptAll.liveLimits {t : Limits} (hR : R c) : R (c.liveLimits t) := by
  unfold Part.liveLimits
  try dsimp only
  repeat' first
    | with_reducible assumption | with_reducible refine K.threshold ?_ | with_reducible refine K.disableChange ?_
    | with_reducible refine Kept0.foldl ?_ (fun _ _ _ => ?_) _ | fail_if_no_progress with_reducible refine K.tables ?_

end KeptAllS

section KeptS

variable {R : Part → Prop} (K : Kept R) {c : Part}
include K

theorem Kept.abandon {a : Nat} (hR : R c) : R (c.abandon a) := by
  unfold Part.abandon
  try dsimp only
  repeat' first
    | with_reducible assumption | with_reducible refine K.order ?_
    | fail_if_no_progress with_reducible refine K.setExchange ?_ | split

theorem Kept.dropPlanned {a : Nat} (hR : R c) : R (c.dropPlanned a) := by
  unfold Part.dropPlanned
  try dsimp only
  repeat' first
    | with_reducible assumption | with_reducible refine K.abandon ?_ | with_reducible refine K.putNode ?_
    | with_reducible refine K.leaveService ?_ | with_reducible refine K.undelivered ?_
    | with_reducible refine K.dropNode ?_ | split

theorem Kept.rosterRoom (hR : R c) : R c.rosterRoom := by
  unfold Part.rosterRoom
  try dsimp only
  repeat' first
    | with_reducible assumption | with_reducible refine K.dropNode ?_ | split

theorem Kept.addPlanned {a : Nat} {e : PlanEntry} {call : Bool} (hR : R c) : R (c.addPlanned a e call) := by
  unfold Part.addPlanned
  try dsimp only
  repeat' first
    | with_reducible assumption | with_reducible refine K.rosterRoom ?_ | with_reducible refine K.putNode ?_
    | with_reducible refine K.putPort ?_ | split

end KeptS

section KeptAllS

variable {R : Part → Prop} (K : KeptAll R) {c : Part}
include K

theorem KeptAll.livePlan {t : Store PlanEntry} (hR : R c) : R (c.livePlan t) := by
  unfold Part.livePlan
  try dsimp only
  repeat' first
    | with_reducible assumption | with_reducible refine K.dropPlanned ?_ | with_reducible refine K.addPlanned ?_
    | with_reducible refine K.rosterChanged ?_ | with_reducible refine Kept0.foldl ?_ (fun _ _ _ => ?_) _
    | fail_if_no_progress with_reducible refine K.tables ?_

theorem KeptAll.liveFilter {t : List FilterCfg} (hR : R c) : R (c.liveFilter t) := by
  unfold Part.liveFilter
  try dsimp only
  repeat' first
    | with_reducible assumption | fail_if_no_progress with_reducible refine K.tables ?_

theorem KeptAll.makeLive {s : Shadow} (hR : R c) : R (c.makeLive s) := by
  cases s with
  | slotMap t => exact K.liveSlotMap hR
  | port t => exact K.livePorts hR
  | zone t => exact K.liveZones hR
  | cls t => exact K.liveClasses hR
  | limits t => exact K.liveLimits hR
  | plan t => exact K.livePlan hR
  | filter t => exact K.liveFilter hR

theorem KeptAll.commit {s : Shadow} (hR : R c) : R (c.commit s) := K.gens (K.makeLive hR)

theorem KeptAll.commitAll {t : Tables} (hR : R c) : R (c.commitAll t) := by
  unfold Part.commitAll
  generalize t.shadows = l
  refine Kept0.foldl hR (fun d s h => ?_) _
  exact K.commit h

end KeptAllS

section KeptS

variable {R : Part → Prop} (K : Kept R) {c : Part}
include K

theorem Kept.serve {g : Sig} (hR : R c) : R (c.serve g) := by
  unfold Part.serve
  try dsimp only
  repeat' first
    | with_reducible assumption | with_reducible refine Some'.getD ?_ ?_ | with_reducible refine K.attempt ?_
    | with_reducible refine K.handleReturn ?_ | with_reducible refine K.attemptReturn ?_ | with_reducible refine K.each ?_
    | with_reducible refine K.recoveryOnce ?_ | with_reducible refine K.reassign ?_
    | with_reducible refine Kept0.each ?_ (fun _ _ _ => ?_) | split

end KeptS

section KeptCtlS

variable {R : Part → Prop} (K : KeptCtl R) {c : Part}
include K

theorem KeptCtl.levels (hR : R c) : Some' R c.levels := by
  unfold Part.levels
  try dsimp only
  repeat' first
    | with_reducible assumption | exact Some'.none | with_reducible refine Some'.some ?_
    | with_reducible refine Some'.orElse ?_ ?_ | with_reducible refine Some'.mapPart ?_ (fun _ _ => ?_)
    | with_reducible refine K.recoveryOnce ?_ | with_reducible refine K.activateOnce ?_
    | with_reducible refine K.waitingOnce ?_ | with_reducible refine K.offerScan ?_
    | with_reducible refine K.cursorDone ?_ | with_reducible refine K.reassign ?_ | with_reducible refine K.railOnce ?_
    | with_reducible refine K.supplyOnce ?_

theorem KeptCtl.nextAct (hR : R c) : Some' R c.nextAct := by
  unfold Part.nextAct
  refine Some'.orElse (K.standaloneOnce hR) ?_
  split
  · exact Some'.some (K.serve (K.work hR))
  · exact K.levels hR

theorem KeptCtl.settleAll (n : Nat) (hR : R c) : R (Part.settleAll n c) := by
  induction n generalizing c with
  | zero => exact hR
  | succ n ih =>
    unfold Part.settleAll
    split
    · rename_i d hd
      exact ih (K.nextAct hR d hd)
    · exact hR

theorem KeptCtl.setFault (hR : R c) : R c.setFault := by
  unfold Part.setFault
  try dsimp only
  repeat' first
    | with_reducible assumption | fail_if_no_progress with_reducible refine K.ctl ?_

theorem KeptCtl.close (hR : R c) : R c.close := by
  unfold Part.close
  try dsimp only
  repeat' first
    | with_reducible assumption | with_reducible refine K.retryLevel ?_ | with_reducible refine K.chooseExchange ?_
    | with_reducible refine K.setFault ?_ | with_reducible refine K.settleAll _ ?_

theorem KeptCtl.coldStart {image : List Byte} {enclosure stop : Bool}
    (hR : ∀ t gens bad, R (Part.coldWith t gens bad)) : R (Part.coldStart image enclosure stop) :=
  K.beginEnum (K.lineChange (K.lineChange (hR _ _ _)))

end KeptCtlS

section KeptAllS

variable {R : Part → Prop} (K : KeptAll R) {c : Part}
include K

theorem KeptAll.warmJobs (hR : R c) : R c.warmJobs :=
  Kept0.each (K.noJobs hR) fun _ _ h => K.putPort h

theorem KeptAll.warmWatch (hR : R c) : R c.warmWatch := by
  unfold Part.warmWatch
  try dsimp only
  repeat' first
    | with_reducible assumption | fail_if_no_progress with_reducible refine K.watch ?_

theorem KeptAll.warmRobot {x : Side} {was : Bool} (hR : R c) : R (c.warmRobot x was) := by
  unfold Part.warmRobot
  try dsimp only
  repeat' first
    | with_reducible assumption | with_reducible refine K.putRobot ?_ | split

theorem KeptAll.replan {a : Nat} {e : PlanEntry} (hR : R c) : R (c.replan a e) := by
  unfold Part.replan
  try dsimp only
  repeat' first
    | with_reducible assumption | with_reducible refine K.putPort ?_ | with_reducible refine K.putNode ?_ | split

theorem KeptAll.withStatesOf {was : Part} (hR : R c) : R (c.withStatesOf was) := by
  unfold Part.withStatesOf
  exact K.putRobot (K.putRobot hR)

theorem KeptAll.warmPlan {t : Store PlanEntry} (hR : R c) : R (c.warmPlan t) := by
  unfold Part.warmPlan
  try dsimp only
  repeat' first
    | with_reducible assumption | with_reducible refine K.dropPlanned ?_ | with_reducible refine K.addPlanned ?_
    | with_reducible refine K.withStatesOf ?_ | with_reducible refine K.replan ?_ | with_reducible refine K.each ?_ | with_reducible refine K.clearHints ?_
    | with_reducible refine Kept0.foldl ?_ (fun _ _ _ => ?_) _ | with_reducible refine Kept0.each ?_ (fun _ _ _ => ?_)
    | fail_if_no_progress with_reducible refine K.tables ?_ | split

theorem KeptAll.warmTables {t : Tables} {gens : List Nat} {bad : Bool} (hR : R c) :
    R (c.warmTables t gens bad) := by
  unfold Part.warmTables
  extract_lets wasA wasB c1 _ tables _ c2 c3
  have h1 : R c1 := K.warmPlan (K.liveZones hR)
  clear_value c1
  have h2 : R c2 := by
    unfold c2
    exact K.ctl (c := { c1 with tables := tables, gens := gens })
      (K.gens (c := { c1 with tables := tables }) (K.tables h1))
  exact K.warmRobot (K.warmRobot (Kept0.foldl h2 (fun _ _ h => K.threshold h) _))

theorem KeptAll.warmStart {image : List Byte} (hR : R c) : R (c.warmStart image) := by
  unfold Part.warmStart
  generalize startTables image = x
  obtain ⟨t, gens, bad⟩ := x
  dsimp -zeta only
  extract_lets c1 c2 _ c3 c4 _ c5 c6
  have h1 : R c1 := K.warmJobs (K.abortPasses (K.emptyQueues hR))
  have h2 : R c2 := K.interruptAll h1
  have h3 : R c3 := K.noMoves h2
  have h4 : R c4 := K.warmWatch (K.warmInventory h3)
  clear_value c4
  have h5 : R c5 := by
    unfold c5
    exact K.bus (c := { c4 with ctl := c4.ctl.warm, window := none, work := [] }) (List.Sublist.refl _)
      (K.work (c := { c4 with ctl := c4.ctl.warm, window := none })
        (K.window (c := { c4 with ctl := c4.ctl.warm }) (K.ctl h4)))
  exact K.beginEnum (K.resetRobot (K.resetRobot (K.warmTables h5)))

end KeptAllS

section KeptS

variable {R : Part → Prop} (K : Kept R) {c : Part}
include K

theorem Kept.declare {n : Nat} {r : Rec} (hn : c.freeRec = some n) (hi : c.findId r.id = none)
    (hl : ∀ l, r.place = .loc l → (c.occ l).resident = none) (hR : R c) : R (c.declare n r) := by
  unfold Part.declare
  dsimp only
  refine K.threshold (K.fixProtection ?_)
  split
  · rename_i l e
    exact K.declareAt e hn hi (hl l e) hR
  · rename_i e
    exact K.signal (K.newRec (fun l => e l) hn hi hR)

theorem Kept.retire {n : Nat} {r : Rec} (hR : R c) : R (c.retire n r) := by
  unfold Part.retire
  try dsimp only
  repeat' first
    | with_reducible assumption | with_reducible refine K.remove rfl ?_ | with_reducible refine K.endPendingOf ?_
    | with_reducible refine K.endReturn ?_ | with_reducible refine K.serveReturn ?_ | split

theorem Kept.clearSlot {l : Nat} (hR : R c) : R (c.clearSlot l) := by
  unfold Part.clearSlot
  try dsimp only
  repeat' first
    | with_reducible assumption | with_reducible refine K.putFlags ?_ | with_reducible refine K.setHint ?_
    | with_reducible refine K.fixSlot ?_ | with_reducible refine K.signal ?_ | split

theorem Kept.writeExposure {n e : Nat} (hR : R c) : R (c.writeExposure n e) :=
  K.threshold (K.updRec (fun _ => ⟨rfl, rfl⟩) (K.accrueRec hR))

theorem Kept.addJob {j p : Nat} {k : JobKind} {steps : List Step} {f : JobFlags} (hj : c.freeJob = some j)
    (hp : c.jobsAt p < 4) (hR : R c) : R (c.addJob j p k steps f) := K.putPort (K.newJob hj hp hR)

theorem Kept.setWatchEntry {i : Nat} {w : WatchEntry} (hR : R c) : R (c.setWatchEntry i w) := by
  unfold Part.setWatchEntry
  try dsimp only
  repeat' first
    | with_reducible assumption | fail_if_no_progress with_reducible refine K.watch ?_

end KeptS

section KeptCtlS

variable {R : Part → Prop} (K : KeptCtl R) {c : Part}
include K

theorem KeptCtl.openWindow {t : TableId} (hR : R c) : R (c.openWindow t) := by
  unfold Part.openWindow
  try dsimp only
  repeat' first
    | with_reducible assumption | fail_if_no_progress with_reducible refine K.window ?_

theorem KeptCtl.setImageBad {v : Bool} (hR : R c) : R (c.setImageBad v) := by
  unfold Part.setImageBad
  try dsimp only
  repeat' first
    | with_reducible assumption | fail_if_no_progress with_reducible refine K.ctl ?_

theorem KeptCtl.beginStandalone (hR : R c) : R c.beginStandalone := by
  unfold Part.beginStandalone
  try dsimp only
  repeat' first
    | with_reducible assumption | fail_if_no_progress with_reducible refine K.ctl ?_

theorem KeptCtl.leaveStandalone {abort : Bool} (hR : R c) : R (c.leaveStandalone abort) := by
  unfold Part.leaveStandalone
  try dsimp only
  repeat' first
    | with_reducible assumption | with_reducible refine K.setMode ?_ | with_reducible refine K.abortPasses ?_
    | with_reducible refine K.clearMarks ?_ | with_reducible refine K.resume ?_
    | fail_if_no_progress with_reducible refine K.ctl ?_ | split

end KeptCtlS

end Sys2Proof.Machine
end

