-- ==== Sys2Proof/Laws/Sound.lean ====
section
/-! SUPPORT. Soundness of the tables (R21, R59, R85, R111 and the canonical form) is kept by every write of the blocks, and a
cascade leaves the part time, the live tables, the load window and the Mode Controller as they were. -/

namespace Sys2Proof.Machine

/-! ### What a cascade leaves as it was -/

/-- What the blocks' cascades leave as it was. -/
def Part.fixed (c : Part) : Nat × Tables × List Nat × Option Window × ModeController :=
  (c.now, c.tables, c.gens, c.window, c.ctl)

theorem free_fixed (x : Nat × Tables × List Nat × Option Window × ModeController) : KeptFree fun c => c.fixed = x where
  out h := h
  work h := h
  watch h := h
  putOcc h := h
  setHint h := h
  putFlags h := h
  clearHints h := h
  rescanList h := h
  setCursor h := h
  dropRec h := h
  updRec {c n f} _ h := by
    unfold Part.updRec
    split
    · exact h
    · dsimp only
      split
      · exact h
      · simpa [Part.fixed] using h
  newRec _ _ h := h
  putZone _ h := h
  beginPass _ h := h
  updJob {c j f} _ h := by
    unfold Part.updJob
    split <;> exact h
  newJob _ _ h := h
  dropJob h := h
  putPort h := h
  offers h := h
  putNode h := h
  dropNode h := h
  exchange h := h
  putRobot {c x r} h := by cases x <;> exact h
  filterMoves h := h
  mapMoves _ h := h
  admitMove _ _ _ h := h

/-- A cascade leaves `Part.fixed` as it was. -/
theorem kept_fixed (x : Nat × Tables × List Nat × Option Window × ModeController) : Kept fun c => c.fixed = x :=
  (free_fixed x).kept

theorem free_live (x : Nat × Tables × List Nat) : KeptFree fun c => (c.now, c.tables, c.gens) = x where
  out h := h
  work h := h
  watch h := h
  putOcc h := h
  setHint h := h
  putFlags h := h
  clearHints h := h
  rescanList h := h
  setCursor h := h
  dropRec h := h
  updRec {c n f} _ h := by
    unfold Part.updRec
    split
    · exact h
    · dsimp only
      split
      · exact h
      · simpa using h
  newRec _ _ h := h
  putZone _ h := h
  beginPass _ h := h
  updJob {c j f} _ h := by
    unfold Part.updJob
    split <;> exact h
  newJob _ _ h := h
  dropJob h := h
  putPort h := h
  offers h := h
  putNode h := h
  dropNode h := h
  exchange h := h
  putRobot {c x r} h := by cases x <;> exact h
  filterMoves h := h
  mapMoves _ h := h
  admitMove _ _ _ h := h

/-- A whole event that is no expiry, commit or start leaves the part time, the live tables and the generations as they
were. -/
theorem kept_live (x : Nat × Tables × List Nat) : KeptCtl fun c => (c.now, c.tables, c.gens) = x where
  __ := (free_live x).kept
  ctl h := h
  window h := h
  bus _ h := h
  robots h := h

/-! ### Soundness -/

/-- Writing a record that keeps what `g` reads of it leaves what `g` reads of the table as it was. -/
theorem Store.map_put_of_find {α β : Type} {g : α → β} {m : Store α} (hm : Store.rising m = true) {n : Nat} {r r' : α}
    (hf : Store.find m n = some r) (hg : g r' = g r) :
    (Store.put m n r').map (fun e => g e.2) = m.map fun e => g e.2 := by
  fun_induction Store.put m n r' with
  | case1 => nomatch hf
  | case2 j w t k v hlt =>
    have := (Store.rising_cons _ _).1 hm
    have := Store.mem_of_find hf
    grind
  | case3 | case4 => grind [Store.find, Store.rising_cons]

/-- Writing a record with an ID that no other carries leaves the IDs distinct. -/
theorem Store.nodup_put {r : Rec} {n : Nat} {m : Store Rec} (hm : (m.map fun e => e.2.id).Nodup)
    (hne : ∀ e ∈ m, e.2.id ≠ r.id) : ((Store.put m n r).map fun e => e.2.id).Nodup := by
  fun_induction Store.put m n r with
  | case1 => simp
  | case2 | case3 => grind
  | case4 j w t k v _ _ ih =>
    simp only [List.map_cons, List.nodup_cons, List.mem_map] at hm ⊢
    refine ⟨fun ⟨e, he, hh⟩ => ?_, ih hm.2 fun e he => hne e (List.mem_cons_of_mem _ he)⟩
    rcases Store.mem_put he with rfl | hm'
    exacts [hne _ (.head _) hh.symm, hm.1 ⟨e, hm', hh⟩]

section Sound

variable {c : Part}

theorem Part.sound.recs (h : c.sound) : c.recordsSound := h.1
theorem Part.sound.moves (h : c.sound) : c.movesSound := h.2.1
theorem Part.sound.ranges (h : c.sound) : c.zonesSound := h.2.2.1
theorem Part.sound.pool (h : c.sound) : c.jobsSound := h.2.2.2.1
theorem Part.sound.occ (h : c.sound) : Store.wf .unknown c.inv.occ = true := h.2.2.2.2.1
theorem Part.sound.hints (h : c.sound) : Store.wf .missing c.inv.hints = true := h.2.2.2.2.2.1
theorem Part.sound.flags (h : c.sound) : Store.wf SlotFlags.clear c.inv.flags = true := h.2.2.2.2.2.2.1
theorem Part.sound.zones (h : c.sound) : Store.wf Zone.cold c.zones = true := h.2.2.2.2.2.2.2.1
theorem Part.sound.jobs (h : c.sound) : Store.rising c.jobs.jobs = true := h.2.2.2.2.2.2.2.2.1
theorem Part.sound.ports (h : c.sound) : Store.wf Port.cold c.jobs.ports = true := h.2.2.2.2.2.2.2.2.2.1
theorem Part.sound.roster (h : c.sound) : Store.rising c.bus.roster = true := h.2.2.2.2.2.2.2.2.2.2

/-- Soundness from its parts. -/
theorem Part.sound.of {d : Part} (h : c.sound) (recs : d.inv.recs = c.inv.recs := by rfl)
    (moves : d.mv.moves = c.mv.moves := by rfl)
    (last : d.mv.lastSeq = c.mv.lastSeq := by rfl)
    (ranges : d.zonesSound := by exact h.ranges) (pool : d.jobsSound := by exact h.pool)
    (occ : Store.wf .unknown d.inv.occ = true := by exact h.occ)
    (hints : Store.wf .missing d.inv.hints = true := by exact h.hints)
    (flags : Store.wf SlotFlags.clear d.inv.flags = true := by exact h.flags)
    (zones : Store.wf Zone.cold d.zones = true := by exact h.zones)
    (jobs : Store.rising d.jobs.jobs = true := by exact h.jobs)
    (ports : Store.wf Port.cold d.jobs.ports = true := by exact h.ports)
    (roster : Store.rising d.bus.roster = true := by exact h.roster) : d.sound := by
  refine ⟨?_, ?_, ranges, pool, occ, hints, flags, zones, jobs, ports, roster⟩
  · have := h.recs
    unfold Part.recordsSound at *
    rw [recs]; exact this
  · have := h.moves
    unfold Part.movesSound at *
    rw [moves, last]; exact this

theorem Part.sound.signal {g : Sig} (h : c.sound) : (c.signal g).sound := by
  unfold Part.signal
  split
  · exact h
  · exact h

/-- A list whose keys are among the keys of a rising one, in their order, is rising. -/
theorem Store.rising_sublist {α β : Type} {m : Store α} {k : Store β} (hs : (k.map (·.1)).Sublist (m.map (·.1)))
    (h : Store.rising m = true) : Store.rising k = true := by
  rw [Store.rising_iff] at *
  exact h.sublist hs

/-- A move number below 256 that no move carries exists while at most 24 moves stand in the list (R111). -/
theorem Part.nextNumber_fresh (h : c.mv.moves.length < 256) :
    c.nextNumber < 256 ∧ ∀ m ∈ c.mv.moves, m.num ≠ c.nextNumber := by
  have hall : ∃ i, i < 256 ∧ ∀ m ∈ c.mv.moves, m.num ≠ (c.mv.nextNum + i) % 256 := by
    by_contra hc
    push Not at hc
    have hsub : ((List.range 256).map fun i => (c.mv.nextNum + i) % 256).Subperm (c.mv.moves.map Move.num) := by
      refine List.Nodup.subperm ?_ fun n hn => ?_
      · refine List.nodup_range.map_on fun x hx y hy e => ?_
        simp only [List.mem_range] at hx hy
        omega
      · obtain ⟨i, hi, rfl⟩ := List.mem_map.1 hn
        obtain ⟨m, hm, e⟩ := hc i (List.mem_range.1 hi)
        exact List.mem_map.2 ⟨m, hm, e⟩
    simpa [Nat.not_le.2 h] using hsub.length_le
  unfold Part.nextNumber
  cases hf : List.find? _ _ with
  | none =>
    obtain ⟨i, hi, hm⟩ := hall
    have := List.find?_eq_none.1 hf _ (List.mem_map.2 ⟨i, List.mem_range.2 hi, rfl⟩)
    simp_all
  | some n =>
    have hn := List.find?_some hf
    obtain ⟨i, -, rfl⟩ := List.mem_map.1 (List.mem_of_find?_eq_some hf)
    exact ⟨Nat.mod_lt _ (by omega), by simpa using hn⟩

/-- A kind that has room leaves the list below its capacity (R111). -/
theorem Part.room_length {k : MoveKind} (h : c.hasRoom k = true) : c.mv.moves.length < 24 := by
  unfold Part.hasRoom Part.freeMoves at h
  cases k <;> simp at h <;> omega

@[simp] theorem Rec.warm_id (r : Rec) : r.warm.id = r.id := by
  unfold Rec.warm
  split
  · split <;> rfl
  all_goals rfl

theorem Zone.cold_bounded : Zone.cold.bounded := by unfold Zone.bounded; decide

/-- Every zone of sound blocks is in its ranges (R59). -/
theorem Part.sound.zone (h : c.sound) (z : Nat) : (c.zone z).bounded := by
  unfold Part.zone Store.getD
  cases hz : Store.find c.zones z with
  | none => exact Zone.cold_bounded
  | some r => exact h.ranges (z, r) (Store.mem_of_find hz)

/-- A zone record in its ranges may be written. -/
theorem Part.sound.putZone (h : c.sound) {z : Nat} {r : Zone} (hr : r.bounded) : (c.putZone z r).sound := by
  refine h.of (zones := Store.wf_setD h.zones _ _) (ranges := fun e he => ?_)
  rcases Store.mem_setD he with rfl | he
  · exact hr
  · exact h.ranges e he

/-- The port column of a job pool says how many jobs stand at a port (R85). -/
theorem Part.jobsAt_eq (c : Part) (p : Nat) : c.jobsAt p = (c.jobs.jobs.map fun e => e.2.port).count p := by
  unfold Part.jobsAt
  rw [List.count_eq_countP, List.countP_map, ← List.countP_eq_length_filter]
  congr 1

/-- A job added to the pool under a free number stands at its port besides those that stood there. -/
theorem Store.count_put_of_find_none {m : Store Job} {j : Nat} {r : Job} (hf : Store.find m j = none) (p : Nat) :
    ((Store.put m j r).map fun e => e.2.port).count p =
      (m.map fun e => e.2.port).count p + if r.port = p then 1 else 0 := by
  fun_induction Store.put m j r <;> grind [Store.find]

/-- Soundness is kept by every write of the blocks. -/
theorem free_sound : KeptFree Part.sound where
  out h := h
  work h := h
  watch h := h
  putOcc h := h.of (occ := Store.wf_setD h.occ _ _)
  setHint h := h.of (hints := Store.wf_setD h.hints _ _)
  putFlags h := h.of (flags := Store.wf_setD h.flags _ _)
  clearHints h := h.of (hints := Store.wf_filter h.hints _)
  rescanList h := h.of
  setCursor h := h.of
  dropRec {c n} h := ⟨⟨Store.rising_erase h.recs.1 n, fun e he => h.recs.2.1 e (Store.mem_erase he),
    List.Nodup.sublist ((Store.erase_sublist _ _).map _) h.recs.2.2⟩, h.2⟩
  updRec {c n f} hf h := by
    unfold Part.updRec
    split
    · exact h
    · rename_i r hr
      have key : (c.putRec n (f r)).sound :=
        ⟨⟨Store.rising_put h.recs.1 n _, fun e he => by
          rcases Store.mem_put he with rfl | he
          · exact (h.recs.2.1 (n, r) (Store.mem_of_find hr) : n < 1024)
          · exact h.recs.2.1 e he,
          (Store.map_put_of_find (g := Rec.id) h.recs.1 hr (hf r) ▸ h.recs.2.2 :
            ((Store.put c.inv.recs n (f r)).map fun e => Rec.id e.2).Nodup)⟩, h.2⟩
      dsimp only
      split
      · exact key
      · exact key.signal
  newRec {c n r} hn hi h := by
    refine ⟨⟨Store.rising_put h.recs.1 n _, fun e he => ?_, Store.nodup_put h.recs.2.2 fun e he hh => ?_⟩, h.2⟩
    · rcases Store.mem_put he with rfl | he
      · unfold Part.freeRec at hn
        dsimp only at hn
        split at hn
        · simp only [Option.some.injEq] at hn; subst hn; assumption
        · cases hn
      · exact h.recs.2.1 e he
    · unfold Part.findId at hi
      have := List.find?_eq_none.1 hi e he
      simp [hh] at this
  putZone {c z r} hk h := h.putZone (hk.1 (h.zone z))
  beginPass {c z q n} _ h := h.putZone (h.zone z)
  updJob {c j f} hf h := by
    unfold Part.updJob
    split
    · exact h
    · rename_i r hr
      refine h.of (jobs := Store.rising_put h.jobs _ _) (pool := ⟨fun e he => ?_, fun p => ?_⟩)
      · rcases Store.mem_put he with rfl | he
        · exact h.pool.1 (j, r) (Store.mem_of_find hr)
        · exact h.pool.1 e he
      · have := h.pool.2 p
        rw [Part.jobsAt_eq] at *
        have e : (Store.put c.jobs.jobs j (f r)).map (fun e => e.2.port) = c.jobs.jobs.map fun e => e.2.port :=
          Store.map_put_of_find (m := c.jobs.jobs) (g := Job.port) h.jobs hr (hf r)
        simpa only [Part.putJob, e] using this
  newJob {c j r} hj hp h := by
    unfold Part.freeJob at hj
    dsimp only at hj
    split at hj
    · rename_i hlt
      simp only [Option.some.injEq] at hj
      subst hj
      refine h.of (jobs := Store.rising_put h.jobs _ _) (pool := ⟨fun e he => ?_, fun p => ?_⟩)
      · rcases Store.mem_put he with rfl | he
        · exact hlt
        · exact h.pool.1 e he
      · have h4 := h.pool.2 p
        rw [Part.jobsAt_eq] at *
        simp only [Part.putJob]
        rw [Store.count_put_of_find_none (Store.find_lowestFree h.jobs 0).1]
        split
        · rename_i e
          subst e
          omega
        · omega
    · cases hj
  dropJob {c j} h := h.of (jobs := Store.rising_erase h.jobs _) (pool := ⟨fun e he => h.pool.1 e (Store.mem_erase he),
    fun p => ((List.Sublist.filter _ (Store.erase_sublist _ j)).length_le).trans (h.pool.2 p)⟩)
  putPort h := h.of (ports := Store.wf_setD h.ports _ _)
  offers h := h.of
  putNode h := h.of (roster := Store.rising_put h.roster _ _)
  dropNode h := h.of (roster := Store.rising_erase h.roster _)
  exchange h := h.of
  putRobot {c x r} h := by cases x <;> exact h
  filterMoves {c p} h := ⟨h.1, ⟨(List.length_filter_le _ _).trans h.moves.1,
    List.Nodup.sublist (List.filter_sublist.map _) h.moves.2.1,
    fun m hm => h.moves.2.2.1 m (List.mem_filter.1 hm).1,
    List.Pairwise.sublist (List.filter_sublist.map _) h.moves.2.2.2.1,
    fun m hm => h.moves.2.2.2.2 m (List.mem_filter.1 hm).1⟩, h.2.2⟩
  mapMoves {c f} hf h := by
    refine ⟨h.1, ⟨by simpa using h.moves.1, ?_, fun m hm => ?_, ?_, fun m hm => ?_⟩, h.2.2⟩
    · have e : (c.mv.moves.map f).map Move.num = c.mv.moves.map Move.num := by simp [Function.comp_def, hf]
      simp only [e]; exact h.moves.2.1
    · obtain ⟨k, hk, rfl⟩ := List.mem_map.1 hm
      rw [(hf k).1]; exact h.moves.2.2.1 k hk
    · have e : (c.mv.moves.map f).map Move.seq = c.mv.moves.map Move.seq := by simp [Function.comp_def, hf]
      simp only [e]; exact h.moves.2.2.2.1
    · obtain ⟨k, hk, rfl⟩ := List.mem_map.1 hm
      rw [(hf k).2]; exact h.moves.2.2.2.2 k hk
  admitMove {c m k} hr hn hs h := by
    have hl := Part.room_length hr
    obtain ⟨h1, h2⟩ := Part.nextNumber_fresh (c := c) (by omega)
    refine ⟨h.1, ⟨by rw [List.length_append]; exact hl, ?_, fun k hk => ?_, ?_, fun k hk => ?_⟩, h.2.2⟩
    · simp only [List.map_append, List.map_cons, List.map_nil]
      refine List.Nodup.append h.moves.2.1 (by simp) ?_
      intro x hx hy
      obtain ⟨k, hk, rfl⟩ := List.mem_map.1 hx
      simp only [List.mem_singleton] at hy
      exact h2 k hk (hy.trans hn)
    · rcases List.mem_append.1 hk with hk | hk
      · exact h.moves.2.2.1 k hk
      · simp only [List.mem_singleton] at hk
        subst hk
        rw [hn]; exact h1
    · simp only [List.map_append, List.map_cons, List.map_nil]
      refine List.pairwise_append.2 ⟨h.moves.2.2.2.1, by simp, fun a ha b hb => ?_⟩
      obtain ⟨k, hk, rfl⟩ := List.mem_map.1 ha
      rw [List.mem_singleton.1 hb, hs]
      exact Nat.lt_succ_of_le (h.moves.2.2.2.2 k hk)
    · rcases List.mem_append.1 hk with hk | hk
      · have := h.moves.2.2.2.2 k hk
        dsimp only
        omega
      · rw [List.mem_singleton.1 hk]

/-- Every write of the blocks keeps the tables sound. -/
theorem kept_sound : KeptAll Part.sound where
  __ := free_sound.kept
  now _ h := h
  ctl h := h
  window h := h
  bus hs h := h.of (roster := Store.rising_sublist hs h.roster)
  robots h := h
  tables h := h
  gens h := h
  noMoves {c} h := ⟨h.1, ⟨by simp, by simp, by simp, by simp, by simp⟩, h.2.2⟩
  noJobs h := h.of (jobs := rfl) (pool := ⟨nofun, fun _ => Nat.zero_le _⟩)
  warmInventory {c} h := by
    refine ⟨⟨Store.rising_sublist (by simp [Part.warmInventory, List.map_map, Function.comp_def]) h.recs.1, ?_, ?_⟩, h.moves, h.ranges,
      h.pool, ?_, h.hints, h.flags, h.zones, h.jobs, h.ports, h.roster⟩
    · intro e he
      obtain ⟨k, hk, rfl⟩ := List.mem_map.1 he
      exact h.recs.2.1 k hk
    · have e : ((c.inv.recs.map fun e => (e.1, e.2.warm)).map fun e => e.2.id) = c.inv.recs.map fun e => e.2.id := by
        simp [Function.comp_def]
      unfold Part.warmInventory
      dsimp only
      rw [e]; exact h.recs.2.2
    · have := h.occ
      unfold Store.wf at *
      rw [Bool.and_eq_true] at *
      refine ⟨Store.rising_sublist (by simp [Part.warmInventory, List.map_map, Function.comp_def]) this.1, ?_⟩
      rw [List.all_eq_true] at *
      intro e he
      obtain ⟨k, hk, rfl⟩ := List.mem_map.1 he
      have hk' := this.2 k hk
      revert hk'
      cases k.2 <;> simp [Occ.withVerified]

end Sound

end Sys2Proof.Machine
end

