-- ==== Sys2Proof/Laws/Agreement.lean ====
section
/-! SUPPORT. The agreement of the Location Table and the Reticle Table (R5) is kept by every write of the blocks: an
operation that moves no pod leaves `Part.places` as it is, and the few that do move one change both tables together. -/

namespace Sys2Proof.Machine

variable {c d : Part}

/-! ### What the two tables say of the pods -/

/-- The record each location names, and the place each record names. -/
def Part.places (c : Part) : (Nat → Option Nat) × (Nat → Option Place) :=
  (fun l => (c.occ l).resident, fun n => (c.rec? n).map Rec.place)

theorem Part.agrees_iff : c.agrees ↔ ∀ n l, c.places.2 n = some (.loc l) ↔ c.places.1 l = some n := by
  simp only [Part.agrees, Part.places, Option.map_eq_some_iff]

theorem Part.setOcc_occ (h : c.sound) (l k : Nat) (o : Occ) : (c.setOcc l o).occ k = if k = l then o else c.occ k := by
  split
  · rename_i e
    subst e
    unfold Part.occ
    rw [Part.setOcc_inv]
    exact Store.getD_setD_self h.occ _ _
  · exact Part.setOcc_occ_ne (Ne.symm ‹_›)

theorem Part.setOcc_rec (l n : Nat) (o : Occ) : (c.setOcc l o).rec? n = c.rec? n := by
  unfold Part.rec?
  rw [Part.setOcc_inv]
  rfl

theorem Part.updRec_rec (n k : Nat) (f : Rec → Rec) :
    (c.updRec n f).rec? k = if k = n then (c.rec? n).map f else c.rec? k := by
  have hp : ∀ r, (c.putRec n r).rec? k = if k = n then some r else c.rec? k := by
    intro r
    unfold Part.rec? Part.putRec
    dsimp only
    split
    · rename_i e
      subst e
      exact Store.find_put_self _ _ _
    · exact Store.find_put_of_ne _ _ ‹_›
  have hs : ∀ (d : Part) g, (d.signal g).rec? k = d.rec? k := fun d g => by
    unfold Part.signal
    split <;> rfl
  unfold Part.updRec
  cases hr : c.rec? n with
  | none =>
    dsimp only
    split
    · rename_i e
      rw [e, hr]; rfl
    · rfl
  | some r =>
    dsimp only
    split
    · exact hp _
    · exact (hs _ _).trans (hp _)

theorem Part.updRec_occ (n l : Nat) (f : Rec → Rec) : (c.updRec n f).occ l = c.occ l := by
  unfold Part.updRec
  split
  · rfl
  · dsimp only
    split
    · rfl
    · unfold Part.signal
      split <;> rfl

theorem Part.rec_freeRec {n : Nat} (h : c.sound) (hn : c.freeRec = some n) : c.rec? n = none := by
  unfold Part.freeRec at hn
  dsimp only at hn
  split at hn
  · exact Option.some.inj hn ▸ (Store.find_lowestFree h.recs.1 0).1
  · cases hn

/-! ### Operations that move no pod -/

theorem Part.places_of {x} (h : c.places = x) (inv : d.inv.occ = c.inv.occ) (recs : d.inv.recs = c.inv.recs) :
    d.places = x := by
  rw [← h]
  unfold Part.places Part.occ Part.rec?
  rw [inv, recs]

/-- An operation that changes an occupancy only between values that name the same record, and a record only where it
stands, leaves the places as they are. -/
theorem kept_places (x : (Nat → Option Nat) × (Nat → Option Place)) : Kept0 fun c => c.sound ∧ c.places = x where
  out h := h
  work h := h
  watch h := h
  setHint h := ⟨free_sound.setHint h.1, h.2⟩
  putFlags h := ⟨free_sound.putFlags h.1, h.2⟩
  clearHints h := ⟨free_sound.clearHints h.1, h.2⟩
  rescanList h := ⟨free_sound.rescanList h.1, h.2⟩
  setCursor h := ⟨free_sound.setCursor h.1, h.2⟩
  putZone hk h := ⟨free_sound.putZone hk h.1, h.2⟩
  beginPass hc h := ⟨free_sound.beginPass hc h.1, h.2⟩
  updJob {c j f} hf h := ⟨free_sound.updJob hf h.1, by
    unfold Part.updJob
    split <;> exact h.2⟩
  newJob hj hp h := ⟨free_sound.newJob hj hp h.1, h.2⟩
  dropJob h := ⟨free_sound.dropJob h.1, h.2⟩
  putPort h := ⟨free_sound.putPort h.1, h.2⟩
  offers h := ⟨free_sound.offers h.1, h.2⟩
  putNode h := ⟨free_sound.putNode h.1, h.2⟩
  dropNode h := ⟨free_sound.dropNode h.1, h.2⟩
  exchange h := ⟨free_sound.exchange h.1, h.2⟩
  putRobot {c x r} h := ⟨free_sound.putRobot h.1, by cases x <;> exact h.2⟩
  filterMoves h := ⟨free_sound.filterMoves h.1, h.2⟩
  mapMoves hf h := ⟨free_sound.mapMoves hf h.1, h.2⟩
  admitMove hr hn hs h := ⟨free_sound.admitMove hr hn hs h.1, h.2⟩
  sameOcc {c l o} ho h := by
    refine ⟨free_sound.putOcc h.1, ?_⟩
    rw [← h.2]
    unfold Part.places
    refine Prod.ext (funext fun k => ?_) rfl
    unfold Part.occ Part.putOcc
    dsimp only
    by_cases e : k = l
    · subst e
      rw [Store.getD_setD_self h.1.occ]
      exact ho
    · rw [Store.getD_setD_of_ne _ _ _ e]
  updRec {c n f} hf h := by
    refine ⟨free_sound.updRec (fun r => (hf r).1) h.1, ?_⟩
    rw [← h.2]
    unfold Part.places
    refine Prod.ext (funext fun k => ?_) (funext fun k => ?_)
    · dsimp only
      rw [Part.updRec_occ]
    · dsimp only
      rw [Part.updRec_rec]
      split
      · rename_i e
        subst e
        cases c.rec? k with
        | none => rfl
        | some r => simp [(hf r).2]
      · rfl

theorem Part.agrees.of_places (h : c.agrees) (e : d.places = c.places) : d.agrees := by
  rw [Part.agrees_iff] at *
  rw [e]
  exact h

/-- Both tables, sound and in agreement. -/
def Part.accords (c : Part) : Prop := c.sound ∧ c.agrees

theorem Part.accords.via (h : c.accords) (hk : ∀ x, c.sound ∧ c.places = x → d.sound ∧ d.places = x) : d.accords :=
  ⟨(hk _ ⟨h.1, rfl⟩).1, h.2.of_places (hk _ ⟨h.1, rfl⟩).2⟩

theorem accords0 : Kept0 Part.accords where
  out h := h
  work h := h
  watch h := h
  setHint h := h.via fun x => (kept_places x).setHint
  putFlags h := h.via fun x => (kept_places x).putFlags
  clearHints h := h.via fun x => (kept_places x).clearHints
  rescanList h := h.via fun x => (kept_places x).rescanList
  setCursor h := h.via fun x => (kept_places x).setCursor
  putZone hk h := h.via fun x => (kept_places x).putZone hk
  beginPass hc h := h.via fun x => (kept_places x).beginPass hc
  updJob hf h := h.via fun x => (kept_places x).updJob hf
  newJob hj hp h := h.via fun x => (kept_places x).newJob hj hp
  dropJob h := h.via fun x => (kept_places x).dropJob
  putPort h := h.via fun x => (kept_places x).putPort
  offers h := h.via fun x => (kept_places x).offers
  putNode h := h.via fun x => (kept_places x).putNode
  dropNode h := h.via fun x => (kept_places x).dropNode
  exchange h := h.via fun x => (kept_places x).exchange
  putRobot h := h.via fun x => (kept_places x).putRobot
  filterMoves h := h.via fun x => (kept_places x).filterMoves
  mapMoves hf h := h.via fun x => (kept_places x).mapMoves hf
  admitMove hr hn hs h := h.via fun x => (kept_places x).admitMove hr hn hs
  sameOcc ho h := h.via fun x => (kept_places x).sameOcc ho
  updRec hf h := h.via fun x => (kept_places x).updRec hf

/-- Places tell which records there are. -/
theorem Part.isSome_of_places (h : d.places = c.places) (k : Nat) : (d.rec? k).isSome = (c.rec? k).isSome := by
  have hk : (d.rec? k).map Rec.place = (c.rec? k).map Rec.place := congrFun (congrArg Prod.snd h) k
  rw [← Option.isSome_map (f := Rec.place), hk, Option.isSome_map]

/-! ### Operations that move a pod -/

/-- What stands between two states when record n has left its place: no location names it, and every other record and
location is as it was. -/
structure Part.Left (c d : Part) (n : Nat) : Prop where
  accords : d.accords
  none : ∀ l, (d.occ l).resident ≠ some n
  others : ∀ l k, k ≠ n → ((d.occ l).resident = some k ↔ (c.occ l).resident = some k)
  recs : ∀ k, (d.rec? k).isSome = (c.rec? k).isSome

/-- A record that stands nowhere has left its place. -/
theorem Part.Left.of_places {e : Part} {n : Nat} (h : c.Left d n) (hs : e.sound) (he : e.places = d.places) :
    c.Left e n := by
  have ho : ∀ l, (e.occ l).resident = (d.occ l).resident := fun l => congrFun (congrArg Prod.fst he) l
  exact ⟨⟨hs, h.accords.2.of_places he⟩, fun l => ho l ▸ h.none l, fun l k hk => ho l ▸ h.others l k hk,
    fun k => (Part.isSome_of_places he k).trans (h.recs k)⟩

theorem Part.vacate_rec (n k : Nat) (o : Occ) : (c.vacate n o).rec? k = c.rec? k := by
  unfold Part.vacate
  split
  · split
    · exact Part.setOcc_rec _ _ _
    · rfl
  · rfl

theorem Part.vacate_sound {n : Nat} {o : Occ} (h : c.sound) : (c.vacate n o).sound := free_sound.vacate h

/-- The place a record leaves names nobody, and every other location names whom it named. -/
theorem Part.vacate_resident {n : Nat} {o : Occ} (h : c.accords) (ho : o.resident = none) (l : Nat) :
    ((c.vacate n o).occ l).resident = if (c.occ l).resident = some n then none else (c.occ l).resident := by
  have ha := h.2 n
  unfold Part.vacate
  split
  · split
    · rw [Part.setOcc_occ h.1]
      grind
    · grind
  · grind

theorem Part.left_unplace {n : Nat} {o : Occ} {f : Rec → Rec} (h : c.accords) (ho : o.resident = none)
    (hf : ∀ r, (f r).id = r.id ∧ ∀ l, (f r).place ≠ .loc l) : c.Left ((c.vacate n o).updRec n f) n := by
  have hv := fun l => Part.vacate_resident (n := n) h ho l
  have ha := h.2
  unfold Part.agrees at ha
  have hr : ∀ k, ((c.vacate n o).updRec n f).rec? k = if k = n then (c.rec? n).map f else c.rec? k := fun k => by
    rw [Part.updRec_rec, Part.vacate_rec, Part.vacate_rec]
  refine ⟨⟨free_sound.updRec (fun r => (hf r).1) (Part.vacate_sound h.1), fun m l => ?_⟩, fun l => ?_, fun l k hk => ?_,
    fun k => ?_⟩
  · have hm : ∀ r, (c.rec? n).map f = some r → r.place ≠ .loc l := fun r q => by
      obtain ⟨w, _, rfl⟩ := Option.map_eq_some_iff.1 q
      exact (hf w).2 l
    simp only [hr, hv, Part.updRec_occ]
    have := ha m l
    by_cases e : m = n <;> grind
  all_goals simp only [hr, hv, Part.updRec_occ]
  all_goals grind

/-- A Kept0 operation leaves the places as they are. -/
theorem Part.places_via (hk : ∀ x, c.sound ∧ c.places = x → d.sound ∧ d.places = x) (h : c.sound) :
    d.sound ∧ d.places = c.places := hk _ ⟨h, rfl⟩

theorem Part.left_makeLost {n : Nat} {cause : LostCause} (h : c.accords) (hn : (c.rec? n).isSome) :
    c.Left (c.makeLost n cause) n := by
  unfold Part.makeLost
  cases hr : c.rec? n with
  | none => rw [hr] at hn; cases hn
  | some r =>
    have h1 := Part.left_unplace (n := n) (o := .unknown)
      (f := fun r => { r with place := .none, state := .lost, job := none }) h rfl (fun _ => ⟨rfl, nofun⟩)
    have h2 := Part.places_via (fun x hx => (kept_places x).limboAccount (n := n) ((kept_places x).say
      (n := .reticleLost n r.id r.place cause) hx)) h1.accords.1
    exact h1.of_places h2.1 h2.2

theorem Part.left_makeInDoubt {n : Nat} (h : c.accords) : c.Left (c.makeInDoubt n) n := by
  have h1 := Part.left_unplace (n := n) (o := .unknown)
    (f := fun r => { r with place := .none, state := .inDoubt, job := none }) h rfl (fun _ => ⟨rfl, nofun⟩)
  have h2 := Part.places_via (fun x hx => (kept_places x).limboAccount (n := n) hx) h1.accords.1
  exact h1.of_places h2.1 h2.2

/-- What a location's being given up leaves: nobody named there, and every other record and location as it was. -/
structure Part.Freed (c d : Part) (l : Nat) : Prop where
  accords : d.accords
  none : (d.occ l).resident = none
  others : ∀ k, k ≠ l → (d.occ k).resident = (c.occ k).resident
  recs : ∀ k, (d.rec? k).isSome = (c.rec? k).isSome

theorem Part.accords.rec_of_resident (h : c.accords) {n l : Nat} (hl : (c.occ l).resident = some n) :
    (c.rec? n).isSome := by
  have ha := h.2
  unfold Part.agrees at ha
  obtain ⟨r, hr, _⟩ := (ha n l).2 hl
  rw [hr]; rfl

theorem Part.Left.freed {n l : Nat} (hc : c.accords) (h : c.Left d n) (hl : (c.occ l).resident = some n) : c.Freed d l := by
  refine ⟨h.accords, ?_, fun k hk => ?_, h.recs⟩
  · have hn := h.none l
    rcases q : (d.occ l).resident with _ | j
    · rfl
    · have := h.others l j
      grind
  · have hn := h.none k
    have ho := h.others k
    have ha := hc.2 n
    rcases hf : (c.occ k).resident with _ | j
    · refine Option.eq_none_iff_forall_ne_some.2 fun j hj => ?_
      grind
    · grind

theorem Part.Freed.of_places {e : Part} {l : Nat} (h : c.Freed d l) (hs : e.sound) (he : e.places = d.places) :
    c.Freed e l := by
  have ho : ∀ l, (e.occ l).resident = (d.occ l).resident := fun l => congrFun (congrArg Prod.fst he) l
  exact ⟨⟨hs, h.accords.2.of_places he⟩, (ho l).trans h.none, fun k hk => (ho k).trans (h.others k hk),
    fun k => (Part.isSome_of_places he k).trans (h.recs k)⟩

theorem Part.Freed.after {b : Part} {l : Nat} (h : c.Freed d l) (hb : c.places = b.places) : b.Freed d l := by
  have ho : ∀ l, (c.occ l).resident = (b.occ l).resident := fun l => congrFun (congrArg Prod.fst hb) l
  exact ⟨h.accords, h.none, fun k hk => (h.others k hk).trans (ho k),
    fun k => (h.recs k).trans (Part.isSome_of_places hb k)⟩

theorem Part.freed_refl {l : Nat} (h : c.accords) (hl : (c.occ l).resident = none) : c.Freed c l :=
  ⟨h, hl, fun _ _ => rfl, fun _ => rfl⟩

theorem Part.freed_displace {l : Nat} {cause : LostCause} (h : c.accords) : c.Freed (c.displace l cause) l := by
  unfold Part.displace
  split
  · exact Part.freed_refl h ‹_›
  · rename_i k hk
    dsimp only
    have h1 := Part.places_via (fun x hx => (kept_places x).endCommitments (n := k) (cause := .readDisplaced) hx) h.1
    have a1 : (c.endCommitments k .readDisplaced).accords := ⟨h1.1, h.2.of_places h1.2⟩
    have hk1 : ((c.endCommitments k .readDisplaced).occ l).resident = some k :=
      (congrFun (congrArg Prod.fst h1.2) l).trans hk
    have h2 := ((Part.left_makeLost (cause := cause) a1 (a1.rec_of_resident hk1)).freed a1 hk1).after h1.2
    split
    · have h3 := Part.places_via (fun x hx => (kept_places x).raiseFlag (l := l)
        (f := if cause = .otherPod then .mismatch else .conflict) hx) h2.accords.1
      exact h2.of_places h3.1 h3.2
    · exact h2

theorem Part.freed_doubt {l : Nat} (h : c.accords) : c.Freed (c.doubt l) l := by
  unfold Part.doubt
  split
  · rename_i k hk
    have h1 := Part.places_via (fun x hx => (kept_places x).endCommitments (n := k) (cause := .readDisplaced) hx) h.1
    have a1 : (c.endCommitments k .readDisplaced).accords := ⟨h1.1, h.2.of_places h1.2⟩
    have hk1 : ((c.endCommitments k .readDisplaced).occ l).resident = some k :=
      (congrFun (congrArg Prod.fst h1.2) l).trans hk
    exact ((Part.left_makeInDoubt (n := k) a1).freed a1 hk1).after h1.2
  · exact Part.freed_refl h ‹_›

theorem Part.Freed.setOcc {l : Nat} {o : Occ} (h : c.Freed d l) (ho : o.resident = Option.none) : (d.setOcc l o).accords :=
  accords0.setOcc (ho.trans h.none.symm) h.accords

/-- A record that has no place comes to stand at a free location, and both tables say so. -/
theorem Part.agrees_stand {n l : Nat} {e : Part} (ha : d.accords) (hl : (d.occ l).resident = none)
    (hn : ∀ k, (d.occ k).resident ≠ some n)
    (ho : ∀ k, (e.occ k).resident = if k = l then some n else (d.occ k).resident)
    (hr : ∀ k, k ≠ n → (e.rec? k).map Rec.place = (d.rec? k).map Rec.place)
    (hp : (e.rec? n).map Rec.place = some (.loc l)) : e.agrees := by
  have h := ha.2
  rw [Part.agrees_iff] at *
  simp only [Part.places] at *
  intro m k
  have := hr m
  have := hn k
  have := h m k
  grind

theorem Part.evict_freed {n l : Nat} (h : c.accords) :
    (c.evict l (some n)).accords ∧
      (((c.evict l (some n)).occ l).resident = none ∨ ((c.evict l (some n)).occ l).resident = some n) := by
  unfold Part.evict
  split
  · exact ⟨(Part.freed_displace h).accords, .inl (Part.freed_displace h).none⟩
  · refine ⟨h, ?_⟩
    cases hl : (c.occ l).resident <;> simp_all

theorem Part.accords_putPod {n l : Nat} {left : Occ} {f : Rec → Rec} (h : c.accords) (hleft : left.resident = none)
    (hf : ∀ r, (f r).id = r.id) (hl : (c.occ l).resident = none ∨ (c.occ l).resident = some n) :
    (c.putPod n l left f).accords := by
  unfold Part.putPod
  split
  · rename_i r hr
    refine ⟨free_sound.updRec hf (free_sound.setOcc (Part.vacate_sound h.1)), ?_⟩
    have h2 := Part.left_unplace (f := fun r => { f r with place := .none }) (n := n) h hleft
      (fun r => ⟨hf r, fun _ => nofun⟩)
    refine Part.agrees_stand (n := n) (l := l) h2.accords ?_ h2.none (fun k => ?_) (fun k hk => ?_) ?_
    · rw [Part.updRec_occ, Part.vacate_resident h hleft]
      rcases hl with hl | hl
      · rw [hl]; rfl
      · rw [hl, if_pos rfl]
    · rw [Part.updRec_occ, Part.updRec_occ, Part.setOcc_occ (Part.vacate_sound h.1)]
      split <;> rfl
    · rw [Part.updRec_rec, if_neg hk, Part.setOcc_rec, Part.updRec_rec, if_neg hk]
    · rw [Part.updRec_rec, if_pos rfl, Part.setOcc_rec, Part.vacate_rec, hr]
      rfl
  · exact h

theorem Part.putRec_rec (n k : Nat) (r : Rec) : (c.putRec n r).rec? k = if k = n then some r else c.rec? k := by
  unfold Part.rec? Part.putRec
  dsimp only
  split
  · rename_i e
    subst e
    exact Store.find_put_self _ _ _
  · exact Store.find_put_of_ne _ _ ‹_›

theorem Part.accords.unnamed (h : c.accords) {n : Nat} (hn : c.rec? n = none) (k : Nat) : (c.occ k).resident ≠ some n := by
  intro hk
  have := h.rec_of_resident hk
  rw [hn] at this
  cases this

theorem accords_place {n l : Nat} {v : Bool} {r : Rec} (h : c.accords) (hl : (c.occ l).resident = none)
    (hn : c.freeRec = some n) (hi : c.findId r.id = none) (hr : r.place = .loc l) :
    ((c.putRec n r).setOcc l (.occupied n v)).accords := by
  have s1 : (c.putRec n r).sound := free_sound.newRec hn hi h.1
  refine ⟨free_sound.setOcc s1, Part.agrees_stand h hl (h.unnamed (Part.rec_freeRec h.1 hn)) (fun k => ?_)
    (fun k hk => ?_) ?_⟩
  · rw [Part.setOcc_occ s1]
    split <;> rfl
  · rw [Part.setOcc_rec, Part.putRec_rec, if_neg hk]
  · rw [Part.setOcc_rec, Part.putRec_rec, if_pos rfl, Option.map_some, hr]

/-- Every write of the blocks keeps both tables sound and in agreement (R5). -/
theorem kept_accords : KeptAll Part.accords where
  __ := accords0
  unplace ho hf h := (Part.left_unplace h ho hf).accords
  gone hl ho h := ((Part.left_makeLost h (h.rec_of_resident hl)).freed h hl).setOcc ho
  emptied ho h := (Part.freed_displace h).setOcc ho
  doubted ho h := (Part.freed_doubt h).setOcc ho
  arrive ho hf h := Part.accords_putPod (Part.evict_freed h).1 ho hf (Part.evict_freed h).2
  create hr hn hx h := accords_place (Part.freed_displace h).accords (Part.freed_displace h).none hn
    ((kept_unused _).kept1.displace hx) hr
  declareAt {c n l r} hr hn hx hl h := by
    have s1 : (c.putRec n r).sound := free_sound.newRec hn hx h.1
    have s2 : ((c.putRec n r).signal (.reticle n)).sound := s1.signal
    have hs : ∀ k, ((c.putRec n r).signal (.reticle n)).rec? k = (c.putRec n r).rec? k := fun k => by
      unfold Part.signal
      split <;> rfl
    have ho : ∀ k, ((c.putRec n r).signal (.reticle n)).occ k = c.occ k := fun k => by
      unfold Part.signal
      split <;> rfl
    refine ⟨free_sound.setOcc s2, Part.agrees_stand h hl (h.unnamed (Part.rec_freeRec h.1 hn)) (fun k => ?_)
      (fun k hk => ?_) ?_⟩
    · rw [Part.setOcc_occ s2, ho]
      split <;> rfl
    · rw [Part.setOcc_rec, hs, Part.putRec_rec, if_neg hk]
    · rw [Part.setOcc_rec, hs, Part.putRec_rec, if_pos rfl, Option.map_some, hr]
  newRec {c n r} hr hn hx h := by
    refine ⟨free_sound.newRec hn hx h.1, fun m l => ?_⟩
    have ha := h.2
    unfold Part.agrees at ha
    have := ha m l
    have := h.unnamed (Part.rec_freeRec h.1 hn) l
    have : (c.putRec n r).occ l = c.occ l := rfl
    rw [Part.putRec_rec]
    by_cases e : m = n <;> grind
  remove {c n o} ho h := by
    refine ⟨free_sound.dropRec (Part.vacate_sound h.1), fun m l => ?_⟩
    have ha := h.2
    unfold Part.agrees at ha
    have hv := Part.vacate_resident (n := n) h ho l
    have hr : ((c.vacate n o).dropRec n).rec? m = if m = n then none else c.rec? m := by
      have hs := (Part.vacate_sound (n := n) (o := o) h.1).recs.1
      split
      · rename_i e
        subst e
        exact Store.find_erase_self hs m
      · exact (Store.find_erase_of_ne _ ‹_›).trans (Part.vacate_rec n m o)
    have hocc : (((c.vacate n o).dropRec n).occ l).resident = ((c.vacate n o).occ l).resident := rfl
    rw [hr, hocc, hv]
    have := ha m l
    grind
  now _ h := h
  ctl h := h
  window h := h
  bus hs h := ⟨kept_sound.bus hs h.1, h.2⟩
  robots h := h
  tables h := h
  gens h := h
  noMoves h := ⟨kept_sound.noMoves h.1, h.2⟩
  noJobs h := ⟨kept_sound.noJobs h.1, h.2⟩
  warmInventory {c} h := by
    refine ⟨kept_sound.warmInventory h.1, h.2.of_places ?_⟩
    unfold Part.places Part.occ Part.rec? Part.warmInventory
    refine Prod.ext (funext fun l => ?_) (funext fun n => ?_)
    · simp only [Store.getD, Store.find_map]
      cases Store.find c.inv.occ l <;> simp
    · simp only [Store.find_map]
      cases Store.find c.inv.recs n <;> simp

end Sys2Proof.Machine
end

