-- ==== Sys2Proof/Laws/Upstream.lean ====
section
/-! SUPPORT. The end of an event and the taking of a request, once: what `close`, `flush`, `transmit`, `finish`, `run`,
`request` and `query` can do to the machine. -/

namespace Sys2Proof.Machine

/-! ### What the end of an event keeps -/

/-- The end of an event leaves the part time, the live tables and the generations as they were. -/
theorem Part.close_live (c : Part) : (c.close.now, c.close.tables, c.close.gens) = (c.now, c.tables, c.gens) :=
  (kept_live _).close rfl

theorem Part.close_now (c : Part) : c.close.now = c.now := congrArg Prod.fst c.close_live
theorem Part.close_tables (c : Part) : c.close.tables = c.tables := congrArg (fun x => x.2.1) c.close_live
theorem Part.close_gens (c : Part) : c.close.gens = c.gens := congrArg (fun x => x.2.2) c.close_live

/-- The end of an event keeps the tables sound. -/
theorem Part.close_sound {c : Part} (h : c.sound) : c.close.sound := kept_sound.close h

/-- The choice of the next exchange writes what stands on the bus and the two addresses last taken, and no more. -/
theorem Part.chooseExchange_eq (c : Part) :
    ∃ e a b, c.chooseExchange = { c with bus := { c.bus with exchange := e, lastOrder := a, lastPoll := b } } := by
  unfold Part.chooseExchange
  repeat' split
  all_goals exact ⟨_, _, _, rfl⟩

/-! ### The transmitter -/

/-- The transmitter's choice, in one of three shapes. -/
theorem State.transmit_cases (s : State) :
    s.transmit = s ∨
    (∃ r t, s.link.state ≠ .down ∧ s.link.sending = none ∧ s.notices.sending = none ∧ s.link.replies = r :: t ∧
      s.transmit = { s with link := { s.link with replies := t, sending := some r } }) ∨
    (∃ n t, s.link.state ≠ .down ∧ s.link.sending = none ∧ s.notices.sending = none ∧ s.link.replies = [] ∧
      s.notices.queue = n :: t ∧
      s.transmit = { s with notices := { s.notices with queue := t, sending := some n } }) := by
  unfold State.transmit
  repeat' split
  all_goals simp_all

/-- A choice of the transmitter leaves the replies owed as they are. -/
theorem State.owed_transmit (s : State) : s.transmit.owed = s.owed := by
  rcases s.transmit_cases with h | ⟨r, t, -, h1, -, h2, h⟩ | ⟨n, t, -, -, -, -, -, h⟩
  · rw [h]
  · rw [h]; simp [State.owed, h1, h2]
  · rw [h]; rfl

/-- A choice of the transmitter leaves the notices queued as they are. -/
theorem State.noticed_transmit (s : State) : s.transmit.noticed = s.noticed := by
  rcases s.transmit_cases with h | ⟨r, t, -, -, -, -, h⟩ | ⟨n, t, -, -, h1, -, h2, h⟩
  · rw [h]
  · rw [h]; rfl
  · rw [h]; simp [State.noticed, h1, h2]

/-! ### Requests and runs -/

section

variable {R : Part → Prop} {s : State}

theorem KeptCtl.finish (K : KeptCtl R) (h : R s.part) : R s.finish.part := by
  rw [State.finish_part]
  exact K.out (K.close h)

theorem KeptCtl.overrun (K : KeptCtl R) (h : R s.part) : R s.overrun.part := by
  refine K.finish ?_
  unfold State.linkFault
  split
  · exact h
  · exact K.say h

/-- A request keeps what its owner's answer keeps. -/
theorem KeptCtl.request (K : KeptCtl R) {addr tag kind : Nat} {f : State → State × Rsp} (h : R s.part)
    (hf : ∀ s', R s'.part → R (f s').1.part) : R (s.request addr tag kind f).part := by
  unfold State.request
  split
  · exact h
  · split
    · exact K.overrun h
    · exact K.finish (hf _ h)

/-- A query keeps what the overrun keeps. -/
theorem KeptCtl.query (K : KeptCtl R) {tag kind : Nat} {f : State → Rsp} (h : R s.part) :
    R (s.query tag kind f).part := by
  unfold State.query
  split
  · exact h
  · split
    · exact K.overrun h
    · rcases (s.heard.reply ⟨0, kind, tag, f s.heard⟩).transmit_cases with e | ⟨r, t, -, -, -, -, e⟩ | ⟨n, t, -, -, -, -, -, e⟩
      all_goals rw [e]; exact h

/-- An event of the blocks alone keeps what its effect keeps. -/
theorem KeptCtl.run (K : KeptCtl R) {f : Part → Part} (h : R (f s.part)) : R (s.run f).part := K.finish h

end

/-! ### The notice queue -/

theorem NoticeQueue.dropMinor_length {l t : List Notice} (h : dropMinor l = some t) : l.length = t.length + 1 := by
  fun_induction dropMinor l generalizing t <;> grind [Option.map_eq_some_iff]

/-- The queue never holds more than 32 notices (R169). -/
theorem NoticeQueue.push_size {q : NoticeQueue} {time : Nat} {n : Subject} (h : q.size ≤ 32) :
    (q.push time n).size ≤ 32 := by
  have := fun t => NoticeQueue.dropMinor_length (l := q.queue) (t := t)
  unfold NoticeQueue.push
  grind [NoticeQueue.size]

theorem NoticeQueue.pushAll_size {q : NoticeQueue} {time : Nat} {l : List Subject} (h : q.size ≤ 32) :
    (q.pushAll time l).size ≤ 32 :=
  List.foldlRecOn (motive := fun q : NoticeQueue => q.size ≤ 32) l _ h fun _ hq _ _ => NoticeQueue.push_size hq

end Sys2Proof.Machine
end

