-- ==== Sys2Proof/Tests/Slice0.lean ====
section
/-! SUPPORT. Tests. The expected values come from the spec: from its worked sequences (12_worked_sequences.md), from its
tables, or by hand from its rules. For every statement with hypotheses, one theorem here shows a state and operands that meet
them, each clause of it at a boundary value. -/

namespace Sys2Proof.Tests

open Sys2Proof Sys2Proof.Machine

set_option Elab.async false

/-! ### A small machine -/

/-- The state a command leaves. -/
def after (s : State) (i : Instr) : State :=
  match exec i s with
  | .next t => t
  | _ => s

/-- The result code of the reply a command is answered with. -/
def answer (s : State) (i : Instr) : Option (Result × Bool) :=
  (after s i).owed.getLast?.map fun r => (r.rsp.result, r.rsp.express)

/-- An identity of 12 equal letters. -/
def idOf (n : Nat) : RetId := List.replicate 12 (BitVec.ofNat 8 (65 + n))

/-- A PRESENT node with its capabilities. -/
def node (k : NodeKind) (identity : Nat) : Node :=
  ⟨k, identity, some ⟨false, .a, 4⟩, .present, 0, false, false, [], false, false, true⟩

/-- Two robots, port 4 (AUTO, column 8), port 7 (DIRECTED, column 15), a manifold that supplies zone 8 by channel 0. -/
def tables : Tables := { Tables.default with
  ports := [(4, ⟨true, 8, false, 15⟩), (7, ⟨true, 15, true, 15⟩)]
  plan := [(1, ⟨.robot, 100, 0⟩), (2, ⟨.robot, 101, 1⟩), (3, ⟨.port, 200, 4⟩), (4, ⟨.manifold, 300, 0⟩),
    (5, ⟨.port, 201, 7⟩)]
  zone := ⟨[(8, ⟨true, 4, 0⟩)], ⟨20, 240, 2⟩⟩
  filter := [⟨true, true⟩, ⟨false, false⟩, ⟨true, true⟩, ⟨true, true⟩, ⟨true, true⟩, ⟨true, true⟩, ⟨true, true⟩] }

/-- Record 5 of the worked delivery: class 0, protected in slot 487. -/
def rec5 : Rec := ⟨idOf 0, 0, 1, .loc 487, .idle, false, false, false, 800, 0, none, none⟩

/-- A record OUT at the scanner of port 4. -/
def rec6 : Rec := ⟨idOf 1, 3, 2, .scanner 4, .out, false, false, false, 100, 30, some 940, none⟩

/-- Robot A IDLE at span 4, robot B parked; one reticle in slot 487, one at a scanner. -/
def part : Part := { Part.cold with
  now := 1000
  tables := tables
  inv := { Part.cold.inv with
    occ := [(0, .vacant), (487, .occupied 5 true), (488, .vacant), (964, .vacant), (968, .vacant), (969, .vacant)]
    recs := [(5, rec5), (6, rec6)] }
  zones := [(8, { Zone.cold with b := 0, timer := some 5000 })]
  mv := { Part.cold.mv with
    robotA := ⟨.idle, some 4, some (4, 4), none, none, [], false, none⟩
    robotB := ⟨.idle, some 17, some (17, 17), none, none, [], false, none⟩ }
  bus := ⟨[(1, node .robot 100), (2, node .robot 101), (3, node .port 200), (4, node .manifold 300), (5, node .port 201)],
    none, none, 0, 0, none⟩
  ctl := ⟨.normal, none, false, FailCauses.none, false, false, false, false, false, false, false⟩ }

/-- The machine with the link UP and nothing owed. -/
def base : State := { State.reset with part := part, link := ⟨.up, some 1030, [], none, false⟩ }

/-- The machine with other blocks. -/
def withPart (f : Part → Part) : State := { base with part := f base.part }

/-- The machine in another mode. -/
def inMode (m : Mode) : State := withPart fun c => { c with ctl := { c.ctl with mode := m } }

/-- The machine with a move in its list. -/
def withMove (m : Move) : State := withPart fun c => { c with mv := { c.mv with moves := [m], nextNum := 21, lastSeq := 7 } }

/-- A RELOCATE of record 5 from slot 487 to slot 488 by robot A. -/
def move20 : Move :=
  ⟨20, 7, .relocate, .a, some 487, some 488, none, some 5, none, .relocate, .pending, false, false, false, none, none, none,
    false⟩

/-- That move, dispatched, robot A BUSY with it. -/
def moving : State :=
  let s := withMove { move20 with state := .dispatched, dispatched := some (1000, 1120) }
  { s with part := { s.part with mv := { s.part.mv with
    robotA := ⟨.busy, some 4, some (4, 9), some 20, none, [], false, none⟩ } } }

/-- A queued job of port 4. -/
def job2 : Job :=
  ⟨4, .deliver, false, [⟨.deliver (idOf 0) 60, .pending, none, none, none, none⟩], false, false, none, false, false⟩

/-- The machine with that job, number 15. -/
def withJob : State := withPart fun c => { c with jobs := { c.jobs with
  jobs := [(15, job2)], ports := [(4, { Port.cold with queue := [15], active := some 14 })] } }

/-- The machine with a load window open on the class table. -/
def withWindow : State := withPart fun c => { c with window := some ⟨c.tables.copy .cls, 1⟩ }

/-- Soundness by parts that can be decided; a pool of 4 jobs keeps to 4 at each port. -/
theorem sound_of (c : Part) (h : c.recordsSound ∧ c.movesSound ∧ c.zonesSound ∧ c.canonical ∧
    (∀ e ∈ c.jobs.jobs, e.1 < 16) ∧ c.jobs.jobs.length ≤ 4) : c.sound :=
  ⟨h.1, h.2.1, h.2.2.1, ⟨h.2.2.2.2.1, fun _ => Nat.le_trans (List.length_filter_le _ _) h.2.2.2.2.2⟩, h.2.2.2.1⟩

/-- Agreement (R5) read off the two tables, entry by entry. -/
theorem agrees_of (c : Part) (h : (Store.rising c.inv.recs && Store.rising c.inv.occ &&
    (c.inv.recs.all fun e => match e.2.place with
      | .loc l => (c.occ l).resident == some e.1
      | _ => true) &&
    (c.inv.occ.all fun e => match e.2.resident with
      | some n => (c.rec? n).map Rec.place == some (.loc e.1)
      | none => true)) = true) : c.agrees := by
  simp only [Bool.and_eq_true, List.all_eq_true] at h
  obtain ⟨⟨_, hr⟩, ho⟩ := h
  intro n l
  constructor
  · rintro ⟨r, hn, hp⟩
    simpa [hp] using hr _ (Store.mem_of_find hn)
  · intro hl
    unfold Part.occ Store.getD at hl
    cases hf : Store.find c.inv.occ l with
    | none => simp [hf, Occ.resident] at hl
    | some o =>
      have := ho _ (Store.mem_of_find hf)
      cases hn : c.rec? n with
      | none => simp_all
      | some r => exact ⟨r, rfl, by simp_all⟩

theorem test_part_sound : part.sound := by
  refine sound_of _ ?_
  unfold Part.recordsSound Part.movesSound Part.zonesSound Zone.bounded Part.canonical
  decide +kernel

theorem test_part_agrees : part.agrees ∧ part.passesSound := by
  refine ⟨agrees_of _ (by decide +kernel), ?_⟩
  unfold Part.passesSound
  decide +kernel

theorem test_base_invariants : base.part.sound ∧ base.linkSound ∧ base.modeSound ∧ base.retrySound := by
  refine ⟨test_part_sound, ?_⟩
  unfold State.linkSound State.modeSound ModeController.sound State.retrySound
  refine ⟨by decide +kernel, ⟨⟨by decide, by decide, by decide⟩, by decide +kernel⟩, by decide +kernel⟩

theorem test_base_fault : base.faultSound := by
  unfold State.faultSound
  decide +kernel

/-! ### WellFormed: one ill-formed command for each check -/

theorem test_wf_tag : (Instr.softReset 256).wf = false ∧ (Instr.softReset 255).wf = true := by decide
theorem test_wf_getStatus : (Instr.getStatus 256).wf = false ∧ (Instr.getStatusClear 256).wf = false := by decide
theorem test_wf_location : (Instr.queryLocation 0 65536).wf = false ∧ (Instr.queryLocation 0 65535).wf = true := by decide
theorem test_wf_reticleId : (Instr.queryReticle 0 (.byId [1#8])).wf = false := by decide
theorem test_wf_reticleNumber :
    (Instr.queryReticle 0 (.byNumber 65536)).wf = false ∧ (Instr.queryReticle 0 (.next 65536)).wf = false := by decide
theorem test_wf_bytes : (Instr.queryZone 0 256).wf = false ∧ (Instr.queryJob 0 256).wf = false ∧
    (Instr.queryPort 0 256).wf = false ∧ (Instr.queryRobot 0 256).wf = false ∧ (Instr.queryNode 0 256).wf = false ∧
    (Instr.clearFaultZone 0 256).wf = false ∧ (Instr.cancelJob 0 256).wf = false ∧ (Instr.maskPort 0 256).wf = false ∧
    (Instr.unmaskPort 0 256).wf = false ∧ (Instr.recoverRobot 0 256).wf = false ∧ (Instr.releaseMove 0 256).wf = false ∧
    (Instr.cancelMove 0 256).wf = false ∧ (Instr.loadOpen 0 256).wf = false ∧ (Instr.loadCommit 0 256).wf = false ∧
    (Instr.unknownRequest 0 256).wf = false ∧ (Instr.moveTimeoutExpiry 256).wf = false := by decide
theorem test_wf_moveSel :
    (Instr.queryMove 0 (.byNumber 256)).wf = false ∧ (Instr.queryMove 0 (.next 4294967296)).wf = false := by decide
theorem test_wf_declare : (Instr.declare 0 [] 0 0 .absent 0).wf = false ∧
    (Instr.declare 0 (idOf 0) 256 0 .absent 0).wf = false ∧ (Instr.declare 0 (idOf 0) 0 256 .absent 0).wf = false ∧
    (Instr.declare 0 (idOf 0) 0 0 (.given 65536) 0).wf = false ∧ (Instr.declare 0 (idOf 0) 0 0 .absent 65536).wf = false ∧
    (Instr.declare 0 (idOf 0) 0 0 .bad 0).wf = true := by decide
theorem test_wf_ids : (Instr.retire 0 []).wf = false ∧ (Instr.hold 0 []).wf = false ∧ (Instr.unhold 0 [] .absent).wf = false ∧ (Instr.unhold 0 (idOf 0) (.given 256)).wf = false ∧
    (Instr.setExposure 0 [] 0).wf = false ∧ (Instr.setExposure 0 (idOf 0) 65536).wf = false := by decide
theorem test_wf_slots : (Instr.clearFault 0 (some 65536)).wf = false ∧ (Instr.clearFault 256 none).wf = false ∧
    (Instr.exitStandalone 0 256).wf = false ∧ (Instr.scanRange 0 65536 1).wf = false ∧
    (Instr.scanRange 0 0 65536).wf = false := by decide
theorem test_wf_deliver : (Instr.deliver 0 256 [] ⟨false, false, none⟩).wf = false ∧
    (Instr.deliver 0 0 [⟨[], 0⟩] ⟨false, false, none⟩).wf = false ∧
    (Instr.deliver 0 0 [⟨idOf 0, 65536⟩] ⟨false, false, none⟩).wf = false ∧
    (Instr.deliver 0 0 [] ⟨false, false, some 256⟩).wf = false ∧
    (Instr.deliver 0 0 (List.replicate 256 ⟨idOf 0, 0⟩) ⟨false, false, none⟩).wf = false := by decide +kernel
theorem test_wf_return : (Instr.returnJob 0 256 [] ⟨false, false, none⟩).wf = false ∧
    (Instr.returnJob 0 0 [⟨.slot 65535, none⟩] ⟨false, false, none⟩).wf = false ∧
    (Instr.returnJob 0 0 [⟨.any, some []⟩] ⟨false, false, none⟩).wf = false ∧
    (Instr.returnJob 0 0 [] ⟨false, false, some 256⟩).wf = false ∧
    (Instr.returnJob 0 0 (List.replicate 256 ⟨.any, none⟩) ⟨false, false, none⟩).wf = false := by decide +kernel
theorem test_wf_relocate :
    (Instr.relocate 0 [] .any).wf = false ∧ (Instr.relocate 0 (idOf 0) (.slot 65535)).wf = false := by decide
theorem test_wf_setWatch : (Instr.setWatch 0 256 ⟨0, idOf 0, 0, 0, 0, 0, 0, 0⟩).wf = false ∧
    (Instr.setWatch 0 0 ⟨256, idOf 0, 0, 0, 0, 0, 0, 0⟩).wf = false ∧
    (Instr.setWatch 0 0 ⟨0, [], 0, 0, 0, 0, 0, 0⟩).wf = false ∧
    (Instr.setWatch 0 0 ⟨0, idOf 0, 65536, 0, 0, 0, 0, 0⟩).wf = false ∧
    (Instr.setWatch 0 0 ⟨0, idOf 0, 0, 256, 0, 0, 0, 0⟩).wf = false ∧
    (Instr.setWatch 0 0 ⟨0, idOf 0, 0, 0, 256, 0, 0, 0⟩).wf = false ∧
    (Instr.setWatch 0 0 ⟨0, idOf 0, 0, 0, 0, 256, 0, 0⟩).wf = false ∧
    (Instr.setWatch 0 0 ⟨0, idOf 0, 0, 0, 0, 0, 256, 0⟩).wf = false ∧
    (Instr.setWatch 0 0 ⟨0, idOf 0, 0, 0, 0, 0, 0, 256⟩).wf = false := by decide
theorem test_wf_loadEntry : (Instr.loadEntry 0 256 0 []).wf = false ∧ (Instr.loadEntry 0 0 65536 []).wf = false ∧
    (Instr.loadEntry 0 0 0 (List.replicate 1022 0#8)).wf = false := by decide +kernel
theorem test_wf_passLeg : (Instr.passThroughMoveLeg 0 0 0 0 0).wf = false ∧
    (Instr.passThroughMoveLeg 0 256 0 0 0).wf = false ∧ (Instr.passThroughMoveLeg 0 1 65536 0 0).wf = false ∧
    (Instr.passThroughMoveLeg 0 1 0 65536 0).wf = false ∧ (Instr.passThroughMoveLeg 0 1 0 0 256).wf = false := by decide
theorem test_wf_passOrder : (Instr.passThroughOrder 0 0 0 []).wf = false ∧ (Instr.passThroughOrder 0 256 0 []).wf = false ∧
    (Instr.passThroughOrder 0 1 256 []).wf = false ∧
    (Instr.passThroughOrder 0 1 0 (List.replicate 1025 0#8)).wf = false := by decide +kernel
theorem test_wf_timers : (Instr.passTimerExpiry 16).wf = false ∧ (Instr.intervalExpiry 16).wf = false ∧
    (Instr.stepWaitExpiry 16).wf = false := by decide
theorem test_wf_reports : (Report.picked 256 .empty 0).wf = false ∧ (Report.picked 0 (.id []) 0).wf = false ∧
    (Report.picked 0 .empty 256).wf = false ∧ (Report.placed 256 true).wf = false ∧
    (Report.scanned 256 .empty 0).wf = false ∧ (Report.scanned 0 (.id []) 0).wf = false ∧
    (Report.scanned 0 .empty 256).wf = false ∧ (Report.position 256).wf = false ∧ (Report.purgeDone 256 0 true).wf = false ∧
    (Report.purgeDone 0 256 true).wf = false ∧ (Report.sealFault 65536).wf = false ∧
    (Report.serviceRequest (.returnWaiting (.id []) 0)).wf = false ∧
    (Report.serviceRequest (.returnWaiting .empty 256)).wf = false ∧ (Report.taken []).wf = false ∧
    (Report.withdrawn []).wf = false ∧ (Report.presence 65536 true).wf = false ∧
    (Report.malformed 256).wf = false := by decide
theorem test_wf_rollAnswer : (RollAnswer.wf ⟨.robot, 65536, .a, false, 0, .robot 0 .empty 0⟩) = false ∧
    (RollAnswer.wf ⟨.robot, 0, .a, false, 0, .robot 256 .empty 0⟩) = false ∧
    (RollAnswer.wf ⟨.robot, 0, .a, false, 0, .robot 0 (.id []) 0⟩) = false ∧
    (RollAnswer.wf ⟨.robot, 0, .a, false, 0, .robot 0 .empty 256⟩) = false ∧
    (RollAnswer.wf ⟨.port, 0, .a, false, 0, .port (.id []) 0⟩) = false ∧
    (RollAnswer.wf ⟨.port, 0, .a, false, 0, .port .empty 256⟩) = false ∧
    (RollAnswer.wf ⟨.manifold, 0, .a, false, 0, .manifold⟩) = false ∧
    (RollAnswer.wf ⟨.manifold, 0, .a, false, 5, .manifold⟩) = false ∧
    (RollAnswer.wf ⟨.shelf, 0, .a, false, 0, .shelf []⟩) = false ∧
    (RollAnswer.wf ⟨.shelf, 0, .a, false, 0, .manifold⟩) = false := by decide
theorem test_wf_answer : (Answer.wf ⟨false, .hand 256 .empty 0, .nothing⟩) = false ∧
    (Answer.wf ⟨false, .hand 0 (.id []) 0, .nothing⟩) = false ∧ (Answer.wf ⟨false, .hand 0 .empty 256, .nothing⟩) = false ∧
    (Answer.wf ⟨false, .bytes (List.replicate 256 0#8), .nothing⟩) = false ∧
    (Instr.exchangeAnswered ⟨false, .none, .placed 256 true⟩).wf = false := by decide +kernel

/-! ### The statements' hypotheses are met -/

theorem test_witness_StepRunsFront :
    ({ base with pending := [.getStatus 0, .cancelScan 1] } : State).pending = .getStatus 0 :: [.cancelScan 1] := rfl
theorem test_witness_StepRunsFront_idle : base.pending = [] := rfl

/-- Bytes that end in their own CRC-32 pass the check, whatever they are. -/
theorem test_image_good (b : List Byte) (h : b.length = 3247) : imageGood (b ++ toBytes 4 (crc32 b).toNat) = true := by
  have hr := (crc32 b).isLt
  generalize hc : (crc32 b).toNat = r at *
  have hv : ofBytes (toBytes 4 r) = r := by
    simp [toBytes, ofBytes, List.range, List.range.loop]
    omega
  have hl : (toBytes 4 r).length = 4 := by simp [toBytes]
  simp [imageGood, field, h, List.take_left', List.drop_left', hl, hc, List.take_of_length_le, hv]

/-- An image that passes its check and one that does not (ColdStartValues, ImageRequests). -/
def goodImage : List Byte := List.replicate 3247 0#8 ++ toBytes 4 (crc32 (List.replicate 3247 0#8)).toNat
theorem test_witness_ColdStartValues : imageGood goodImage = true ∧ imageGood [] = false :=
  ⟨test_image_good _ List.length_replicate, by decide⟩

/-- SoundKept, AgreementKept, PassesKept, LinkKept, FaultKept, ModeKept and RetryKept: a machine that meets them all, and a
step from it. -/
theorem test_witness_Kept : ∃ t, base.part.sound ∧ base.part.agrees ∧ base.part.passesSound ∧ base.linkSound ∧
    base.faultSound ∧ base.modeSound ∧ base.retrySound ∧ step { base with pending := [.hold 1 (idOf 0)] } = .next t :=
  ⟨_, test_base_invariants.1, test_part_agrees.1, test_part_agrees.2, test_base_invariants.2.1, test_base_fault,
    test_base_invariants.2.2.1, test_base_invariants.2.2.2, rfl⟩

theorem test_witness_StatusSummary : base.part.sound ∧ base.part.window = none ∧
    (withWindow.part.window.map Window.gen) = some 1 := ⟨test_part_sound, rfl, rfl⟩

/-- ChangesOnlyWhere: a command that commits nothing, a cold start, and no write in progress at a request, at the end of a
write and at a cold start. -/
theorem test_witness_ChangesOnlyWhere : base.image.writing = none ∧ (∃ t, exec (.cancelScan 1) base = .next t) ∧
    (∃ t, exec (.coldStart true true) base = .next t) ∧ (∃ t, exec (.storeImage 1) base = .next t) ∧
    ∃ t, exec (.imageWriteDone true) base = .next t :=
  ⟨rfl, ⟨_, rfl⟩, ⟨_, rfl⟩, ⟨_, rfl⟩, ⟨_, rfl⟩⟩

/-- RequestsAnsweredOnce: four replies owed, one short of them, and a link that is DOWN. -/
def owing (n : Nat) : State :=
  { base with link := { base.link with replies := List.replicate n ⟨0, 1, 0, Rsp.ok .none⟩ } }
theorem test_witness_RequestsAnsweredOnce : header (.hold 255 (idOf 0)) = some (0, 0x12, 255) ∧ base.listens = true ∧
    (∃ t, exec (.hold 255 (idOf 0)) base = .next t) ∧ State.reset.deaf = true ∧
    (owing 4).deaf = false ∧ (owing 4).full = true ∧ (owing 3).listens = true := by
  and_intros <;> first | decide +kernel | exact ⟨_, rfl⟩

/-- START, with a request of address 0, a LOAD_ENTRY, a request of no known kind and a pass-through frame. -/
theorem test_witness_StartRefuses : (inMode .start).mode = .start ∧ (inMode .start).listens = true ∧
    header (.releaseMove 7 0) = some (0, 0x41, 7) ∧ isQuery (.releaseMove 7 0) = false ∧
    header (.loadEntry 7 0 0 []) = some (0, 0x61, 7) ∧ header (.unknownRequest 7 99) = some (0, 99, 7) ∧
    header (.passThroughOrder 7 63 0x14 []) = some (63, 0x14, 7) := by decide +kernel

/-- FailSafeRefuses: a request, and a window open on each table whose owner refuses it. -/
def failSafeWindow (t : TableId) : State :=
  { inMode .failSafe with part := { (inMode .failSafe).part with window := some ⟨tables.copy t, 1⟩ } }
theorem test_witness_FailSafeRefuses : (inMode .failSafe).mode = .failSafe ∧ (inMode .failSafe).listens = true ∧
    header (.declare 7 (idOf 2) 0 0 .absent 0) = some (0, 0x10, 7) ∧ header (.forceFailSafe 7) = some (0, 0x74, 7) ∧
    ∀ c ∈ [0, 1, 2, 5], (tableOfCode c).any (fun t => (failSafeWindow t).listens && (failSafeWindow t).mode == .failSafe &&
      ((failSafeWindow t).part.window.map fun w => w.shadow.table) == some t) = true := by
  decide +kernel

/-- QueryReplies: one machine for every clause; the numbers at the ends of the ranges meet their arithmetic. -/
theorem test_witness_QueryReplies : isQuery (.queryZone 1 15) = true ∧ base.listens = true ∧
    (∃ t, exec (.queryZone 1 15) base = .next t) ∧ withJob.listens = true ∧ withJob.part.job? 15 = some job2 ∧
    base.part.job? 15 = none ∧ (withMove { move20 with num := 255 }).listens = true ∧
    (withMove { move20 with num := 255 }).part.move? 255 = some { move20 with num := 255 } ∧
    base.part.move? 255 = none ∧ (base.part.portCfg 7).inPlan = true ∧ (base.part.portCfg 0).inPlan = false := by
  and_intros <;> first | decide +kernel | exact ⟨_, rfl⟩

/-- QueryEffects: a record at the last number and a free one, and a walk from sequence 6 to the move of sequence 7. -/
def withLast : State := withPart fun c => { c with inv := { c.inv with recs := [(5, rec5), (1023, { rec6 with id := idOf 2 })] } }
theorem test_witness_QueryEffects : withLast.listens = true ∧
    (∃ r r', withLast.part.rec? 1023 = some r ∧ (withLast.part.settle 1023).rec? 1023 = some r') ∧
    base.listens = true ∧ base.part.rec? 1023 = none ∧ (withMove move20).part.mv.moves = [] ++ move20 :: [] ∧
    (withMove move20).listens = true ∧ 6 < move20.seq := by
  and_intros <;> first | decide +kernel | exact ⟨_, _, rfl, rfl⟩

/-- DeclareAccepted: the last slot, UNKNOWN, and a VACANT one; the scanner of the last port; the record of its last part. -/
theorem test_witness_DeclareAccepted : base.listens = true ∧ base.mode.admits = true ∧ idOk (idOf 25) = true ∧
    base.part.findId (idOf 25) = none ∧ Store.lowestFree base.part.inv.recs 0 = 0 ∧ base.part.occ 959 = .unknown ∧
    base.part.occ 0 = .vacant ∧ (∀ m ∈ base.part.mv.moves, m.kind ≠ .scan → m.dst ≠ some 959) ∧
    (base.part.portCfg 7).inPlan = true ∧ base.part.freeRec = some 0 ∧
    ({ rec5 with id := idOf 2, place := .loc 959 } : Rec).stamp = none := by decide +kernel

/-- DeclareAccepted: a refusal of each kind: an ID of another form, class 4, an ID that is carried, a full table, the locations
960, 999 and 1008, the scanners 0 and 6 of ports not in plan, a taken slot and a VACANT one that a move has as its
destination. -/
def fullTable : State := withPart fun c =>
  { c with inv := { c.inv with recs := (List.range 1024).map fun n => (n, rec6) } }
theorem test_witness_DeclareAccepted_refused : idOk (List.replicate 12 0#8) = false ∧ ¬(4 < 4) ∧ OptArg.given 5 ≠ .bad ∧
    base.part.findId (idOf 0) ≠ none ∧ fullTable.listens = true ∧ fullTable.mode.admits = true ∧
    fullTable.part.findId (idOf 25) = none ∧ 1024 ≤ Store.lowestFree fullTable.part.inv.recs 0 ∧
    (base.part.portCfg 0).inPlan = false ∧ (base.part.portCfg 6).inPlan = false ∧
    base.part.occ 487 ≠ .vacant ∧ base.part.occ 487 ≠ .unknown ∧ (withMove move20).listens = true ∧
    (withMove move20).part.occ 488 = .vacant ∧ move20 ∈ (withMove move20).part.mv.moves ∧ move20.kind ≠ .scan ∧
    move20.dst = some 488 := by decide +kernel
/-- DeclareAccepted: a record to be declared at the scanner of port 7. -/
theorem test_witness_DeclareAccepted_scanner : base.part.freeRec = some 0 ∧
    ({ rec6 with id := idOf 2, place := .scanner 7, stamp := none } : Rec).state = .out := by decide +kernel

/-- RetireAccepted: an OUT record, a LOST one, one RETURNED at MANUAL_PORT, the last port, and one IDLE in its slot. -/
def withLost : State := withPart fun c =>
  { c with inv := { c.inv with recs := [(5, { rec5 with place := .none, state := .lost, stamp := some 0 })] } }
def atManual : State := withPart fun c => { c with
  tables := { c.tables with limits := { c.tables.limits with manualPort := some 7 } }
  inv := { c.inv with
    occ := [(967, .occupied 5 true)]
    recs := [(5, { rec5 with place := .loc 967, state := .returned, stamp := some 0 })] } }
theorem test_witness_RetireAccepted : base.listens = true ∧ base.mode.admits = true ∧ idOk (idOf 1) = true ∧
    base.part.findId (idOf 1) = some (6, rec6) ∧ rec6.state = .out ∧ base.part.stepNames (idOf 1) = false ∧
    withLost.listens = true ∧ (withLost.part.findId (idOf 0)).map (·.2.state) = some .lost ∧
    withLost.part.stepNames (idOf 0) = false ∧ atManual.listens = true ∧ atManual.part.limits.manualPort = some 7 ∧
    (atManual.part.findId (idOf 0)).map (fun e => (e.1, e.2.place, e.2.state)) = some (5, .loc 967, .returned) ∧
    atManual.part.stepNames (idOf 0) = false ∧ base.part.findId (idOf 0) = some (5, rec5) ∧ rec5.state = .idle := by
  decide +kernel
theorem test_witness_RetireAccepted_sound : base.part.sound ∧ withLost.part.sound ∧ atManual.part.sound := by
  refine ⟨test_part_sound, sound_of _ ?_, sound_of _ ?_⟩ <;>
    unfold Part.recordsSound Part.movesSound Part.zonesSound Zone.bounded Part.canonical <;> decide +kernel

theorem test_witness_HoldRequests : base.listens = true ∧ base.mode ≠ .start ∧ idOk (idOf 0) = true ∧
    base.part.findId (idOf 0) = some (5, rec5) ∧ base.part.rec? 5 = some rec5 ∧ rec5.state ≠ .reserved ∧
    rec5.state ≠ .presented := by decide +kernel

theorem test_witness_SetExposureAccepted : (inMode .maintenance).listens = true ∧ (inMode .maintenance).mode = .maintenance ∧
    idOk (idOf 0) = true ∧ (inMode .maintenance).part.findId (idOf 0) = some (5, rec5) ∧
    (inMode .maintenance).part.limits.eWarn < (inMode .maintenance).part.limits.eHold := by decide +kernel
theorem test_witness_SetExposureAccepted_sound : (inMode .maintenance).part.sound := by
  refine sound_of _ ?_
  unfold Part.recordsSound Part.movesSound Part.zonesSound Zone.bounded Part.canonical
  decide +kernel

/-- FaultAndScanRequests: SCAN_RANGE of the last slot alone, of all slots, of none, of one too many, and while one is active. -/
def scanningState : State := withPart fun c => { c with inv := { c.inv with cursor := ⟨true, 0, 960, 0, 960, 0⟩ } }
theorem test_witness_FaultAndScanRequests : base.listens = true ∧ base.mode ≠ .start ∧ base.mode.admits = true ∧
    base.part.inv.cursor.active = false ∧ 959 + 1 ≤ 960 ∧ 0 + 960 ≤ 960 ∧ 960 < 959 + 2 ∧ scanningState.listens = true ∧
    scanningState.mode.admits = true ∧ scanningState.part.inv.cursor.active = true := by decide +kernel
theorem test_witness_FaultAndScanRequests_sound : base.part.sound ∧ scanningState.part.sound := by
  refine ⟨test_part_sound, sound_of _ ?_⟩
  unfold Part.recordsSound Part.movesSound Part.zonesSound Zone.bounded Part.canonical
  decide +kernel

/-- A sound part whose slot 487 has SEAL_FAULT set, in a protective zone. -/
def sealedPart : Part := { part with inv := { part.inv with
  recs := [(5, { rec5 with stamp := some 900 }), (6, rec6)], flags := [(487, ⟨false, false, true⟩)] } }
theorem test_witness_FaultAndScanRequests_sealed : sealedPart.sound ∧ sealedPart.agrees ∧
    (sealedPart.flagsOf 487).sealed = true ∧ sealedPart.protective (487 / 60) = true ∧
    (sealedPart.occ 487).resident = some 5 ∧ (sealedPart.rec? 5).map (·.stamp) = some (some 900) := by
  refine ⟨sound_of _ ?_, agrees_of _ (by decide +kernel), by decide +kernel⟩
  unfold Part.recordsSound Part.movesSound Part.zonesSound Zone.bounded Part.canonical
  decide +kernel

/-- FaultAndScanRequests: the heads of the rescan queue are slot 959, port 7, in plan, and port 0, not in plan; the cursor at a
VACANT slot, at the INBOUND one and with nothing left; robots available and not; with 15 moves in the list and with 16. -/
def scanOffer (queue : List Nat) (k : Cursor) : Part := { part with inv := { part.inv with
  rescan := queue, cursor := k, occ := part.inv.occ ++ [(970, .inbound 5)] } }
theorem test_witness_FaultAndScanRequests_offer :
    (let c := scanOffer [959, 967, 960] ⟨true, 488, 3, 488, 3, 0⟩
     c.ctl.mode.admits = true ∧ c.mv.moves = [] ∧ c.inv.rescan = 959 :: [967, 960] ∧ (c.robot .a).available = true ∧
     (c.portCfg 7).inPlan = true ∧ (c.portCfg 0).inPlan = false) ∧
    (let c := scanOffer [] ⟨true, 488, 3, 488, 3, 0⟩
     c.inv.rescan = [] ∧ c.occ c.inv.cursor.next = .vacant ∧ 0 < c.inv.cursor.remaining) ∧
    (let c : Part := { part with inv := { part.inv with
      cursor := ⟨true, 959, 1, 959, 1, 0⟩, occ := [(959, .inbound 5)] } }
     c.occ c.inv.cursor.next = .inbound 5 ∧ c.inv.cursor.next < 960) ∧
    (let c := scanOffer [] ⟨true, 0, 1, 1, 0, 1⟩
     c.inv.cursor.active = true ∧ c.inv.cursor.remaining = 0 ∧ ∀ m ∈ c.mv.moves, m.owner ≠ .inventory true) ∧
    (Part.cold.robot .a).available = false ∧ (Part.cold.robot .b).available = false ∧
    (List.replicate 15 move20).length < 16 ∧ ¬(List.replicate 16 move20).length < 16 := by decide +kernel
/-- The cursor passes an INBOUND slot on to the rescan queue and admits no scan for it; with its last scan ended it says
SCAN_DONE (R36, R37). -/
theorem test_offerScan :
    ({ part with inv := { part.inv with cursor := ⟨true, 959, 1, 959, 1, 0⟩, occ := [(959, .inbound 5)] } } : Part).offerScan.map
      (fun d => (d.inv.rescan, d.inv.cursor, d.mv.moves)) = some ([959], ⟨true, 959, 1, 960, 0, 0⟩, []) ∧
    ((scanOffer [] ⟨true, 0, 1, 1, 0, 1⟩).cursorDone).map (fun d => (d.inv.cursor.active, d.out)) =
      some (false, [.scanDone 0 1 1 false]) := by decide +kernel

/-- JobRequests: port 4 with 1 and 8 steps, port 7, DIRECTED, with a step to the last slot and one to ANY. -/
theorem test_witness_JobRequests : base.listens = true ∧ base.mode.admits = true ∧ base.part.takesJobs 4 = true ∧
    base.part.takesJobs 7 = true ∧ (base.part.portCfg 7).directed = true ∧ Store.lowestFree base.part.jobs.jobs 0 = 0 ∧
    base.part.jobsAt 4 < 4 ∧ base.part.jobsAt 7 < 4 ∧ idOk (idOf 0) = true ∧ base.part.findId (idOf 0) ≠ none ∧
    (List.replicate 8 (⟨idOf 0, 1024⟩ : DStep)).length ≤ 8 ∧
    ([⟨.slot 959, none⟩, ⟨.any, some (idOf 0)⟩] : List RStep).length ≤ 8 := by decide +kernel

/-- JobRequests: a refusal of each kind, at the boundary of each range. -/
theorem test_witness_JobRequests_refused : ¬1 ≤ ([] : List DStep).length ∧ ¬(List.replicate 9 ()).length ≤ 8 ∧
    (base.part.portCfg 0).inPlan = false ∧ (part.node? 3).map (·.state) = some .present ∧
    ((part.putNode 3 { node .port 200 with state := .absent }).node? 3).map (·.state) = some .absent ∧
    part.portAddr 4 = some 3 ∧ idOk (List.replicate 12 0#8) = false ∧ base.part.findId (idOf 0) ≠ none ∧
    base.part.findId (idOf 9) = none ∧ (base.part.portCfg 4).directed = false ∧ ¬960 < 960 ∧ ¬16 < 16 ∧ 15 < 16 ∧
    16 ≤ Store.lowestFree ((List.range 16).map fun i => (i, job2)) 0 ∧
    (let c : Part := { part with jobs := { part.jobs with jobs := (List.range 4).map fun i => (i, job2) } }
     Store.lowestFree c.jobs.jobs 0 = 4 ∧ c.jobsAt 4 = 4) := by decide +kernel
/-- The refusals of R87 and R88 on requests with several faults: the first check that fails answers. -/
theorem test_jobs_refused :
    answer base (.deliver 9 8 [] ⟨false, false, some 16⟩) = some (.badLength, false) ∧
    answer base (.deliver 9 8 [⟨idOf 9, 0⟩] ⟨false, false, some 16⟩) = some (.badIndex, false) ∧
    answer base (.deliver 9 0 [⟨[], 0⟩] ⟨false, false, some 16⟩) = some (.noPort, false) ∧
    answer base (.deliver 9 4 [⟨idOf 9, 0⟩, ⟨[], 0⟩] ⟨false, false, some 16⟩) = some (.badRequest, false) ∧
    answer base (.deliver 9 4 [⟨idOf 0, 0⟩, ⟨idOf 9, 0⟩] ⟨false, false, some 16⟩) = some (.unknownReticle, false) ∧
    answer base (.deliver 9 4 [⟨idOf 0, 0⟩] ⟨false, false, some 16⟩) = some (.badIndex, false) ∧
    answer base (.returnJob 9 4 [⟨.slot 960, some []⟩] ⟨false, false, some 16⟩) = some (.wrongState, false) ∧
    answer base (.returnJob 9 7 [⟨.slot 960, some []⟩] ⟨false, false, some 16⟩) = some (.badIndex, false) ∧
    answer base (.returnJob 9 7 [⟨.slot 959, some []⟩] ⟨false, false, some 16⟩) = some (.badRequest, false) := by
  decide +kernel

theorem test_witness_PortAndJobRequests : withJob.listens = true ∧ withJob.mode ≠ .start ∧
    withJob.part.job? 15 = some job2 ∧ base.listens = true ∧ base.part.job? 15 = none := by decide +kernel

/-- Job 15 at the head of a queue: a DELIVER at port 4, a RETURN at a port that is AUTO and at one that is DIRECTED, with
a CONTINUE successor that is QUEUED there, itself, or no job. -/
def chained (p : Nat) (k : JobKind) (cont : Option Nat) : Part := { part with jobs :=
  ⟨[(14, { job2 with port := p }), (15, { job2 with port := p, kind := k, cont := cont })],
    [(p, { Port.cold with queue := [15, 14] })], []⟩ }
theorem test_witness_PortAndJobRequests_activation :
    (∀ x ∈ [(4, JobKind.deliver), (4, .ret), (7, .ret)], let c := chained x.1 x.2 (some 14)
      c.ctl.mode = .normal ∧ (c.port x.1).masked = false ∧ c.suspended x.1 = false ∧ (c.port x.1).active = none ∧
      (c.port x.1).queue = [15, 14] ∧ (c.job? 15).map (fun r => (r.port, r.kind)) = some x ∧
      (c.job? 14).map (fun r => (r.port, r.active)) = some (x.1, false)) ∧
    (part.portCfg 4).directed = false ∧ (part.portCfg 7).directed = true ∧ (part.planOf 3).kind ≠ .none ∧
    part.portAddr 4 = some 3 ∧ (part.node? 3).isSome = true ∧
    (∀ q ∈ [some 15, some 13, none], ((chained 4 .deliver q).job? 15).map (·.cont) = some q) ∧
    (part.port 4).queue = [] := by decide +kernel
theorem test_witness_PortAndJobRequests_sound : (chained 4 .deliver (some 14)).sound ∧ (chained 4 .ret (some 14)).sound ∧
    (chained 7 .ret (some 14)).sound := by
  refine ⟨sound_of _ ?_, sound_of _ ?_, sound_of _ ?_⟩ <;>
    unfold Part.recordsSound Part.movesSound Part.zonesSound Zone.bounded Part.canonical <;> decide +kernel

/-- The activation of a DELIVER job leaves its step to be attempted, that of a RETURN job the port's return to be handled
again (R89, R101). -/
theorem test_activation_work : ((chained 4 .deliver none).activateHead 4).work = [.attempt 4] ∧
    ((chained 7 .ret none).activateHead 7).work = [.handle 7] := by decide +kernel

/-- JobCancelled: a QUEUED job, and an ACTIVE one with the mark, with its step MOVING, with its step PENDING, and with its step
RESERVED for a pending DELIVER that served a READY. -/
def activeJob (st : StepState) (mark : Bool) : Job :=
  { job2 with active := true, cancel := mark, steps := [⟨.deliver (idOf 0) 60, st, none, none, none, some 20⟩] }
def deliverMove : Move :=
  { move20 with kind := .deliver, dst := some 964, owner := .step 15 0, ready := some 990 }
def withActive (st : StepState) (mark : Bool) : State := withPart fun c => { c with
  jobs := ⟨[(15, activeJob st mark)], [(4, { Port.cold with active := some 15 })], []⟩
  inv := { c.inv with recs := [(5, { rec5 with state := .reserved, job := some (15, 0) }), (6, rec6)] }
  mv := { c.mv with moves := [deliverMove], nextNum := 21, lastSeq := 7 } }
theorem test_witness_JobCancelled : withJob.part.job? 15 = some job2 ∧ job2.active = false ∧
    (∀ st ∈ job2.steps, st.state ≠ .ended → st.result = none) ∧
    (∀ x ∈ [(StepState.moving, true), (.moving, false), (.pending, false), (.reserved, false)],
      (withActive x.1 x.2).part.job? 15 = some (activeJob x.1 x.2) ∧ (activeJob x.1 x.2).active = true ∧
      ((activeJob x.1 x.2).head.map fun h => (h.1, h.2.state)) = some (0, x.1) ∧
      ∀ st ∈ (activeJob x.1 x.2).steps, st.result = none) ∧
    (withActive .reserved false).part.move? 20 = some deliverMove ∧ deliverMove.granted = false ∧
    deliverMove.owner = .step 15 0 ∧ deliverMove.reticle = some 5 ∧
    ((withActive .reserved false).part.rec? 5).map (fun r => (r.state, r.place)) = some (.reserved, .loc 487) ∧
    ((withActive .reserved false).part.port 4).window.length < 2 := by decide +kernel
theorem test_witness_JobCancelled_sound : withJob.part.sound ∧ (withActive .moving true).part.sound ∧
    (withActive .moving false).part.sound ∧ (withActive .pending false).part.sound ∧
    (withActive .reserved false).part.sound := by
  refine ⟨sound_of _ ?_, sound_of _ ?_, sound_of _ ?_, sound_of _ ?_, sound_of _ ?_⟩ <;>
    unfold Part.recordsSound Part.movesSound Part.zonesSound Zone.bounded Part.canonical <;> decide +kernel

/-- RelocateRequest: to a VACANT slot it is admitted, to the last slot, UNKNOWN, it is refused. -/
def relocateTo (d : Option Nat) : Ask := ⟨.relocate, some 487, d, 8, 1, .relocate, none, false, none, false⟩
theorem test_witness_RelocateRequest : base.listens = true ∧ base.mode.admits = true ∧
    base.part.findId (idOf 0) = some (5, rec5) ∧ rec5.state = .idle ∧ rec5.place = .loc 487 ∧ base.part.inMove 5 = false ∧
    (∃ c m, base.part.admitAsk (relocateTo (some 488)) = .ok (c, m)) ∧ (∃ c m, base.part.admitAsk (relocateTo none) = .ok (c, m)) ∧
    (∃ e, base.part.admitAsk (relocateTo (some 959)) = .error e) := by
  and_intros <;> first | decide +kernel | exact ⟨_, rfl⟩ | exact ⟨_, _, rfl⟩

/-- RobotAndMoveRequests: robot A SUSPECT, not yet asked and asked, and IDLE; move 255 HELD, PENDING and DISPATCHED, and no such
move; a move to be cancelled of each owner told of it. -/
def suspectA (awaited : Bool) : State := withPart fun c => { c with mv := { c.mv with
  robotA := ⟨.suspect, some 4, some (4, 4), none, none, [], awaited, none⟩ } }
def move255 (st : MoveState) : State := withMove { move20 with num := 255, state := st }
theorem test_witness_RobotAndMoveRequests : base.listens = true ∧ base.mode.admits = true ∧
    (base.part.robot .a).state ≠ .suspect ∧ (suspectA false).listens = true ∧ (suspectA false).mode.admits = true ∧
    ((suspectA false).part.robot .a).state = .suspect ∧ (suspectA false).part.robotPresent .a = true ∧
    ((suspectA false).part.robot .a).awaited = false ∧ (suspectA true).listens = true ∧ (suspectA true).mode.admits = true ∧
    ((suspectA true).part.robot .a).awaited = true ∧ (suspectA true).part.robotPresent .a = true ∧
    (∀ st ∈ [MoveState.held, .pending, .dispatched], (move255 st).listens = true ∧ (move255 st).mode.admits = true ∧
      (move255 st).part.move? 255 = some { move20 with num := 255, state := st }) ∧ base.part.move? 255 = none := by
  decide +kernel
def storeMove : Move := { move20 with kind := .store, src := some 967, owner := .portReturn 7 }
def returning : State := withPart fun c => { c with
  jobs := { c.jobs with ports := [(7, { Port.cold with ret := some ⟨.record 5, false, some 20, false, false⟩ })] }
  inv := { c.inv with
    occ := [(967, .occupied 5 true)]
    recs := [(5, { rec5 with place := .loc 967, state := .returned, stamp := some 0 })] }
  mv := { c.mv with moves := [storeMove], nextNum := 21, lastSeq := 7 } }
theorem test_witness_RobotAndMoveRequests_cancel : (withActive .reserved false).part.sound ∧ (withMove move20).part.sound ∧
    (withMove { move20 with owner := .pass 9 }).part.sound ∧ returning.part.sound := by
  refine ⟨test_witness_JobCancelled_sound.2.2.2.2, sound_of _ ?_, sound_of _ ?_, sound_of _ ?_⟩ <;>
    unfold Part.recordsSound Part.movesSound Part.zonesSound Zone.bounded Part.canonical <;> decide +kernel
theorem test_witness_RobotAndMoveRequests_owners : (withMove move20).part.move? 20 = some move20 ∧ move20.granted = false ∧
    move20.owner = .relocate ∧ (withMove { move20 with owner := .pass 9 }).part.move? 20 = some { move20 with owner := .pass 9 } ∧
    returning.part.move? 20 = some storeMove ∧ storeMove.src = some (960 + 7) ∧ storeMove.granted = false ∧
    ((returning.part.port 7).ret.bind (·.move)) = some 20 := by decide +kernel

/-- A yield of robot B within its interval and outside it, a park travel, and no yield; robot A SUSPECT with its hand
VACANT or not, its span inside, outside or with no interval held, a location to scan; and IDLE. -/
def yielding (r : RobotState) : Part := { part with mv := { part.mv with
  robotB := ⟨r, some 17, some (12, 17), none, some (12, 1120), [], false, none⟩ } }
def asked (r : RobotState) (i : Option (Nat × Nat)) (other : Nat) : Part := { part with mv := { part.mv with
  robotA := ⟨r, some 4, i, none, none, [967], true, none⟩
  robotB := ⟨.idle, some other, some (other, other), none, none, [], false, none⟩ } }
theorem test_witness_RobotAndMoveRequests_answers : (part.planOf 1).kind = .robot ∧
    (part.planOf 1).assignment = Side.a.index ∧ (part.planOf 2).assignment = Side.b.index ∧
    (part.robot .a).yieldTo = none ∧
    (∀ r ∈ [RobotState.yielding, .disabled], ((yielding r).robot .b).yieldTo = some (12, 1120) ∧
      ((yielding r).robot .b).held = some (12, 17)) ∧ 12 ≤ 12 ∧ 11 < 12 ∧
    (∀ x ∈ [(RobotState.suspect, some (4, 4)), (.suspect, none), (.idle, some (4, 4))],
      ((asked x.1 x.2 17).readAt 968 .empty 0 none).occ 968 = .vacant ∧
      ((asked x.1 x.2 17).readAt 968 .unreadable 0 none).occ 968 ≠ .vacant) ∧
    ((asked .suspect none 17).readAt 968 .empty 0 none).clearFor .a (4, 4) = true ∧
    ((asked .suspect none 4).readAt 968 .empty 0 none).clearFor .a (4, 4) = false ∧
    (part.portCfg (967 - 960)).inPlan = true ∧ part.ctl.mode.admits = true ∧ part.mv.moves.length < 16 := by
  decide +kernel
theorem test_witness_RobotAndMoveRequests_answers_sound : (yielding .yielding).sound ∧ (yielding .disabled).sound ∧
    (asked .suspect (some (4, 4)) 17).sound ∧ (asked .suspect none 4).sound ∧ (asked .idle (some (4, 4)) 17).sound := by
  refine ⟨sound_of _ ?_, sound_of _ ?_, sound_of _ ?_, sound_of _ ?_, sound_of _ ?_⟩ <;>
    unfold Part.recordsSound Part.movesSound Part.zonesSound Zone.bounded Part.canonical <;> decide +kernel

theorem test_witness_WatchRequests : withJob.listens = true ∧ withJob.mode.admits = true ∧
    withJob.part.watch.entries[3]? = some WatchEntry.cold ∧ idOk (idOf 0) = true ∧ idOk [] = false ∧
    withJob.part.job? 15 = some job2 ∧ withJob.part.job? 14 = none := by
  decide +kernel

/-- WatchEvaluations: an entry that counts and matches a move before and after, and one that does not. -/
def watching : State := withPart fun c => { c with watch := ⟨[⟨.reticle (idOf 0), .both, .global, false⟩, WatchEntry.cold], none⟩ }
theorem test_witness_WatchEvaluations : watching.part.watchHolds move20 = true ∧ watching.part.afterHits move20 = [0] ∧
    base.part.watchHolds move20 = false ∧ base.part.afterHits move20 = [] := by decide +kernel

/-- WindowRequests: closed and open, in NORMAL and in FAIL_SAFE; an entry written; a shadow that validates and, on the slot
map in MAINTENANCE, one that disables an occupied slot and does not; seven generations. -/
def withBadShadow : State :=
  { inMode .maintenance with part := { (inMode .maintenance).part with window := some ⟨.slotMap [(487, ⟨false, 0, 15⟩)], 1⟩ } }
theorem test_witness_WindowRequests : base.listens = true ∧ tableOfCode 3 = some .cls ∧ base.part.window = none ∧
    (inMode .failSafe).listens = true ∧ TableId.opensInFailSafe .cls = true ∧ withWindow.listens = true ∧
    (withWindow.part.window.map fun w => w.shadow.table) = some .cls ∧ indexOk .cls 3 = true ∧
    ((withWindow.part.tables.copy .cls).write 3 [255#8, 15#8, 255#8]).isSome = true ∧ withWindow.mode.commits .cls = true ∧
    withWindow.image.writing = none ∧ withWindow.part.badShadow (withWindow.part.tables.copy .cls) = none ∧
    tableOfCode 0 = some .slotMap ∧ withBadShadow.listens = true ∧ withBadShadow.mode.commits .slotMap = true ∧
    withBadShadow.part.badShadow (.slotMap [(487, ⟨false, 0, 15⟩)]) = some 487 ∧ base.part.gens.length = 7 := by
  decide +kernel

/-- ImageRequests: in NORMAL, and in MAINTENANCE with a good image and with none. -/
def reloadable : State := { inMode .maintenance with image := ⟨goodImage, none, false, 0⟩ }
theorem test_witness_ImageRequests : base.listens = true ∧ base.image.writing = none ∧ base.mode.admits = true ∧
    (inMode .maintenance).mode = .maintenance ∧ (inMode .maintenance).part.window = none ∧
    imageGood (inMode .maintenance).image.bytes = false := by decide +kernel
theorem test_witness_ImageRequests_good : reloadable.listens = true ∧ reloadable.mode = .maintenance ∧
    reloadable.part.window = none ∧ reloadable.image.writing = none ∧ imageGood reloadable.image.bytes = true :=
  ⟨rfl, rfl, rfl, rfl, test_witness_ColdStartValues.1⟩

theorem test_witness_ImageRoundTrip : tables.inRange ∧ [0, 0, 0, 0, 0, 0, 65535].length = 7 := by
  refine ⟨?_, rfl⟩
  simp [Tables.inRange, tables, Tables.default]
  decide +kernel

/-- ModeRequests: each mode, a pending entry, and FAIL_SAFE with and without an active line. -/
theorem test_witness_ModeRequests : base.listens = true ∧ base.mode = .normal ∧ base.part.ctl.pending = false ∧
    (inMode .maintenance).mode = .maintenance ∧ (inMode .standalone).mode = .standalone ∧
    (inMode .failSafe).mode = .failSafe ∧ (inMode .failSafe).part.ctl.enclosure = false ∧
    (inMode .failSafe).part.ctl.stop = false ∧ base.mode.admits = true := by decide +kernel

/-- ModeChangesAct: a robot PRESENT and one whose answer is awaited already. -/
theorem test_witness_ModeChangesAct : base.part.sound ∧ base.part.robotPresent .a = true ∧
    (base.part.robot .a).awaited = false ∧ base.part.robotAddr .a = some 1 ∧ (base.part.node? 1).isSome = true ∧
    (base.part.planOf 1).kind = .robot ∧ ((suspectA true).part.robot .a).awaited = true := by
  refine ⟨test_part_sound, ?_⟩
  decide +kernel

/-- START is about to end: IMAGE_BAD, STOP seen, ENCLOSURE seen. -/
def ending (image stop enclosure : Bool) (k : EnumCause) : Part := { part with
  ctl := { part.ctl with mode := .start, imageBad := image, seenStop := stop, seenEnclosure := enclosure }
  bus := { part.bus with enum := some ⟨k, []⟩ } }
theorem test_witness_ModeChangesAct_start :
    (∀ k ∈ [EnumCause.cold, .warm, .busReset], ∀ i ∈ [false, true], ∀ p ∈ [false, true], ∀ e ∈ [false, true],
      (ending i p e k).bus.enum = some ⟨k, []⟩ ∧ (ending i p e k).ctl.imageBad = i ∧ (ending i p e k).ctl.seenStop = p ∧
      (ending i p e k).ctl.seenEnclosure = e) := by decide +kernel
/-- A line that was active for a moment sends the part into FAIL_SAFE, STOP ahead of ENCLOSURE, both among the causes; with none
seen START ends in NORMAL (R178). -/
theorem test_leaveStart : ((ending false true true .cold).nextRoll.ctl.mode, (ending false true true .cold).nextRoll.ctl.causes) =
      (.failSafe, ⟨true, true, false, false⟩) ∧
    (ending false true true .cold).nextRoll.ctl.seenStop = false ∧
    (ending false false false .warm).nextRoll.ctl.mode = .normal := by decide +kernel

/-- ResetRequests: with and without an enumeration, with and without a write. -/
def enumerating : State := withPart fun c => { c with bus := { c.bus with enum := some ⟨.busReset, []⟩ } }
def writing : State := { base with image := { base.image with writing := some (tables, [0, 0, 0, 0, 0, 0, 0]) } }
theorem test_witness_ResetRequests : base.part.sound ∧ base.listens = true ∧ base.mode.admits = true ∧
    base.part.bus.enum = none ∧ enumerating.listens = true ∧ enumerating.mode.admits = true ∧
    enumerating.part.bus.enum ≠ none ∧ base.mode ≠ .start ∧ base.image.writing = none ∧ writing.listens = true ∧
    writing.image.writing.isSome = true := by
  refine ⟨test_part_sound, ?_⟩
  decide +kernel

/-- A write with a warm start deferred behind it. -/
theorem test_witness_ResetRequests_deferred :
    ({ writing with image := { writing.image with deferred := true } } : State).image.deferred = true ∧
    writing.image.writing = some (tables, [0, 0, 0, 0, 0, 0, 0]) ∧ writing.part.sound :=
  ⟨rfl, rfl, test_part_sound⟩

/-- PassThroughFrames: each bar, the edge addresses among them; a leg that is admitted and one that is refused, an order with
room, a misfit and a full queue. -/
def fullQueue : State := withPart fun c =>
  c.putNode 1 { node .robot 100 with queue := List.replicate 4 ⟨.abortMotion, some 9⟩ }
def manualTo (d : Nat) : Ask :=
  ⟨.manual, some 487, some d, 0, 3, .pass 9, sideOf (base.part.planOf 1).assignment, false, none, false⟩
theorem test_witness_PassThroughFrames : base.listens = true ∧ base.part.passBar 64 0x10 = some .badIndex ∧
    (inMode .failSafe).part.passBar 63 0x10 = some .wrongMode ∧ base.part.passBar 0 0x10 = some .badIndex ∧
    base.part.passBar 1 0x20 = some .badRequest ∧ base.part.passBar 1 0x14 = some .filtered ∧
    base.part.passBar 1 0x10 = none ∧ (∃ c m, base.part.admitAsk (manualTo 964) = .ok (c, m)) ∧
    (∃ e, base.part.admitAsk (manualTo 967) = .error e) ∧ base.part.passBar 1 0x15 = none ∧
    (∃ o, passOrder 0x15 [] = .ok o) ∧ (∃ e, passOrder 0x15 [0#8] = .error e) ∧
    (base.part.node? 1).map Node.passes = some 0 ∧ fullQueue.listens = true ∧ fullQueue.part.passBar 1 0x15 = none ∧
    (fullQueue.part.node? 1).map Node.passes = some 4 := by
  and_intros <;> first | decide +kernel | exact ⟨_, rfl⟩ | exact ⟨_, _, rfl⟩

/-- LinkEvents: each state of the link, LINK_ERROR clear and set; a reply, a notice and nothing to be sent next. -/
theorem test_witness_LinkEvents : base.link.state = .up ∧ base.link.error = false ∧
    ({ base with link := { base.link with error := true } } : State).link.error = true ∧ State.reset.link.state = .down ∧
    (owing 4).link.state ≠ .down ∧ (owing 4).full = true ∧ (owing 1).link.replies ≠ [] ∧
    base.link.replies = [] ∧ base.notices.queue = [] ∧
    ({ base with notices := ⟨[⟨0, 0, .linkSilent⟩], 1, false, none⟩ } : State).notices.queue = ⟨0, 0, .linkSilent⟩ :: [] := by
  decide +kernel

theorem test_witness_LinkEvents_silence : base.link.silence = some 1030 ∧ base.part.limits.standaloneOnSilence = false ∧
    (inMode .failSafe).part.ctl.mode = .failSafe ∧ base.part.ctl.mode = .normal ∧
    ({ base.part.limits with standaloneOnSilence := true } : Limits).standaloneOnSilence = true := by decide +kernel

/-- ExchangeAnswers: an order of the part's own and a pass-through one, a poll, and a node with no miss, with two, and LOST. -/
def exchangingWith (e : Exchange) (n : Node) : State := withPart fun c =>
  { c.putNode 1 n with bus := { (c.putNode 1 n).bus with exchange := some e } }
def exchanging (e : Exchange) (misses : Nat) : State :=
  exchangingWith e { node .robot 100 with queue := [⟨.abortMotion, none⟩], miss := misses }
theorem test_witness_ExchangeAnswers : (exchanging (.order 1) 0).part.bus.exchange = some (.order 1) ∧
    (exchanging (.poll 1) 2).part.bus.exchange = some (.poll 1) ∧
    ((exchanging (.order 1) 0).part.node? 1).map (fun n => (n.state, n.miss, n.queue)) =
      some (.present, 0, [⟨.abortMotion, none⟩]) ∧
    ((exchanging (.poll 1) 2).part.node? 1).map (·.miss) = some 2 ∧
    ((exchangingWith (.order 1) { node .robot 100 with queue := [⟨.abortMotion, some 9⟩] }).part.node? 1).map (·.queue) =
      some [⟨.abortMotion, some 9⟩] ∧
    ((exchangingWith (.poll 1) { node .robot 100 with state := .lost }).part.node? 1).map (·.state) = some .lost ∧
    0x01 < reportCode (.position 4) := by decide +kernel

/-- RollCalls: a roll-call in progress; the next address and none left; an address not planned, the planned node's answer and
another's, in an enumeration and outside it. -/
def robotAnswer (i : Nat) : RollAnswer := ⟨.robot, i, .a, false, 0, .robot 4 .empty 0⟩
theorem test_witness_RollCalls : (exchanging (.rollCall 1) 0).part.bus.exchange = some (.rollCall 1) ∧
    ({ enumerating with part := { enumerating.part with bus := { enumerating.part.bus with
      enum := some ⟨.warm, [63]⟩ } } } : State).part.bus.enum = some ⟨.warm, 63 :: []⟩ ∧
    enumerating.part.bus.enum = some ⟨.busReset, []⟩ ∧ base.part.bus.enum = none ∧ (base.part.planOf 63).kind = .none ∧
    base.part.bus.roster.length < 48 ∧ (base.part.planOf 1).kind = (robotAnswer 100).kind ∧
    (base.part.planOf 1).identity = (robotAnswer 100).identity ∧
    (base.part.planOf 1).assignment = (robotAnswer 100).side.index ∧
    (base.part.planOf 1).identity ≠ (robotAnswer 101).identity ∧ (base.part.node? 1).isSome = true ∧
    (List.replicate 48 (0, node .robot 100)).length = 48 := by decide +kernel
/-- A LOST port node with an order waiting, outside an enumeration. -/
theorem test_witness_RollCalls_waiting :
    ((part.putNode 3 { node .port 200 with state := .lost, queue := [⟨.handSnapshot, some 9⟩] }).node? 3).map
      (fun n => (n.state, n.queue.length)) = some (.lost, 1) ∧ (part.planOf 3).kind = .port := by decide +kernel
/-- A robot's entry that is ABSENT already, at the roll-call of a warm start. -/
def movedRobot : Part := { part.putNode 1 { node .robot 100 with state := .absent } with
  bus := { (part.putNode 1 { node .robot 100 with state := .absent }).bus with enum := some ⟨.warm, []⟩ } }
theorem test_witness_RollCalls_robot : movedRobot.bus.enum ≠ none ∧ (movedRobot.planOf 1).kind = .robot ∧
    (movedRobot.planOf 1).assignment = Side.a.index ∧ (movedRobot.node? 1).map (·.state) = some .absent ∧
    (movedRobot.robot .a).state = .idle := by decide +kernel
/-- A warm start's plan that moves robot A to address 9 leaves it as it was until its roll-call, which unanswered makes it LOST
(R137). -/
theorem test_warm_robot_moves :
    ((part.warmPlan [(1, ⟨.shelf, 100, 3⟩), (9, ⟨.robot, 100, 0⟩)]).robot .a).state = .idle ∧
    ((movedRobot.rollUnanswered 1).robot .a).state = .lost := by decide +kernel
theorem test_witness_RollCalls_sound : base.part.sound := test_part_sound

/-- TimerExpiries: each timer running; a job that stops and one that goes on; a zone of balance -4, OVERDUE and not. -/
def timing : State :=
  { moving with part := { moving.part with
    bus := { moving.part.bus with retry := some 1010 }
    zones := [(8, { Zone.cold with timer := some 5000, pass := some ⟨3, 900, 240⟩ })]
    mv := { moving.part.mv with robotB := ⟨.yielding, some 17, some (12, 17), none, some (12, 1120), [], false, none⟩ }
    jobs := { moving.part.jobs with jobs := [(15, { job2 with steps :=
      [⟨.deliver (idOf 0) 60, .waiting, none, some 1900, some 1000, none⟩] })] } } }
def waitingJob (stop : Bool) : Job := { job2 with active := true, stop := stop, steps :=
  [⟨.deliver (idOf 0) 60, .waiting, none, some 1900, some 1000, none⟩, ⟨.deliver (idOf 1) 60, .pending, none, none, none, none⟩] }
def waitingPart (stop : Bool) : Part := { part with
  jobs := ⟨[(15, waitingJob stop)], [(4, { Port.cold with active := some 15 })], []⟩ }
def lowPart (overdue : Bool) : Part := { part with zones := [(8, { Zone.cold with b := -4, timer := some 5000, overdue := overdue })] }
theorem test_witness_TimerExpiries : timing.part.bus.retry = some 1010 ∧
    (timing.part.move? 20).map (fun m => (m.granted, m.dispatched)) = some (true, some (1000, 1120)) ∧
    (timing.part.robot .b).yieldTo = some (12, 1120) ∧
    ((timing.part.job? 15).bind Job.head).map (fun h => (h.1, h.2.state, h.2.expiry)) = some (0, .waiting, some 1900) ∧
    (timing.part.zone 8).pass = some ⟨3, 900, 240⟩ ∧ (timing.part.zone 8).timer = some 5000 ∧
    (∀ b ∈ [true, false], (waitingPart b).job? 15 = some (waitingJob b) ∧
      ((waitingJob b).head.map fun h => (h.1, h.2.state)) = some (0, .waiting)) ∧
    (base.part.zone 8).b = 0 ∧ ((lowPart true).zone 8).overdue = true ∧ ((lowPart false).zone 8).b = -4 ∧
    (lowPart false).protective 8 = true ∧ ((lowPart false).occ 487).resident = some 5 ∧
    (lowPart false).rec? 5 = some rec5 ∧ rec5.stamp = none := by decide +kernel
theorem test_witness_TimerExpiries_sound : timing.part.sound ∧ (waitingPart true).sound ∧ (waitingPart false).sound ∧
    (lowPart true).sound ∧ (lowPart false).sound := by
  refine ⟨sound_of _ ?_, sound_of _ ?_, sound_of _ ?_, sound_of _ ?_, sound_of _ ?_⟩ <;>
    unfold Part.recordsSound Part.movesSound Part.zonesSound Zone.bounded Part.canonical <;> decide +kernel

/-- InterlockLines: no change, and a change in each kind of mode. -/
theorem test_witness_InterlockLines : base.part.ctl.level .stop = false ∧ base.mode.admits = true ∧
    (inMode .failSafe).mode = .failSafe ∧ (inMode .start).mode = .start ∧ base.part.sound := by
  refine ⟨?_, ?_, ?_, ?_, test_part_sound⟩ <;> decide +kernel

/-- SettlementExact: protected, below the limit, up to it, over it, at it, with nothing elapsed and at rate 0. -/
theorem test_witness_SettlementExact : rec5.stamp = none ∧ rec6.stamp = some 940 ∧ rec6.e ≤ 65535 ∧ rec6.frac < 60 ∧
    rec6.e < 65535 ∧ 65535 + (0 + (1000 - 940) * 0) / 60 ≤ 65535 ∧ 65535 < 65535 + (30 + (1000 - 940) * 1) / 60 ∧
    ((rec6.accrue 970 20).accrue 1000 20).e < 65535 := by decide +kernel

/-- PresenceReports: each occupancy with its hint missing, the first and the last slot, and one whose hint stands. -/
def seenPart : Part := { part with inv := { part.inv with
  occ := [(0, .vacant), (1, .foreign 2), (2, .inbound 7), (487, .occupied 5 true), (488, .vacant)]
  hints := [(959, .absent)] } }
def shelfPart : Part := { part with tables := { tables with plan := [(6, ⟨.shelf, 400, 8⟩)] } }
theorem test_witness_PresenceReports : seenPart.hint 959 = .absent ∧ seenPart.occ 959 = .unknown ∧
    (∀ l ∈ [0, 1, 2, 487], seenPart.hint l = .missing) ∧ seenPart.occ 0 = .vacant ∧ seenPart.occ 1 = .foreign 2 ∧
    seenPart.occ 2 = .inbound 7 ∧ seenPart.occ 487 = .occupied 5 true ∧ seenPart.rec? 5 = some rec5 ∧
    (shelfPart.planOf 6).kind = .shelf ∧ (shelfPart.planOf 6).assignment = 487 / 60 ∧
    (shelfPart.planOf 6).assignment ≠ 959 / 60 ∧ (shelfPart.planOf 5).kind ≠ .shelf := by decide +kernel
theorem test_witness_PresenceReports_sound : seenPart.sound ∧ shelfPart.sound := by
  refine ⟨sound_of _ ?_, sound_of _ ?_⟩ <;>
    unfold Part.recordsSound Part.movesSound Part.zonesSound Zone.bounded Part.canonical <;> decide +kernel

/-- ReaderResult: a location free and one claimed, by another reticle's move and by the read's own; a record where it stands,
elsewhere, and in transit elsewhere; an ID of none; a return standing at a position. -/
def transitPart : Part := { part with
  inv := { part.inv with
    occ := [(487, .outbound 5 true), (488, .inbound 5), (968, .vacant), (969, .vacant)]
    recs := [(5, { rec5 with state := .inTransit }), (6, rec6)] }
  mv := { part.mv with
    moves := [{ move20 with state := .dispatched, dispatched := some (1000, 1120) }], nextNum := 21, lastSeq := 7
    robotA := ⟨.busy, some 4, some (4, 9), some 20, none, [], false, none⟩ } }
theorem test_witness_ReaderResult : part.claimedBy 487 none = none ∧ part.claimedBy 969 none = none ∧
    transitPart.claimedBy 487 none = some (some 5) ∧ transitPart.claimedBy 968 none = some (some 5) ∧
    transitPart.claimedBy 969 none = none ∧ part.findId (idOf 0) = some (5, rec5) ∧ rec5.place = .loc 487 ∧
    part.findId (idOf 1) = some (6, rec6) ∧ rec6.place ≠ .loc 0 ∧ rec6.state ≠ .inTransit ∧
    (transitPart.findId (idOf 0)).map (·.2.state) = some .inTransit ∧ part.findId (idOf 3) = none ∧
    Store.lowestFree part.inv.recs 0 = 0 ∧ (returning.part.port 7).ret.isSome = true ∧
    returning.part.claimedBy 967 none = none ∧ idOk (idOf 0) = true ∧ idOk [] = false := by decide +kernel
theorem test_witness_ReaderResult_sound : part.sound ∧ part.agrees ∧ transitPart.sound ∧ transitPart.agrees ∧
    returning.part.sound ∧ returning.part.agrees := by
  refine ⟨test_part_sound, test_part_agrees.1, sound_of _ ?_, agrees_of _ (by decide +kernel),
    test_witness_RobotAndMoveRequests_cancel.2.2.2, agrees_of _ (by decide +kernel)⟩
  unfold Part.recordsSound Part.movesSound Part.zonesSound Zone.bounded Part.canonical
  decide +kernel

/-- ServiceRequests: a window with room and a full one; no active job, one whose steps all wait and one with a step MOVING; a
position found VACANT by a read, and one found with a pod. -/
theorem test_witness_ServiceRequests : part.acknowledges 4 .ready = true ∧ part.acknowledges 0 .ready = false ∧
    part.acknowledges 4 .lastNeeded = true ∧ (waitingPart false).acknowledges 4 .lastNeeded = true ∧
    ((waitingPart false).port 4).active = some 15 ∧ (waitingJob false).kind = .deliver ∧ (waitingJob false).early = false ∧
    (withActive .moving false).part.acknowledges 4 .lastNeeded = true ∧
    part.acknowledges 7 (.returnWaiting .empty 0) = true ∧ (part.planOf 5).kind = .port ∧ (part.planOf 5).assignment = 7 ∧
    (part.readAt 967 .empty 0 none).occ 967 = .vacant ∧ (part.readAt 967 .unreadable 0 none).occ 967 = .foreign 0 := by
  decide +kernel
theorem test_witness_ServiceRequests_sound : part.sound ∧ (waitingPart false).sound ∧ (withActive .moving false).part.sound :=
  ⟨test_part_sound, test_witness_TimerExpiries_sound.2.2.1, test_witness_JobCancelled_sound.2.2.1⟩

/-- DeliveryAttempts: a READY that serves the head step of a job, its reticle free and not free, held, and none to serve. -/
def readyPart (r : Rec) (st : StepState) : Part := { part with
  inv := { part.inv with recs := [(5, r), (6, rec6)] }
  jobs := ⟨[(15, activeJob st false)], [(4, { Port.cold with active := some 15, window := [⟨.ready, 990⟩] })], []⟩ }
theorem test_witness_DeliveryAttempts : part.readyStep 4 = none ∧
    ((readyPart rec5 .pending).readyStep 4).map (fun x => (x.1, x.2.1, x.2.2.2)) = some (15, 0, idOf 0, 60, 990) ∧
    (readyPart rec5 .pending).findId (idOf 0) = some (5, rec5) ∧ rec5.place = .loc 487 ∧ rec5.state = .idle ∧
    ((readyPart rec5 .pending).settle 5).rec? 5 = some rec5 ∧
    ((readyPart { rec5 with state := .reserved } .waiting).readyStep 4).isSome = true ∧
    ((readyPart { rec5 with operator := true } .pending).readyStep 4).isSome = true := by decide +kernel
theorem test_witness_DeliveryAttempts_sound : part.sound ∧ (readyPart rec5 .pending).sound ∧
    (readyPart { rec5 with state := .reserved } .waiting).sound ∧ (readyPart { rec5 with operator := true } .pending).sound := by
  refine ⟨test_part_sound, sound_of _ ?_, sound_of _ ?_, sound_of _ ?_⟩ <;>
    unfold Part.recordsSound Part.movesSound Part.zonesSound Zone.bounded Part.canonical <;> decide +kernel

/-- OffersEnd: an offer PRESENTED and one WITHDRAWING, of a job step and of none, and none at all. -/
def offerPart (st : RState) (job : Option (Nat × Nat)) : Part := { part with
  inv := { part.inv with
    occ := [(964, .occupied 5 true)]
    recs := [(5, { rec5 with place := .loc 964, state := st, stamp := some 900, job := job }), (6, rec6)] }
  jobs := ⟨[(15, activeJob .presented false)], [(4, { Port.cold with active := some 15 })], []⟩ }
theorem test_witness_OffersEnd : (∀ st ∈ [RState.presented, .withdrawing], ∀ j ∈ [some (15, 0), none],
      (offerPart st j).findId (idOf 0) = some (5, { rec5 with place := .loc 964, state := st, stamp := some 900, job := j })) ∧
    ((offerPart .presented (some (15, 0))).job? 15).bind (fun b => b.steps[0]?.map (·.state)) = some .presented ∧
    part.findId (idOf 3) = none ∧ idOk (idOf 0) = true ∧ idOk [] = false ∧
    part.findId (List.replicate 12 0#8) = none ∧ (part.planOf 3).kind = .port ∧ (part.planOf 3).assignment = 4 := by
  decide +kernel
theorem test_witness_OffersEnd_sound : ∀ st ∈ [RState.presented, .withdrawing], ∀ j ∈ [some (15, 0), none],
    (offerPart st j).sound := by
  intro st hs j hj
  refine sound_of _ ?_
  unfold Part.recordsSound Part.movesSound Part.zonesSound Zone.bounded Part.canonical
  fin_cases hs <;> fin_cases hj <;> decide +kernel

/-- ReturnsHandled: no return; one with its move; one to be stored at the AUTO port, in NORMAL and in STANDALONE; one at the
DIRECTED port with no job and with a RETURN job; one that a WAITING step of port 7 wants. -/
def returnPart (p : Nat) (jobs : JobEngine) (f : Port → Port) : Part := { part with
  inv := { part.inv with
    occ := [(488, .vacant), (960 + p, .occupied 5 true), (968, .vacant), (969, .vacant)]
    recs := [(5, { rec5 with place := .loc (960 + p), state := .returned, stamp := some 1000 }), (6, rec6)] }
  jobs := { jobs with ports := [(p, f { Port.cold with ret := some ⟨.record 5, false, none, false, false⟩ })] } }
def returnJob : Job :=
  ⟨7, .ret, true, [⟨.ret (.slot 488) (some (idOf 0)), .pending, none, none, none, none⟩], true, false, none, false, false⟩
def storePart : Part := returnPart 4 ⟨[], [], []⟩ id
def directedPart : Part := returnPart 7 ⟨[(15, returnJob)], [], []⟩ fun p => { p with active := some 15 }
def crossPart : Part :=
  let c := returnPart 4 ⟨[(15, { activeJob .waiting false with port := 7, steps :=
    [⟨.deliver (idOf 0) 60, .waiting, none, none, some 950, none⟩] })], [], []⟩ id
  { c with
    inv := { c.inv with occ := [(964, .occupied 5 true), (967, .vacant), (968, .vacant), (969, .vacant)] }
    jobs := { c.jobs with ports := c.jobs.ports ++ [(7, { Port.cold with active := some 15, window := [⟨.ready, 990⟩] })] } }
theorem test_witness_ReturnsHandled : (part.port 4).ret = none ∧ ((returning.part.port 7).ret.bind (·.move)) = some 20 ∧
    (∀ x ∈ [(storePart, 4), (directedPart, 7), (returnPart 7 ⟨[], [], []⟩ id, 7), (crossPart, 4)],
      (x.1.port x.2).ret.isSome = true ∧ (x.1.port x.2).masked = false ∧ x.1.suspended x.2 = false ∧
      x.1.ctl.mode.admits = true) ∧
    (storePart.portCfg 4).directed = false ∧ (directedPart.portCfg 7).directed = true ∧
    directedPart.job? 15 = some returnJob ∧
    (crossPart.readyStep 7).map (fun x => (x.1, x.2.1, x.2.2.1.state)) = some (15, 0, .waiting) ∧
    (crossPart.settle 5).rec? 5 = crossPart.rec? 5 ∧ 800 + 60 * 4 < crossPart.limits.eHold := by decide +kernel
theorem test_witness_ReturnsHandled_sound : storePart.sound ∧ directedPart.sound ∧ crossPart.sound := by
  refine ⟨sound_of _ ?_, sound_of _ ?_, sound_of _ ?_⟩ <;>
    unfold Part.recordsSound Part.movesSound Part.zonesSound Zone.bounded Part.canonical <;> decide +kernel
theorem test_witness_ReturnsHandled_cross : ∃ g m, (crossPart.settle 5).admitAsk ⟨.cross, some 964, some 967, 0, 1, .step 15 0,
    none, (crossPart.settle 5).expressFor 15, some 990, false⟩ = .ok (g, m) := ⟨_, _, rfl⟩

/-- AdmissionRules: each check failing and none; no room for a RELOCATE with 16 moves, and room for a DELIVER. -/
def crowded : Part := { part with mv := { part.mv with
  moves := (List.range 16).map fun i => { move20 with num := i, seq := i, reticle := none, src := none }, lastSeq := 15 } }
theorem test_witness_AdmissionRules : (inMode .failSafe).part.ctl.mode.admits = false ∧ part.ctl.mode.admits = true ∧
    crowded.mv.moves.length = 16 ∧ (part.robot .a).state = .idle ∧
    (∃ e m, part.admitAsk (relocateTo (some 488)) = .ok (e, m)) ∧ (∃ e m, part.admitAsk (relocateTo none) = .ok (e, m)) ∧
    (∃ e m, part.admitAsk ⟨.scan, none, some 967, 0, 0, .inventory false, none, false, none, false⟩ = .ok (e, m)) ∧
    (withMove move20).part.mv.moves = [] ++ move20 :: [] :=
  ⟨by decide +kernel, by decide +kernel, rfl, rfl, ⟨_, _, rfl⟩, ⟨_, _, rfl⟩, ⟨_, _, rfl⟩, rfl⟩
theorem test_witness_AdmissionRules_sound : (inMode .failSafe).part.sound ∧ crowded.sound ∧ (withMove move20).part.sound := by
  refine ⟨sound_of _ ?_, sound_of _ ?_, test_witness_RobotAndMoveRequests_cancel.2.1⟩ <;>
    unfold Part.recordsSound Part.movesSound Part.zonesSound Zone.bounded Part.canonical <;> decide +kernel

theorem test_witness_SlotChoice : part.sound ∧ part.chooseSlot 1 8 9 (fun _ => true) = some 488 ∧
    part.chooseSlot 1 8 0 (fun _ => true) = none := ⟨test_part_sound, by decide +kernel, by decide +kernel⟩

theorem test_witness_CandidateChosen : (base.part.robot .a).state = .idle ∧ base.part.bus.enum = none ∧
    (moving.part.robot .a).state ≠ .idle ∧ base.part.mv.moves = [] ∧ (withMove move20).part.candidate .a = some move20 := by
  decide +kernel

theorem test_witness_ArbiterKeepsClear : ((withMove move20).part.railOnce).isSome = true := by decide +kernel

/-- PurgePasses: pass 3 in progress in zone 8, with a protected reticle, one in a sealed slot, and one the zone comes to protect. -/
def purgingWith (z : Zone) (r : Rec) (f : Store SlotFlags) : Part := { part with
  zones := [(8, { z with pass := some ⟨3, 900, 240⟩ })]
  inv := { part.inv with recs := [(5, r), (6, rec6)], flags := f } }
def zone8 : Zone := { Zone.cold with b := 0, timer := some 5000 }
def passParts : List Part := [purgingWith zone8 rec5 [],
  purgingWith zone8 { rec5 with stamp := some 900 } [(487, ⟨false, false, true⟩)],
  purgingWith { zone8 with b := -4, overdue := true } { rec5 with stamp := some 900 } []]
theorem test_witness_PurgePasses : (∀ c ∈ passParts, (c.planOf 4).kind = .manifold ∧ (c.zoneCfg 8).manifold = 4 ∧
      (c.zoneCfg 8).channel = 0 ∧ (c.zone 8).pass = some ⟨3, 900, 240⟩ ∧ (∀ y < 8, (c.zone y).pass = none) ∧
      c.limits.eWarn ≤ c.limits.eHold ∧ (c.occ 487).resident = some 5) ∧
    (passParts.map fun c => (c.protective 8, (c.rec? 5).map (·.stamp), (c.flagsOf 487).sealed)) =
      [(true, some none, false), (true, some (some 900), true), (false, some (some 900), false)] ∧
    ∀ z < 16, z ≠ 8 → (part.zone z).pass = none := by decide +kernel
theorem test_witness_PurgePasses_sound : ∀ c ∈ passParts, c.sound ∧ c.agrees := by
  intro c hc
  refine ⟨sound_of _ ?_, agrees_of _ ?_⟩
  · unfold Part.recordsSound Part.movesSound Part.zonesSound Zone.bounded Part.canonical
    fin_cases hc <;> decide +kernel
  · fin_cases hc <;> decide +kernel

/-- A zone that is DUE and so first, none that is a candidate, and no pass to be had; a channel that is usable and one that is
not, with and without the fault, a pass in progress or none; a manifold LOST, in a warm start and not. -/
def duePart : Part := { part with zones := [(8, { zone8 with b := -1 })] }
def supplied (s : NodeState) (fault : Bool) : Part :=
  { duePart.putNode 4 { node .manifold 300 with state := s } with
    zones := [(8, { zone8 with supplyFault := fault, pass := if fault then none else some ⟨3, 900, 240⟩ })] }
def warming (c : Part) : Part := { c with bus := { c.bus with enum := some ⟨.warm, [5]⟩ } }
theorem test_witness_PurgePasses_supply : duePart.candidacy 8 = some 1 ∧ (∀ y < 16, y ≠ 8 → duePart.candidacy y = none) ∧
    ((List.range 16).filter fun y => (duePart.zone y).pass.isSome).length < duePart.sched.concurrency ∧
    (∀ y < 16, (passParts.getD 0 part).candidacy y = none) ∧
    (∀ f ∈ [true, false], (supplied .present f).supplyBad 8 = false ∧ (supplied .lost f).supplyBad 8 = true) ∧
    ((supplied .lost false).node? 4).map (·.state) = some .lost ∧ (part.planOf 4).kind = .manifold ∧
    (warming (supplied .lost false)).bus.enum = some ⟨.warm, [5]⟩ ∧ (part.zoneCfg (487 / 60)).manifold = 4 ∧
    (part.zoneCfg (959 / 60)).manifold ≠ 4 ∧ (part.occ 487).resident = some 5 := by decide +kernel
theorem test_witness_PurgePasses_supply_sound : duePart.sound ∧ part.agrees ∧ (supplied .present true).sound ∧
    (supplied .present false).sound ∧ (supplied .lost true).sound ∧ (supplied .lost false).sound := by
  refine ⟨sound_of _ ?_, test_part_agrees.1, sound_of _ ?_, sound_of _ ?_, sound_of _ ?_, sound_of _ ?_⟩ <;>
    unfold Part.recordsSound Part.movesSound Part.zonesSound Zone.bounded Part.canonical <;> decide +kernel

/-- RobotReports: a dispatched move, the same move picked, to a slot and to a port position, and a scan. -/
def picked : State :=
  let s := after moving (.exchangeAnswered ⟨true, .none, .nothing⟩)
  { s with part := s.part.picked .a 20 (.id (idOf 0)) 1 }
def scanMove : Move := { move20 with kind := .scan, src := none, reticle := none, state := .dispatched }
def scanMoving : State :=
  { moving with part := { moving.part with mv := { moving.part.mv with moves := [scanMove] } } }
theorem test_witness_RobotReports : moving.part.current? .a 19 = none ∧
    (moving.part.current? .a 20).map (fun m => (m.state, m.kind, m.src, m.reticle)) =
      some (.dispatched, .relocate, some 487, some 5) ∧
    moving.part.rec? 5 = some rec5 ∧ idOk rec5.id = true ∧
    (picked.part.current? .a 20).map (fun m => (m.state, m.dst, m.reticle)) = some (.picked, some 488, some 5) ∧
    (picked.part.rec? 5).isSome = true ∧ scanMoving.part.current? .a 20 = some scanMove := by decide +kernel
theorem test_witness_RobotReports_sound : moving.part.sound ∧ scanMoving.part.sound ∧ picked.part.sound ∧
    moving.part.agrees ∧ scanMoving.part.agrees ∧ picked.part.agrees := by
  refine ⟨sound_of _ ?_, sound_of _ ?_, sound_of _ ?_, agrees_of _ (by decide +kernel), agrees_of _ (by decide +kernel),
    agrees_of _ (by decide +kernel)⟩ <;>
    unfold Part.recordsSound Part.movesSound Part.zonesSound Zone.bounded Part.canonical <;> decide +kernel

/-- Move 20 dispatched from its OUTBOUND source; a STORE of a pod with no record; the place that finds slot 488 taken, its
destination named or chosen for ANY; a put-back with a read kept and with none. -/
def foreignPart : Part := { transitPart with
  inv := { part.inv with occ := [(487, .occupied 5 true), (964, .foreign 2), (968, .vacant), (969, .vacant)] }
  mv := { transitPart.mv with moves := [{ move20 with
    kind := .store, src := some 964, reticle := none, podKind := some 2, state := .dispatched, owner := .portReturn 4 }] } }
def carrying (ref : Option Nat) (put : Bool) (y : Option (Read × Nat)) : Part := { transitPart with
  inv := { part.inv with
    occ := [(487, .outbound 7 true), (488, .inbound 5), (489, .vacant), (968, .occupied 5 true), (969, .vacant)]
    recs := [(5, { rec5 with state := .inTransit, place := .loc 968, stamp := some 900 }), (6, rec6),
      (7, { rec5 with id := idOf 2, state := .inTransit })] }
  mv := { transitPart.mv with moves := [{ move20 with
    refColumn := ref, dst := if put then none else some 488, putBack := put, pickRead := y
    state := if put then .puttingBack else .picked }] } }
theorem test_witness_RobotReports_picks :
    (transitPart.current? .a 20).map (fun m => (m.state, m.kind, m.src, m.dst, m.reticle)) =
      some (.dispatched, .relocate, some 487, some 488, some 5) ∧ transitPart.occ 487 = .outbound 5 true ∧
    (transitPart.rec? 5).map (fun r => (r.state, r.id)) = some (.inTransit, idOf 0) ∧ transitPart.occ 488 = .inbound 5 ∧
    (∀ k ∈ transitPart.mv.moves, k.reticle = some 5 → k.num = 20) ∧ (transitPart.occ 968).resident = none ∧
    Read.id (idOf 3) ≠ .id (idOf 0) ∧ (foreignPart.current? .a 20).map (fun m => (m.state, m.src, m.reticle)) =
      some (.dispatched, some 964, none) ∧ foreignPart.occ 964 = .foreign 2 ∧
    (Read.id []).norm = .unreadable ∧ (Read.id (idOf 3)).norm = .id (idOf 3) := by
  and_intros <;> decide +kernel
theorem test_witness_RobotReports_places :
    (∀ ref ∈ [none, some 8], ((carrying ref false none).current? .a 20).map (fun m => (m.state, m.dst, m.refColumn)) =
      some (.picked, some 488, ref)) ∧
    (((carrying (some 8) false none).raiseFlag 488 .conflict).clear 488 none .unknown).rechoose .a
      { move20 with refColumn := some 8, state := .picked } = some 489 ∧
    (∀ y ∈ [none, some (.id (idOf 3), 1)], ((carrying none true y).current? .a 20).map
      (fun m => (m.state, m.src, m.pickRead)) = some (.puttingBack, some 487, y)) ∧
    ((carrying none true none).rec? 5).map (·.place) = some (.loc (handOf .a)) := by decide +kernel
theorem test_witness_RobotReports_more_sound : foreignPart.sound ∧ (carrying (some 8) false none).sound ∧
    (carrying none true none).sound ∧ (carrying none true (some (.id (idOf 3), 1))).sound ∧ foreignPart.agrees ∧
    (carrying (some 8) false none).agrees ∧ (carrying none true none).agrees := by
  refine ⟨sound_of _ ?_, sound_of _ ?_, sound_of _ ?_, sound_of _ ?_, agrees_of _ ?_, agrees_of _ ?_, agrees_of _ ?_⟩ <;>
    (try unfold Part.recordsSound Part.movesSound Part.zonesSound Zone.bounded Part.canonical) <;> decide +kernel

/-- NoticeQueueRules: 31 and 32 notices, all major, and 32 with a minor one. -/
def queued (n : Nat) (s : Subject) : NoticeQueue := ⟨⟨0, 0, s⟩ :: List.replicate n ⟨1, 0, .linkSilent⟩, 33, false, none⟩
theorem test_witness_NoticeQueueRules : (queued 30 .linkSilent).size < 32 ∧ 32 ≤ (queued 31 .linkSilent).size ∧
    (∀ k ∈ (queued 31 .linkSilent).queue, k.subject.minor = false) ∧
    (Subject.passMove 0 0 .completed).minor = true ∧ Subject.minor .linkSilent = false ∧ base.listens = true := by decide +kernel

theorem test_witness_FramesCarryRequests : (List.replicate 1024 0#8).length ≤ 1024 ∧ goodFrame [] = false ∧
    [0#8, 0#8, 0#8, 0#8, 0#8].length = 5 := by decide +kernel

/-! ### More hypotheses that are met -/

/-- QueryEffects: by ID, of bad form, of no record and found; from the last number, nothing left; from 6 on to record 1023. -/
theorem test_witness_QueryEffects_byId : idOk [] = false ∧ idOk (idOf 3) = true ∧ base.part.findId (idOf 3) = none ∧
    base.part.findId (idOf 0) = some (5, rec5) ∧ ((base.part.settle 5).rec? 5).isSome = true ∧
    (withLast.part.rec? 1023).isSome = true := by decide +kernel
theorem test_witness_QueryEffects_next : base.part.sound ∧ (∀ k, 1023 ≤ k → base.part.rec? k = none) ∧
    (∀ i, 6 ≤ i → i < 1023 → withLast.part.rec? i = none) := by
  refine ⟨test_part_sound, fun k hk => ?_, fun i h6 hi => ?_⟩
  · have h : k ≠ 5 ∧ k ≠ 6 := by omega
    simp [base, part, Part.rec?, Store.find, Ne.symm h.1, Ne.symm h.2]
  · have h : i ≠ 5 ∧ i ≠ 1023 := by omega
    simp [withLast, withPart, base, part, Part.rec?, Store.find, Ne.symm h.1, Ne.symm h.2]

/-- HoldRequests: a record RESERVED by a pending DELIVER, a CROSS and a RELOCATE, one offered by a job's step. -/
def crossHeld : Part := { crossPart with
  inv := { crossPart.inv with recs := [(5, { rec5 with
    place := .loc 964, state := .reserved, stamp := some 1000, job := some (15, 0) })] }
  jobs := ⟨[(15, { activeJob .reserved false with port := 7 })],
    [(4, { Port.cold with ret := some ⟨.record 5, false, some 20, false, false⟩ }), (7, { Port.cold with active := some 15 })],
    []⟩
  mv := { crossPart.mv with moves := [{ deliverMove with kind := .cross, src := some 964, dst := some 967 }] } }
def relocateHeld : Part := { part with
  inv := { part.inv with recs := [(5, { rec5 with state := .reserved })] }
  mv := { part.mv with moves := [move20] } }
theorem test_witness_HoldRequests_acts :
    (∀ c ∈ [(withActive .reserved false).part, crossHeld, relocateHeld],
      (c.rec? 5).map (fun r => (r.held, r.state)) = some (false, .reserved) ∧
      c.mv.moves.map (fun m => (m.reticle, m.granted)) = [(some 5, false)]) ∧
    (∀ c ∈ [(withActive .reserved false).part, crossHeld],
      ((c.job? 15).map fun b => (b.kind, b.steps.map (·.state))) = some (.deliver, [.reserved])) ∧
    (crossHeld.mv.moves.map fun m => (m.kind, m.owner, m.src)) = [(.cross, .step 15 0, some (960 + 4))] ∧
    (crossHeld.port 4).ret.bind (·.move) = some 20 ∧
    ((offerPart .presented (some (15, 0))).rec? 5).map (fun r => (r.state, r.held, r.place)) =
      some (.presented, false, .loc (960 + 4)) ∧ part.portAddr 4 = some 3 ∧ (part.node? 3).isSome = true := by
  decide +kernel
/-- A hold skips the CROSS: its step ends SKIPPED_HOLD, and the return is handled as a forced one (R39, R106). -/
theorem test_hold_cross : (crossHeld.addHold 5 .operator).mv.moves = [] ∧
    ((crossHeld.addHold 5 .operator).port 4).ret = some ⟨.record 5, true, none, false, false⟩ ∧
    (crossHeld.addHold 5 .operator).out.head? = some (.stepResult 15 1 .skippedHold (some 5)) ∧
    ((crossHeld.addHold 5 .operator).rec? 5).map (fun r => (r.state, r.job)) = some (.returned, none) ∧
    .handle 4 ∈ (crossHeld.addHold 5 .operator).work := by decide +kernel

/-- RelocateRequest: each refusal; the first slot out of range and the last in it; a record OUT, and one in a move. -/
theorem test_witness_RelocateRequest_refused : idOk [] = false ∧ idOk (idOf 3) = true ∧ base.part.findId (idOf 3) = none ∧
    960 ≤ 960 ∧ 959 < 960 ∧ base.part.findId (idOf 1) = some (6, rec6) ∧ rec6.state ≠ .idle ∧
    (withMove move20).part.findId (idOf 0) = some (5, rec5) ∧ (withMove move20).part.inMove 5 = true ∧
    (withMove move20).listens = true ∧ (withMove move20).mode.admits = true := by decide +kernel

/-- WatchEvaluations: a job and an entry it enables, and one it does not. -/
theorem test_witness_WatchEvaluations_bound :
    let c := { withJob.part with watch := ⟨[⟨.range 0 1, .both, .job 15, true⟩, WatchEntry.cold], none⟩ }
    c.job? 15 = some job2 ∧ (c.watch.entries[0]?.map (·.enable)) = some (.job 15) ∧
    (c.watch.entries[1]?.map (·.enable)) = some .off ∧ ((c.endJob 15 .done).watch.entries[0]?.map (·.enable)) = some .off := by
  decide +kernel

/-- ModeRequests: a pending entry that completes, with a window open, and one whose zone has no mark yet. -/
def entering (mark : Bool) : Part := { part with
  ctl := { part.ctl with pending := true }, window := some ⟨.cls [], 1⟩
  zones := [(8, { Zone.cold with timer := some 5000, mark := mark })] }
theorem test_witness_ModeRequests_entry : (∀ b ∈ [true, false], (entering b).ctl.pending = true ∧
      (entering b).ctl.mode = .normal ∧ (entering b).window.isSome = true ∧ ((entering b).zone 8).mark = b ∧
      ((entering b).zone 8).failures ≠ 2 ∧ ((entering b).zone 8).supplyFault = false) ∧
    (∀ z < 16, z ≠ 8 → ((entering true).zoneCfg z).enabled = false) ∧ ((entering true).zoneCfg 8).enabled = true := by
  decide +kernel
theorem test_standalone_completes : (entering true).standaloneOnce.map (fun d => (d.ctl.mode, d.ctl.ret, d.out.length)) =
    some (.standalone, some .normal, 2) ∧ (entering false).standaloneOnce = none := by decide +kernel

/-- ModeChangesAct: a move dispatched and a scan dispatched, and none granted. -/
theorem test_witness_ModeChangesAct_moves : transitPart.sound ∧ scanMoving.part.sound ∧
    (∀ c ∈ [transitPart, scanMoving.part], (c.robot .a).state = .busy ∧ ((c.robot .a).current.bind c.move?).isSome = true ∧
      (c.mv.moves.map Move.granted) = [true]) ∧ (transitPart.robot .b).state ≠ .busy ∧
    (transitPart.mv.moves.map (·.reticle)) = [some 5] ∧ (transitPart.rec? 5).isSome = true ∧
    (withMove move20).part.mv.moves.map Move.granted = [false] :=
  ⟨test_witness_ReaderResult_sound.2.2.1, test_witness_RobotReports_sound.2.1, by decide +kernel⟩

/-- RollCalls: a LOST port node, a request in its port's window. -/
theorem test_witness_RollCalls_window :
    ((readyPart rec5 .pending).putNode 3 { node .port 200 with state := .lost }).bus.enum = none ∧
    (((readyPart rec5 .pending).putNode 3 { node .port 200 with state := .lost }).node? 3).map (·.state) = some .lost ∧
    ((readyPart rec5 .pending).planOf 3).kind = .port ∧
    ((readyPart rec5 .pending).port ((readyPart rec5 .pending).planOf 3).assignment).window = [⟨.ready, 990⟩] := by
  decide +kernel

/-- ReaderResult: a reticle IN_TRANSIT read at its move's destination, and one that is IN_DOUBT, with no location, read there. -/
def doubtPart : Part := { transitPart with inv := { transitPart.inv with
  occ := [(488, .inbound 5), (968, .vacant), (969, .vacant)]
  recs := [(5, { rec5 with state := .inDoubt, place := .none, stamp := some 900 }), (6, rec6)] } }
theorem test_witness_ReaderResult_moves : (∀ c ∈ [transitPart, doubtPart], c.claimedBy 488 none = some (some 5) ∧
      (c.findId (idOf 0)).map (fun e => (e.1, decide (e.2.place = .loc 488))) = some (5, false) ∧
      (c.mv.moves.map fun m => (m.granted, m.reticle, m.dst)) = [(true, some 5, some 488)]) ∧
    (transitPart.rec? 5).map (·.state) = some .inTransit ∧ (doubtPart.rec? 5).map (·.state) = some .inDoubt := by
  decide +kernel
theorem test_witness_ReaderResult_moves_sound : doubtPart.sound ∧ doubtPart.agrees := by
  refine ⟨sound_of _ ?_, agrees_of _ (by decide +kernel)⟩
  unfold Part.recordsSound Part.movesSound Part.zonesSound Zone.bounded Part.canonical
  decide +kernel

/-- ServiceRequests: READY at port 7, whose step waits for the pod that stands as the return of port 4 (R101). -/
theorem test_witness_ServiceRequests_ready : crossPart.acknowledges 7 .ready = true ∧
    ((crossPart.port 4).ret.map (·.pod)) = some (.record 5) ∧ (crossPart.findId (idOf 0)).map (·.1) = some 5 ∧
    (crossPart.port 7).active = some 15 ∧
    ((crossPart.job? 15).bind Job.head).map (fun h => (h.1, h.2.work, h.2.state)) = some (0, .deliver (idOf 0) 60, .waiting) ∧
    .handle 4 ∈ (crossPart.serviceRequest 7 .ready).work := by decide +kernel

/-- ReturnsHandled: the return of the DIRECTED port 7 that waits, with no job and with a DELIVER job, and none that waits. -/
theorem test_witness_ReturnsHandled_waits :
    (∀ c ∈ [returnPart 7 ⟨[], [], []⟩ id, returnPart 7 ⟨[(15, { job2 with port := 7, active := true })], [], []⟩
        fun p => { p with active := some 15 }],
      (c.port 7).ret = some ⟨.record 5, false, none, false, false⟩ ∧ (c.rec? 5).map Rec.held = some false ∧
      (c.portCfg 7).directed = true ∧ (c.port 7).masked = false ∧ c.suspended 7 = false ∧ c.ctl.mode.admits = true ∧
      (∀ i < 7, (c.port i).ret = none) ∧ (c.waitingOnce.map (·.out)) = some [.returnWaiting 7 (.record 5)]) ∧
    storePart.waitingOnce = none := by decide +kernel

/-- ArbiterKeepsClear: a candidate that is clear; one that is not, the other robot able to give way, with a candidate of
its own that keeps clear and with none, and one not able; a RELOCATE granted, its destination taken with and without a
column to choose by, its source gone; a pod with no record; a scan. -/
def railPart (b : RobotState) (i : Nat × Nat) (moves : List Move) : Part := { part with
  mv := { part.mv with moves := moves, robotB := ⟨b, some i.2, some i, none, none, [], false, none⟩ } }
def moveB : Move := { move20 with num := 21, seq := 8, robot := .b, src := some 964, dst := some 967, reticle := none }
theorem test_witness_ArbiterKeepsClear_yields :
    (∀ i ∈ [(17, 17), (11, 11), (10, 10), (5, 17)], ((railPart .idle i [move20]).needed .a move20) = some (4, 9)) ∧
    (railPart .idle (17, 17) [move20]).clearFor .a (4, 9) = true ∧
    (railPart .idle (10, 10) [move20]).clearFor .a (4, 9) = false ∧
    (railPart .suspect (10, 10) [move20]).clearFor .a (4, 9) = false ∧
    (railPart .idle (10, 10) [move20]).candidate .a = some move20 ∧
    (railPart .idle (10, 10) [move20]).candidate .b = none ∧
    (railPart .idle (5, 17) [move20, moveB]).candidate .b = some moveB ∧
    (railPart .idle (5, 17) [move20, moveB]).clearFor .a (4, 9) = false ∧ move20.seq < moveB.seq ∧
    move20.express = moveB.express ∧ (railPart .idle (10, 10) []).candidate .a = none := by decide +kernel
theorem test_witness_ArbiterKeepsClear_grants : (withMove move20).part.move? 20 = some move20 ∧
    part.occ 487 = .occupied 5 true ∧ (part.slotCfg 487).enabled = true ∧ (part.flagsOf 487).any = false ∧
    (part.slotCfg 488).enabled = true ∧ part.occ 488 = .vacant ∧ accepts (part.slotCfg 488).kinds rec5.kind = true ∧
    part.occ 959 ≠ .vacant ∧ (part.chooseSlot rec5.kind 8 (part.tables.columnAt 487 + 1) fun _ => true) = some 488 ∧
    (part.chooseSlot rec5.kind 8 (part.tables.columnAt 487 + 1) fun _ => false) = none ∧
    foreignPart.occ 964 = .foreign 2 ∧ (foreignPart.portCfg (964 - 960)).inPlan = true ∧
    scanMove.kind = .scan ∧ scanMove.dst = some 488 := by decide +kernel

/-- RobotReports: the pick of a reticle IN_TRANSIT for a job's step and for none, and of one left IN_DOUBT (assumption 15). -/
def stepTransit : Part := { transitPart with
  inv := { transitPart.inv with recs := [(5, { rec5 with state := .inTransit, job := some (15, 0) }), (6, rec6)] }
  mv := { transitPart.mv with moves := [{ deliverMove with state := .dispatched, dst := some 488 }] } }
theorem test_witness_RobotReports_transit : (∀ c ∈ [transitPart, stepTransit, doubtPart],
      (c.current? .a 20).map (fun m => (m.state, decide (m.kind = .scan), m.src, m.reticle)) =
        some (.dispatched, false, some 487, some 5)) ∧
    (transitPart.rec? 5).map (fun r => (r.state, r.job)) = some (.inTransit, none) ∧
    (stepTransit.rec? 5).map (fun r => (r.state, r.job)) = some (.inTransit, some (15, 0)) ∧
    ((stepTransit.current? .a 20).map (·.owner)) = some (.step 15 0) ∧
    (doubtPart.rec? 5).map (fun r => (r.state, r.id)) = some (.inDoubt, idOf 0) ∧ idOk (idOf 0) = true := by
  decide +kernel
theorem test_witness_RobotReports_transit_sound : stepTransit.sound ∧ stepTransit.agrees := by
  refine ⟨sound_of _ ?_, agrees_of _ (by decide +kernel)⟩
  unfold Part.recordsSound Part.movesSound Part.zonesSound Zone.bounded Part.canonical
  decide +kernel

/-- ShadowEntries: the tables rise; an entry at each clamp and past it; a window on the table and on another, the last
index of each table and the first past it; a port assignment used twice, a robot and a manifold in use. -/
theorem test_witness_ShadowEntries : Store.rising tables.slotMap = true ∧ Store.rising tables.ports = true ∧
    Store.rising tables.zone.zones = true ∧ Store.rising tables.plan = true ∧
    field [4#8, 0x10#8, 0x00#8] 1 2 = 4096 ∧ field [4#8, 0x0F#8, 0xFF#8] 1 2 = 4095 ∧ field [5#8] 0 1 = 5 ∧
    withWindow.listens = true ∧ withWindow.mode ≠ .start ∧ tableOfCode 3 = some .cls ∧ [4#8, 0x10#8, 0x00#8].length =
      entryLength .cls 3 ∧ (withWindow.part.window.map fun w => w.shadow.table) = some .cls ∧
    (inMode .failSafe).listens = true ∧ TableId.cls.opensInFailSafe = true ∧
    (Shadow.plan tables.plan).write 9 [5#8, 0#8, 0#8, 0#8] = none ∧
    (Shadow.limits tables.limits).write 2 [0#8, 8#8] = none := by decide +kernel
/-- What validation refuses, by hand from R4, R54, R61, R116 and R150: slot 487 holds record 5, position 967
is UNKNOWN, zone 8 has a pass in progress, robot A is BUSY, and address 9 takes the assignment of the node at 3, which then offends too and lies lower. -/
theorem test_validation : part.badShadow (.slotMap [(487, ⟨false, 0, 15⟩)]) = some 487 ∧
    part.badShadow (.port []) = some 7 ∧ storePart.badShadow (.port []) = some 4 ∧
    timing.part.badShadow (.zone ⟨[], ⟨20, 240, 2⟩⟩) = some 8 ∧ part.badShadow (.cls []) = none ∧
    transitPart.badShadow (.limits { tables.limits with disableA := true }) = some 3 ∧
    part.badShadow (.limits { tables.limits with eHold := 0 }) = some 0 ∧
    part.badShadow (.plan (tables.plan ++ [(9, ⟨.port, 1, 4⟩)])) = some 3 := by decide +kernel

/-- CommitEffects: each table with something to do: a slot enabled, the DIRECTED port turned AUTO, accounts that run and
stand, thresholds lowered, each robot disabled and enabled, PRESENT and not, a zone disabled and enabled, a node dropped. -/
def disabledLimits : Limits := { tables.limits with disableA := true, disableB := true }
def disabledPart : Part := { part with tables := { tables with limits := disabledLimits } }
def offSlot : Part := { part with tables := { tables with slotMap := [(488, ⟨false, 0, 15⟩)] } }
theorem test_witness_CommitEffects : offSlot.occ 488 = .vacant ∧ (offSlot.slotCfg 488).enabled = false ∧
    (Store.getD SlotCfg.default [] 488).enabled = true ∧ (directedPart.port 7).active = some 15 ∧
    directedPart.job? 15 = some returnJob ∧ returnJob.port = 7 ∧ returnJob.cancel = false ∧ directedPart.mv.moves = [] ∧
    (∀ st ∈ returnJob.steps, st.state = .pending) ∧ (directedPart.portCfg 7).directed = true ∧
    (Store.getD PortCfg.default [] 7).directed = false ∧ rec5.stamp = none ∧ rec6.stamp ≠ none ∧ rec5.exposure = false ∧
    part.robotPresent .a = true ∧ (part.putNode 1 { node .robot 100 with state := .lost }).robotPresent .a = false ∧
    ((suspectA true).part.robot .a).state = .suspect ∧ part.limits.disableA = false ∧ disabledPart.limits.disableB = true ∧
    (part.robot .b).yieldTo = none ∧ ((yielding .disabled).robot .b).yieldTo ≠ none ∧ (part.zoneCfg 8).enabled = true ∧
    (part.zoneCfg 9).enabled = false ∧ part.protective 8 = true ∧ (part.planOf 3).kind = .port ∧
    (part.node? 3).map (·.state) = some .present ∧ (part.currentOf .a) = none ∧ (part.currentOf .b) = none := by
  decide +kernel
theorem test_witness_CommitEffects_sound : part.sound ∧ directedPart.sound ∧ offSlot.sound ∧ disabledPart.sound ∧
    (suspectA true).part.sound := by
  refine ⟨test_part_sound, test_witness_ReturnsHandled_sound.2.1, sound_of _ ?_, sound_of _ ?_, sound_of _ ?_⟩ <;>
    unfold Part.recordsSound Part.movesSound Part.zonesSound Zone.bounded Part.canonical <;> decide +kernel
/-- Robot B, disabled, goes to its park; the RETURN job of the port turned AUTO ends; the dropped port's entry goes (R89,
R116, R150). -/
theorem test_commit : ((part.commit (.limits disabledLimits)).robot .a).held = some (0, 4) ∧
    ((part.commit (.limits disabledLimits)).robot .a).yieldTo = some (0, 1000 + tables.limits.moveTimeout) ∧
    (directedPart.commit (.port [])).job? 15 = none ∧ (part.commit (.plan [])).node? 3 = none ∧
    (part.commit (.zone ⟨[], ⟨20, 240, 2⟩⟩)).rec? 5 = some { rec5 with stamp := some 1000 } := by decide +kernel

/-! ### Requests -/

/-- Power-on with no good image leaves the machine as reset does (R190). -/
theorem test_coldStart : after State.reset (.coldStart false false) = State.reset := by decide +kernel
/-- An active line at power-on is taken as seen in START (R183). -/
theorem test_coldStart_line : (after base (.coldStart true false)).part.ctl.seenEnclosure = true ∧
    (after base (.coldStart true false)).part.now = 0 := by decide +kernel
/-- A soft reset keeps part time and records, and starts over (R191, R42). -/
theorem test_softReset : (after base (.softReset 1)).part.ctl.mode = .start ∧ (after base (.softReset 1)).part.now = 1000 ∧
    ((after base (.softReset 1)).part.rec? 5).isSome = true := by decide +kernel
theorem test_getStatus : answer base (.getStatus 1) = some (.ok, false) := by decide +kernel
theorem test_getStatusClear :
    (after { base with notices := { base.notices with lost := true } } (.getStatusClear 1)).notices.lost = false := by
  decide +kernel
theorem test_queryLocation : answer base (.queryLocation 1 969) = some (.ok, false) ∧
    answer base (.queryLocation 1 970) = some (.badIndex, false) := by decide +kernel
/-- R48 by hand: 30 + 60 s × 20 = 1230 sixtieths, so E rises by 20 and E_frac stays 30. -/
theorem test_queryReticle_settles : ((after base (.queryReticle 1 (.byId (idOf 1)))).part.rec? 6).map
    (fun r => (r.e, r.frac, r.stamp)) = some (120, 30, some 1000) := by decide +kernel
theorem test_queryZone : answer base (.queryZone 1 15) = some (.ok, false) ∧
    answer base (.queryZone 1 16) = some (.badIndex, false) := by decide +kernel
theorem test_queryJob : answer withJob (.queryJob 1 15) = some (.ok, false) ∧
    answer base (.queryJob 1 15) = some (.wrongState, false) := by decide +kernel
theorem test_queryPort : answer base (.queryPort 1 8) = some (.badIndex, false) := by decide +kernel
theorem test_queryMove : answer (withMove move20) (.queryMove 1 (.next 6)) = some (.ok, false) ∧
    answer (withMove move20) (.queryMove 1 (.next 7)) = some (.wrongState, false) := by decide +kernel
theorem test_queryRobot : answer base (.queryRobot 1 2) = some (.badIndex, false) := by decide +kernel
theorem test_queryWatch : answer (inMode .start) (.queryWatch 1) = some (.ok, false) := by decide +kernel
theorem test_queryNode : answer base (.queryNode 1 0) = some (.badIndex, false) ∧
    answer base (.queryNode 1 63) = some (.ok, false) := by decide +kernel
/-- A record declared into a slot of a zone with no purge is unprotected: stamped at once, not verified (R25, R46). -/
theorem test_declare : (after base (.declare 1 (idOf 2) 1 7 (.given 5000) 0)).part.occ 0 = .occupied 0 false ∧
    ((after base (.declare 1 (idOf 2) 1 7 (.given 5000) 0)).part.rec? 0).map (fun r => (r.kind, r.stamp, r.exposure)) =
      some (3, some 1000, true) := by decide +kernel
theorem test_declare_duplicate : answer base (.declare 1 (idOf 0) 1 0 .absent 0) = some (.duplicateId, false) := by
  decide +kernel
theorem test_retire : (after base (.retire 1 (idOf 1))).part.rec? 6 = none ∧
    answer base (.retire 1 (idOf 0)) = some (.wrongState, false) := by decide +kernel
theorem test_hold : ((after base (.hold 1 (idOf 0))).part.rec? 5).map (·.operator) = some true := by decide +kernel
theorem test_unhold : ((after (after base (.hold 1 (idOf 0))) (.unhold 2 (idOf 0) .absent)).part.rec? 5).map (·.operator) =
    some false ∧ answer base (.unhold 1 (idOf 0) (.given 1)) = some (.badRequest, false) := by decide +kernel
/-- A slot with a flag set, and the same after CLEAR_FAULT (R11, R13). -/
def flagged : State := withPart fun c => c.putFlags 487 ⟨true, false, false⟩
theorem test_clearFault : (after flagged (.clearFault 1 (some 487))).part.flagsOf 487 = SlotFlags.clear ∧
    (after flagged (.queryWatch 1)).status.slotFaults[8]? = some true := by decide +kernel
theorem test_clearFaultZone : answer base (.clearFaultZone 1 16) = some (.badIndex, false) := by decide +kernel
/-- The first scan of the range is admitted at once and waits for its robot, or is granted (R36, R37). -/
theorem test_scanRange : (after base (.scanRange 1 958 2)).part.inv.cursor = ⟨true, 958, 2, 959, 1, 1⟩ ∧
    answer base (.scanRange 1 959 2) = some (.badLength, false) := by decide +kernel
theorem test_cancelScan : (after scanningState (.cancelScan 1)).part.inv.cursor.active = false := by decide +kernel
theorem test_setExposure : ((after (inMode .maintenance) (.setExposure 1 (idOf 0) 5000)).part.rec? 5).map
    (fun r => (r.e, r.frac, r.exposure)) = some (5000, 0, true) ∧
    answer base (.setExposure 1 (idOf 0) 5000) = some (.wrongMode, false) := by decide +kernel
/-- The worked delivery: the job is activated in the event of its request, its head step left PENDING (R89). -/
theorem test_deliver : ((after base (.deliver 1 4 [⟨idOf 0, 60⟩] ⟨false, false, none⟩)).part.job? 0).map
    (fun r => (r.active, r.steps.map (·.state))) = some (true, [.pending]) ∧
    answer base (.deliver 1 4 [⟨idOf 0, 1024⟩] ⟨false, true, none⟩) = some (.clamped, true) := by decide +kernel
/-- RETURN is for a DIRECTED port (R88). -/
theorem test_returnJob : answer base (.returnJob 1 7 [⟨.any, none⟩] ⟨true, false, none⟩) = some (.ok, false) ∧
    answer base (.returnJob 1 4 [⟨.any, none⟩] ⟨true, false, none⟩) = some (.wrongState, false) := by decide +kernel
theorem test_cancelJob : (after withJob (.cancelJob 1 15)).part.job? 15 = none ∧
    answer base (.cancelJob 1 16) = some (.badIndex, false) := by decide +kernel
theorem test_maskPort : ((after base (.maskPort 1 7)).part.port 7).masked = true := by decide +kernel
theorem test_unmaskPort : ((after (after base (.maskPort 1 7)) (.unmaskPort 2 7)).part.port 7).masked = false := by
  decide +kernel
/-- Slot 488 lies in the span of slot 487: robot A is granted the move over 4..9 and its source is OUTBOUND (R117, R121). -/
theorem test_relocate : ((after base (.relocate 1 (idOf 0) (.slot 488))).part.robot .a).held = some (4, 9) ∧
    (after base (.relocate 1 (idOf 0) (.slot 488))).part.occ 487 = .outbound 5 true := by decide +kernel
theorem test_recoverRobot : ((after (suspectA false) (.recoverRobot 1 0)).part.robot .a).awaited = true ∧
    answer (suspectA true) (.recoverRobot 1 0) = some (.busy, false) := by decide +kernel
/-- A range base is aligned to its length (R139). -/
theorem test_setWatch : (after base (.setWatch 1 3 ⟨1, idOf 0, 13, 8, 0, 2, 1, 0⟩)).part.watch.entries[3]? =
    some ⟨.range 8 8, .both, .global, false⟩ := by decide +kernel
theorem test_releaseMove : answer (move255 .held) (.releaseMove 1 255) = some (.ok, false) ∧
    answer (move255 .dispatched) (.releaseMove 1 255) = some (.notHeld, false) := by decide +kernel
theorem test_cancelMove : (after (move255 .held) (.cancelMove 1 255)).part.mv.moves = [] ∧
    answer (move255 .dispatched) (.cancelMove 1 255) = some (.wrongState, false) := by decide +kernel
theorem test_clearWatchFlags : (after (withPart fun c => { c with watch := { c.watch with lastHold := some 3 } })
    (.clearWatchFlags 1)).part.watch.lastHold = none := by decide +kernel
theorem test_busReset : (after base (.busReset 1)).part.bus.enum.isSome = true ∧
    answer enumerating (.busReset 1) = some (.busy, false) := by decide +kernel

/-! ### The load window, the image and the modes -/

theorem test_loadOpen : answer withWindow (.loadOpen 1 0) = some (.windowBusy, false) ∧
    answer base (.loadOpen 1 7) = some (.badIndex, false) := by decide +kernel
/-- PURGE_CREDIT 5000 is clamped to 4095 (R50). -/
theorem test_loadEntry : answer withWindow (.loadEntry 1 3 0 [4#8, 0x13#8, 0x88#8]) = some (.clamped, false) ∧
    answer withWindow (.loadEntry 1 3 4 [4#8, 0#8, 0#8]) = some (.badIndex, false) := by decide +kernel
theorem test_loadCommit : (after withWindow (.loadCommit 1 3)).part.gens = [0, 0, 0, 1, 0, 0, 0] ∧
    answer withBadShadow (.loadCommit 1 0) = some (.commitRefused, false) := by decide +kernel
theorem test_loadDiscard : (after withWindow (.loadDiscard 1)).part.window = none := by decide +kernel
theorem test_storeImage : (after base (.storeImage 1)).image.writing.isSome = true ∧
    answer writing (.storeImage 1) = some (.busy, false) := by decide +kernel
theorem test_reloadImage : answer (inMode .maintenance) (.reloadImage 1) = some (.wrongState, false) ∧
    (after (inMode .maintenance) (.reloadImage 1)).part.ctl.imageBad = true := by decide +kernel
theorem test_restoreDefaults : answer base (.restoreDefaults 1) = some (.wrongMode, false) := by decide +kernel
theorem test_enterMaintenance : (after base (.enterMaintenance 1)).part.ctl.mode = .maintenance := by decide +kernel
theorem test_exitMaintenance : (after (inMode .maintenance) (.exitMaintenance 1)).part.ctl.mode = .normal := by
  decide +kernel
/-- Zone 8 is required and not marked, so the entry waits for its pass, which is issued at once (R67, R77, R180). -/
theorem test_enterStandalone : (after base (.enterStandalone 1)).part.ctl.pending = true ∧
    ((after base (.enterStandalone 1)).part.zone 8).pass.isSome = true := by decide +kernel
theorem test_exitStandalone : (after (inMode .standalone) (.exitStandalone 1 1)).part.ctl.mode = .normal ∧
    answer base (.exitStandalone 1 1) = some (.wrongMode, false) := by decide +kernel
/-- A BUSY robot is SUSPECT after the entry, its hand UNKNOWN and its reticle IN_DOUBT (R136, R184). -/
theorem test_forceFailSafe : ((after moving (.forceFailSafe 1)).part.robot .a).state = .suspect ∧
    ((after moving (.forceFailSafe 1)).part.rec? 5).map (·.state) = some .inDoubt := by decide +kernel
theorem test_exitFailSafe : (after (inMode .failSafe) (.exitFailSafe 1)).part.ctl.mode = .maintenance ∧
    answer (after (inMode .failSafe) (.interlockLineChange .stop true)) (.exitFailSafe 1) = some (.interlockActive, false) := by
  decide +kernel

/-! ### Frames -/

theorem test_unknownRequest : answer base (.unknownRequest 1 0xFF) = some (.badRequest, false) := by decide +kernel
theorem test_passThroughMoveLeg : (after base (.passThroughMoveLeg 9 1 487 964 0)).part.mv.moves.map (·.owner) = [.pass 9] ∧
    answer base (.passThroughMoveLeg 9 64 487 964 0) = some (.badIndex, false) := by decide +kernel
theorem test_passThroughOrder : answer base (.passThroughOrder 9 1 0x14 []) = some (.filtered, false) ∧
    answer base (.passThroughOrder 9 1 0x15 []) = some (.ok, false) := by decide +kernel
theorem test_frameCheckFailed : (after base .frameCheckFailed).link.error = true := by decide +kernel
theorem test_replyOverrun : (after (owing 4) .replyOverrun).link.error = true ∧ after base .replyOverrun = base := by
  decide +kernel
theorem test_lineSignalUp : (after State.reset .lineSignalUp).link.state = .hunt := by decide +kernel
theorem test_lineSignalLost : (after (owing 2) .lineSignalLost).owed = [] := by decide +kernel
theorem test_abortSymbol : after base .abortSymbol = base := by decide +kernel
theorem test_abortResync : (after base .abortResync).link.state = .hunt := by decide +kernel
theorem test_frameTransmitted : (after (after (owing 3) .frameTransmitted) .frameTransmitted).link.replies.length = 1 := by
  decide +kernel
/-- The check values of the two polynomials over the digits 1 to 9, as published for CRC-16 with initial value FFFFh and
CRC-32 with initial value FFFFFFFFh, most significant bit first and not inverted. -/
def digits : List Byte := [0x31#8, 0x32#8, 0x33#8, 0x34#8, 0x35#8, 0x36#8, 0x37#8, 0x38#8, 0x39#8]
theorem test_crc : crc16 digits = 0x29B1#16 ∧ crc32 digits = 0x0376E6E7#32 := by decide +kernel
/-- A CLEAR_FAULT of zone 15 with tag 5, byte by byte from R192 and 11_formats.md. -/
theorem test_frame : (upFrame 0 0 5 0x14 0 0 [1#8, 15#8]).take 10 =
    [0#8, 0#8, 5#8, 0x14#8, 0#8, 0#8, 0#8, 2#8, 1#8, 15#8] ∧
    commandOf (upFrame 0 0 5 0x14 0 0 [1#8, 15#8]) = .clearFaultZone 5 15 ∧
    commandOf [0#8, 0#8, 5#8] = .frameCheckFailed := by decide +kernel

/-! ### Events -/

/-- An IDLE machine's silence timer expires with STANDALONE_ON_SILENCE no: LINK_SILENT and nothing else (R181). -/
theorem test_linkSilenceExpiry : (after base .linkSilenceExpiry).noticed.map (·.subject) = [.linkSilent] ∧
    (after base .linkSilenceExpiry).part.now = 1030 := by decide +kernel
/-- READY acknowledged in the worked delivery: the step is RESERVED, its move granted, record 5 IN_TRANSIT (R94, R121). -/
def polled (s : State) (a : Nat) : State :=
  { s with part := { s.part with bus := { s.part.bus with exchange := some (.poll a) } } }
theorem test_exchangeAnswered_ready :
    let s := after base (.deliver 1 4 [⟨idOf 0, 60⟩] ⟨false, false, none⟩)
    ((after (polled s 3) (.exchangeAnswered ⟨true, .none, .serviceRequest .ready⟩)).part.rec? 5).map (·.state) =
      some .inTransit := by decide +kernel
/-- The clean pick of the worked delivery stamps the reticle (R123). -/
theorem test_exchangeAnswered_picked :
    ((after (polled moving 1) (.exchangeAnswered ⟨true, .none, .picked 20 (.id (idOf 0)) 1⟩)).part.rec? 5).map
      (fun r => (r.place, r.stamp)) = some (.loc 968, some 1000) := by decide +kernel
theorem test_exchangeUnanswered :
    ((after (exchanging (.poll 1) 2) .exchangeUnanswered).part.node? 1).map (·.state) = some .lost ∧
    ((after (exchanging (.poll 1) 2) .exchangeUnanswered).part.robot .a).state = .lost := by decide +kernel
/-- No planned node is lost, so the timer does not run on (R159). -/
theorem test_rollRetryExpiry : (after timing .rollRetryExpiry).part.now = 1010 ∧
    (after timing .rollRetryExpiry).part.bus.retry = none := by decide +kernel
theorem test_moveTimeoutExpiry : ((after moving (.moveTimeoutExpiry 20)).part.robot .a).state = .suspect ∧
    (after moving (.moveTimeoutExpiry 20)).part.now = 1120 := by decide +kernel
theorem test_yieldExpiry : ((after timing (.yieldExpiry .b)).part.robot .b).state = .suspect := by decide +kernel
/-- The pass fails on TIMEOUT: its count is 1 and its flag set (R72). -/
theorem test_passTimerExpiry : ((after timing (.passTimerExpiry 8)).part.zone 8).failures = 1 ∧
    ((after timing (.passTimerExpiry 8)).part.zone 8).failedFlag = true := by decide +kernel
/-- B falls by one, and the timer runs on by 20 minutes (R63). -/
theorem test_intervalExpiry : ((after base (.intervalExpiry 8)).part.zone 8).b = -1 ∧
    ((after base (.intervalExpiry 8)).part.zone 8).timer = some 6200 := by decide +kernel
theorem test_stepWaitExpiry : (after timing (.stepWaitExpiry 15)).part.job? 15 = none := by decide +kernel
theorem test_imageWriteDone : (after writing (.imageWriteDone false)).part.ctl.imageBad = true ∧
    (after writing (.imageWriteDone false)).image.writing = none := by decide +kernel
theorem test_interlockLineChange : (after base (.interlockLineChange .stop true)).part.ctl.mode = .failSafe ∧
    (after base (.interlockLineChange .stop true)).part.ctl.fault = true := by decide +kernel

end Sys2Proof.Tests
end

section
/-! SUPPORT. Whole commands: what every write of the blocks keeps, every command and every step keeps too. -/

namespace Sys2Proof.Machine

/-! ### The taking of a request -/

section Answers

variable {R : Part → Prop} {s : State}

theorem State.accept_keeps {p : Part} {b : Body} (h : R p) : R (s.accept p b).1.part := h

theorem State.need_keeps {ok : Bool} {r : Result} {k : State × Rsp} (h : R s.part) (hk : ok = true → R k.1.part) :
    R (s.need ok r k).1.part := by
  unfold State.need
  split
  · exact hk ‹_›
  · exact h

theorem State.notInStart_keeps {k : State → State × Rsp} (h : R s.part) (hk : R (k s).1.part) :
    R (s.notInStart k).1.part := by
  unfold State.notInStart
  split
  · exact h
  · exact hk

theorem State.inService_keeps {k : State → State × Rsp} (h : R s.part) (hk : R (k s).1.part) :
    R (s.inService k).1.part := by
  unfold State.inService
  split
  · exact hk
  · exact h

theorem State.inMode_keeps {m : Mode} {k : State → State × Rsp} (h : R s.part) (hk : R (k s).1.part) :
    R (s.inMode m k).1.part := by
  unfold State.inMode
  split
  · exact hk
  · exact h

theorem State.named_keeps {id : RetId} {k : Nat → Rec → State × Rsp} (h : R s.part) (hk : ∀ n r, R (k n r).1.part) :
    R (s.named id k).1.part := by
  unfold State.named
  split
  · split
    · exact hk _ _
    · exact h
  · exact h

theorem State.tableNamed_keeps {code : Nat} {k : TableId → State × Rsp} (h : R s.part) (hk : ∀ t, R (k t).1.part) :
    R (s.tableNamed code k).1.part := by
  unfold State.tableNamed
  split
  · exact hk _
  · exact h

theorem State.windowMode_keeps {t : TableId} {k : State × Rsp} (h : R s.part) (hk : R k.1.part) :
    R (s.windowMode t k).1.part := State.need_keeps h fun _ => hk

/-- The job a DELIVER or RETURN creates stands in a pool and at a port that have room for it (R87, R88). -/
theorem Kept.takeJob (K : Kept R) {p : Nat} {k : JobKind} {steps : List Step} {f : JobFlags} {res : Result}
    (h : R s.part) : R (s.takeJob p k steps f res).1.part := by
  refine State.need_keeps h fun _ => ?_
  split
  · exact h
  · exact State.need_keeps h fun hp => K.addJob ‹_› (by simpa using hp) h

theorem Kept0.linkFault (K : Kept0 R) {overrun : Bool} (h : R s.part) : R (s.linkFault overrun).part := by
  unfold State.linkFault
  split
  · exact h
  · exact K.say h

theorem Kept.passLeg (K : Kept R) {tag addr src dst kind : Nat} (h : R s.part) :
    R (s.passLeg tag addr src dst kind).1.part := by
  refine State.need_keeps h fun _ => ?_
  split
  · exact h
  · exact K.admitAsk h ‹_›

theorem Kept.passQueue (K : Kept R) {tag addr : Nat} {o : Order} (h : R s.part) : R (s.passQueue tag addr o).1.part := by
  unfold State.passQueue
  split
  · exact h
  · exact State.need_keeps h fun _ => State.accept_keeps (K.queueOrder h)

theorem KeptAll.restore (K : KeptAll R) {t : Tables} {c : Part} (h : R c) : R (s.restore t c).1.part := by
  unfold State.restore
  split
  · exact h
  · exact K.commitAll h

theorem KeptAll.warmStartState (K : KeptAll R) {written : Option Bool} (h : R s.part) : R (s.warmStart written).part := by
  unfold State.warmStart
  simp only [State.flush_part]
  exact K.say (K.out (K.warmStart h))

end Answers

/-- A place a DECLARE may name holds no record (R25). -/
theorem Part.declareBar_free {c : Part} {p : Place} (h : c.declareBar p = none) (l : Nat) (hp : p = .loc l) :
    (c.occ l).resident = none := by
  subst hp
  simp only [Part.declareBar, ite_eq_left_iff, reduceCtorEq, imp_false, not_not] at h
  rcases h.1 with e | e <;> rw [e] <;> rfl

/-! ### Every command -/

section Commands

variable {R : Part → Prop} (K : KeptAll R) {s t : State}
include K

theorem KeptAll.declareCmd {tag : Nat} {id : RetId} {cls kind : Nat} {e : OptArg Nat} {loc : Nat} (h : R s.part)
    (he : execDeclare tag id cls kind e loc s = .next t) : R t.part := by
  cases he
  refine K.request h fun s h => State.inService_keeps h (State.need_keeps h fun _ => State.need_keeps h fun hi => ?_)
  split
  · exact h
  · exact h
  · split
    · exact h
    · exact K.declare ‹_› (by simpa using hi) (Part.declareBar_free ‹_›) h

theorem KeptAll.relocateCmd {tag : Nat} {id : RetId} {dest : Dest} (h : R s.part)
    (he : execRelocate tag id dest s = .next t) : R t.part := by
  cases he
  refine K.request h fun s h => State.inService_keeps h (State.named_keeps h fun n r => State.need_keeps h fun _ =>
    State.need_keeps h fun _ => ?_)
  repeat' split
  · exact h
  · exact K.updRec (fun r => ⟨r.relocating_id, r.relocating_place⟩) (K.admitAsk h ‹_›)
  · exact h

theorem KeptAll.loadEntryCmd {tag table index : Nat} {entry : List Byte} (h : R s.part)
    (he : execLoadEntry tag table index entry s = .next t) : R t.part := by
  cases he
  refine K.request h fun s h => State.need_keeps h fun _ => State.notInStart_keeps h (State.tableNamed_keeps h fun _ =>
    State.windowMode_keeps h ?_)
  split
  · exact h
  · refine State.need_keeps h fun _ => ?_
    split
    · exact h
    · exact K.window h

theorem KeptAll.loadCommitCmd {tag table : Nat} (h : R s.part) (he : execLoadCommit tag table s = .next t) : R t.part := by
  cases he
  refine K.request h fun s h => State.notInStart_keeps h (State.tableNamed_keeps h fun _ => ?_)
  split
  · exact h
  · refine State.need_keeps h fun _ => State.need_keeps h fun _ => ?_
    split
    · exact h
    · exact K.commit (K.window h)

theorem KeptAll.imageWriteDoneCmd {ok : Bool} (h : R s.part) (he : execImageWriteDone ok s = .next t) : R t.part := by
  cases he
  split
  · exact h
  · rename_i copy _
    have h1 : R (s.part.imageWritten copy.2 ok) := K.say (K.setImageBad h)
    dsimp only
    split
    · exact K.finish (K.warmStartState h1)
    · exact K.finish h1

theorem KeptAll.linkSilenceExpiryCmd (h : R s.part) (he : execLinkSilenceExpiry s = .next t) : R t.part := by
  cases he
  split
  · exact h
  · exact K.run (K.linkSilence (K.reach h))

/-- Every command keeps what every write of the blocks keeps and a cold start gives. -/
theorem KeptAll.exec {i : Instr} (hcold : ∀ image e p, R (Part.coldStart image e p)) (h : R s.part)
    (he : exec i s = .next t) : R t.part := by
  cases i with
  | coldStart e p =>
    cases he
    exact K.finish (hcold _ _ _)
  | softReset tag =>
    cases he
    refine K.request h fun s h => State.notInStart_keeps h ?_
    split
    · exact h
    · exact K.warmStartState h
  | getStatus tag => cases he; exact K.query h
  | getStatusClear tag =>
    cases he
    split
    · exact h
    · split
      · exact K.overrun h
      · rw [State.transmit_part]; exact K.ctl h
  | queryLocation tag l => cases he; exact K.query h
  | queryReticle tag sel =>
    cases he
    refine K.request h fun s h => ?_
    split
    · exact h
    · dsimp only
      split
      · exact K.settle h
      · exact h
  | queryZone tag z => cases he; exact K.query h
  | queryJob tag j => cases he; exact K.query h
  | queryPort tag p => cases he; exact K.query h
  | queryMove tag sel => cases he; exact K.query h
  | queryRobot tag n => cases he; exact K.query h
  | queryWatch tag => cases he; exact K.query h
  | queryNode tag a => cases he; exact K.query h
  | declare tag id cls kind e loc => exact K.declareCmd h he
  | retire tag id =>
    cases he
    exact K.request h fun s h => State.inService_keeps h (State.named_keeps h fun _ _ => State.need_keeps h fun _ =>
      State.accept_keeps (K.retire h))
  | hold tag id =>
    cases he
    exact K.request h fun s h => State.notInStart_keeps h (State.named_keeps h fun _ _ => State.accept_keeps (K.addHold h))
  | unhold tag id reason =>
    cases he
    refine K.request h fun s h => State.notInStart_keeps h (State.named_keeps h fun _ _ => ?_)
    split
    · exact h
    · exact K.clearHold h
  | clearFault tag slot =>
    cases he
    refine K.request h fun s h => State.notInStart_keeps h ?_
    split
    · exact h
    · exact State.need_keeps h fun _ => State.accept_keeps (K.clearSlot h)
  | clearFaultZone tag z =>
    cases he
    exact K.request h fun s h => State.notInStart_keeps h (State.need_keeps h fun _ => State.accept_keeps
      (K.updZone ⟨fun b => ⟨b.1, b.2.1, Nat.zero_le _⟩, id⟩ h))
  | scanRange tag first count =>
    cases he
    exact K.request h fun s h => State.inService_keeps h (State.need_keeps h fun _ => State.need_keeps h fun _ =>
      State.need_keeps h fun _ => State.accept_keeps (K.setCursor h))
  | cancelScan tag =>
    cases he
    exact K.request h fun s h => State.notInStart_keeps h (State.accept_keeps (K.cancelScan h))
  | setExposure tag id e =>
    cases he
    exact K.request h fun s h => State.inMode_keeps h (State.named_keeps h fun _ _ => State.accept_keeps
      (K.writeExposure h))
  | deliver tag port steps flags =>
    cases he
    refine K.request h fun s h => State.inService_keeps h (State.need_keeps h fun _ => State.need_keeps h fun _ =>
      State.need_keeps h fun _ => State.need_keeps h fun _ => ?_)
    split
    · exact h
    · exact K.takeJob h
  | returnJob tag port steps flags =>
    cases he
    exact K.request h fun s h => State.inService_keeps h (State.need_keeps h fun _ => State.need_keeps h fun _ =>
      State.need_keeps h fun _ => State.need_keeps h fun _ => State.need_keeps h fun _ => State.need_keeps h fun _ =>
      K.takeJob h)
  | cancelJob tag j =>
    cases he
    refine K.request h fun s h => State.notInStart_keeps h (State.need_keeps h fun _ => ?_)
    split
    · exact h
    · exact K.cancelJob h
  | maskPort tag port =>
    cases he
    exact K.request h fun s h => State.notInStart_keeps h (State.need_keeps h fun _ => State.accept_keeps (K.putPort h))
  | unmaskPort tag port =>
    cases he
    exact K.request h fun s h => State.notInStart_keeps h (State.need_keeps h fun _ => State.accept_keeps (K.unmask h))
  | relocate tag id dest => exact K.relocateCmd h he
  | recoverRobot tag robot =>
    cases he
    refine K.request h fun s h => State.inService_keeps h ?_
    split
    · exact h
    · exact State.need_keeps h fun _ => State.need_keeps h fun _ => State.accept_keeps (K.askHand h)
  | setWatch tag index args =>
    cases he
    refine K.request h fun s h => State.inService_keeps h (State.need_keeps h fun _ => State.need_keeps h fun _ => ?_)
    split
    · exact h
    · split
      · exact h
      · exact K.setWatchEntry h
  | releaseMove tag move =>
    cases he
    refine K.request h fun s h => State.inService_keeps h (State.need_keeps h fun _ => ?_)
    split
    · exact h
    · exact State.need_keeps h fun _ => State.accept_keeps (K.putMove h)
  | cancelMove tag move =>
    cases he
    refine K.request h fun s h => State.inService_keeps h (State.need_keeps h fun _ => ?_)
    split
    · exact h
    · exact State.need_keeps h fun _ => State.accept_keeps (K.cancelMove h)
  | clearWatchFlags tag =>
    cases he
    exact K.request h fun s h => State.inService_keeps h (State.accept_keeps (K.watch h))
  | busReset tag =>
    cases he
    exact K.request h fun s h => State.inService_keeps h (State.need_keeps h fun _ => State.accept_keeps (K.busReset h))
  | loadOpen tag table =>
    cases he
    exact K.request h fun s h => State.notInStart_keeps h (State.tableNamed_keeps h fun _ => State.windowMode_keeps h
      (State.need_keeps h fun _ => State.accept_keeps (K.openWindow h)))
  | loadEntry tag table index entry => exact K.loadEntryCmd h he
  | loadCommit tag table => exact K.loadCommitCmd h he
  | loadDiscard tag =>
    cases he
    exact K.request h fun s h => State.notInStart_keeps h (State.accept_keeps (K.window h))
  | storeImage tag =>
    cases he
    exact K.request h fun s h => State.inService_keeps h (State.need_keeps h fun _ => h)
  | reloadImage tag =>
    cases he
    refine K.request h fun s h => State.inMode_keeps h (State.need_keeps h fun _ => State.need_keeps h fun _ => ?_)
    split
    · exact K.restore (K.setImageBad h)
    · exact K.setImageBad h
  | restoreDefaults tag =>
    cases he
    exact K.request h fun s h => State.inMode_keeps h (State.need_keeps h fun _ => State.need_keeps h fun _ => K.restore h)
  | enterMaintenance tag =>
    cases he
    exact K.request h fun s h => State.inMode_keeps h (State.accept_keeps (K.resume (K.setMode h)))
  | exitMaintenance tag =>
    cases he
    exact K.request h fun s h => State.inMode_keeps h (State.accept_keeps (K.resume (K.setMode h)))
  | enterStandalone tag =>
    cases he
    exact K.request h fun s h => State.need_keeps h fun _ => State.need_keeps h fun _ => State.accept_keeps
      (K.beginStandalone h)
  | exitStandalone tag abort =>
    cases he
    exact K.request h fun s h => State.inMode_keeps h (State.need_keeps h fun _ => State.accept_keeps
      (K.leaveStandalone h))
  | forceFailSafe tag =>
    cases he
    exact K.request h fun s h => State.inService_keeps h (State.accept_keeps (K.enterFailSafe h))
  | exitFailSafe tag =>
    cases he
    exact K.request h fun s h => State.inMode_keeps h (State.need_keeps h fun _ => State.accept_keeps (K.leaveFailSafe h))
  | unknownRequest tag kind => cases he; exact K.request h fun s h => h
  | passThroughMoveLeg tag addr src dst kind =>
    cases he
    refine K.request h fun s h => ?_
    split
    · exact h
    · exact K.passLeg h
  | passThroughOrder tag addr kind payload =>
    cases he
    refine K.request h fun s h => ?_
    split
    · exact h
    · split
      · exact State.need_keeps h fun _ => K.passLeg h
      · split
        · exact h
        · exact K.passQueue h
  | frameCheckFailed =>
    cases he
    split
    · exact K.finish (K.linkFault h)
    · exact h
  | replyOverrun =>
    cases he
    split
    · exact h
    · split
      · exact K.overrun h
      · exact h
  | lineSignalUp =>
    cases he
    split
    · rw [State.transmit_part]; exact h
    · exact h
  | lineSignalLost => cases he; exact h
  | abortSymbol => cases he; exact h
  | abortResync => cases he; rw [State.transmit_part]; exact h
  | frameTransmitted => cases he; rw [State.transmit_part]; exact h
  | linkSilenceExpiry => exact K.linkSilenceExpiryCmd h he
  | exchangeAnswered answer => cases he; exact K.run (K.answered h)
  | exchangeUnanswered => cases he; exact K.run (K.unanswered h)
  | rollRetryExpiry => cases he; exact K.run (K.retryExpired h)
  | moveTimeoutExpiry move => cases he; exact K.run (K.moveTimedOut h)
  | yieldExpiry robot => cases he; exact K.run (K.yieldExpired h)
  | passTimerExpiry zone => cases he; exact K.run (K.passExpired h)
  | intervalExpiry zone => cases he; exact K.run (K.intervalExpired h)
  | stepWaitExpiry job => cases he; exact K.run (K.stepWaitExpired h)
  | imageWriteDone ok => exact K.imageWriteDoneCmd h he
  | interlockLineChange line active => cases he; exact K.run (K.lineChange h)

/-- Every step keeps what every write of the blocks keeps and a cold start gives. -/
theorem KeptAll.step (hcold : ∀ image e p, R (Part.coldStart image e p)) (h : R s.part) (he : step s = .next t) :
    R t.part := by
  unfold Machine.step at he
  split at he
  · rename_i rest _
    exact K.exec (s := { s with pending := rest }) hcold h he
  · cases he
    exact K.now (Nat.le_succ _) h

end Commands

end Sys2Proof.Machine
end

section
/-! SUPPORT. The blocks right after power-on: the tables a start makes live are in canonical form, and both the Location
Table and the Reticle Table are empty. -/

namespace Sys2Proof.Machine

/-! ### The tables of an image -/

/-- A table read from an image lists numbers from `base` up, in rising order, and no default. -/
theorem readTable_wf {α : Type} [DecidableEq α] (d : α) (read : List Byte → α) (base n w : Nat) (b : List Byte) :
    Store.wf d (readTable d read base n w b) = true := by
  unfold readTable
  suffices key : ∀ l : List Nat, l.Pairwise (· < ·) →
      let t : Store α := l.foldr (fun i t =>
        let e := read ((b.drop (i * w)).take w)
        if e = d then t else (base + i, e) :: t) []
      Store.wf d t = true ∧ ∀ e ∈ t, ∃ i ∈ l, e.1 = base + i from (key _ List.pairwise_lt_range).1
  intro l
  induction l with
  | nil => intro _; exact ⟨rfl, by simp⟩
  | cons i l ih =>
    intro hl
    obtain ⟨hi, hl⟩ := List.pairwise_cons.1 hl
    obtain ⟨h1, h2⟩ := ih hl
    simp only [List.foldr_cons]
    split
    · exact ⟨h1, fun e he => (h2 e he).imp fun _ h => ⟨List.mem_cons_of_mem _ h.1, h.2⟩⟩
    · rename_i hd
      simp only [Store.wf, Bool.and_eq_true, List.all_eq_true, decide_eq_true_eq] at h1 ⊢
      refine ⟨⟨(Store.rising_cons _ _).2 ⟨fun k v hkv => ?_, h1.1⟩, fun e he => ?_⟩, fun e he => ?_⟩
      · obtain ⟨j, hj, e⟩ := h2 _ hkv
        have := hi j hj
        dsimp only at e ⊢
        omega
      · rcases List.mem_cons.1 he with rfl | he
        · exact hd
        · exact h1.2 e he
      · rcases List.mem_cons.1 he with rfl | he
        · exact ⟨i, by simp, rfl⟩
        · exact (h2 e he).imp fun _ h => ⟨List.mem_cons_of_mem _ h.1, h.2⟩

theorem Store.rising_of_wf {α : Type} [DecidableEq α] {d : α} {m : Store α} (h : Store.wf d m = true) :
    Store.rising m = true := by
  unfold Store.wf at h
  exact (Bool.and_eq_true _ _ ▸ h).1

/-- The zone table and the node plan that a start makes live are in rising order. -/
theorem startTables_rising (b : List Byte) :
    Store.rising (startTables b).1.zone.zones = true ∧ Store.rising (startTables b).1.plan = true := by
  unfold startTables
  split
  · exact ⟨Store.rising_of_wf (readTable_wf ZoneCfg.default _ _ _ _ _),
      Store.rising_of_wf (readTable_wf PlanEntry.default
        (fun e => (PlanEntry.decode e).getD PlanEntry.default) 1 63 4 _)⟩
  · exact ⟨rfl, rfl⟩

/-! ### The blocks at power-on -/

theorem coldZones_wf {t : ZoneTable} (h : Store.rising t.zones = true) : Store.wf Zone.cold (coldZones t) = true := by
  unfold Store.wf coldZones
  rw [Bool.and_eq_true, List.all_eq_true]
  refine ⟨Store.rising_map (Store.rising_filter h _) _ fun _ => rfl, fun e he => ?_⟩
  obtain ⟨k, -, rfl⟩ := List.mem_map.1 he
  simp [Zone.cold]

/-- The blocks at power-on are sound, whatever tables of canonical form a start makes live. -/
theorem Part.coldWith_sound {t : Tables} {gens : List Nat} {bad : Bool} (hz : Store.rising t.zone.zones = true)
    (hp : Store.rising t.plan = true) : (Part.coldWith t gens bad).sound := by
  refine ⟨by simp [Part.recordsSound, Part.coldWith, Store.rising], by simp [Part.movesSound, Part.coldWith],
    fun e he => ?_, by simp [Part.jobsSound, Part.jobsAt, Part.coldWith],
    rfl, rfl, rfl, coldZones_wf hz, rfl, rfl, Store.rising_map (Store.rising_filter hp _) _ fun _ => rfl⟩
  obtain ⟨k, -, rfl⟩ := List.mem_map.1 he
  exact Zone.cold_bounded

theorem Part.coldWith_accords {t : Tables} {gens : List Nat} {bad : Bool} (hz : Store.rising t.zone.zones = true)
    (hp : Store.rising t.plan = true) : (Part.coldWith t gens bad).accords :=
  ⟨Part.coldWith_sound hz hp, fun _ _ => ⟨fun ⟨_, hr, _⟩ => (nomatch hr), nofun⟩⟩

/-- What the blocks hold at power-on and every write keeps, they hold after a cold start. -/
theorem KeptCtl.coldStartOf {R : Part → Prop} (K : KeptCtl R) {image : List Byte} {e p : Bool}
    (h : R (Part.coldWith (startTables image).1 (startTables image).2.1 (startTables image).2.2)) :
    R (Part.coldStart image e p) := K.beginEnum (K.lineChange (K.lineChange h))

theorem Part.coldStart_accords (image : List Byte) (e p : Bool) : (Part.coldStart image e p).accords :=
  kept_accords.coldStartOf (Part.coldWith_accords (startTables_rising image).1 (startTables_rising image).2)

end Sys2Proof.Machine
end

section
open Sys2Proof Sys2Proof.Machine

/-- Settles O6: both tables, sound and in agreement, are kept by every write of the blocks (`kept_accords`), and so by
every step. -/
theorem agreementKept : Obligations.AgreementKept := by
  intro s t hs ha he
  exact (kept_accords.step Part.coldStart_accords ⟨hs, ha⟩ he).2
end

section
/-! SUPPORT. The FAULT summary (R13): every event that the blocks take part in ends by setting it, and what ends without
them leaves its conditions as they were. -/

namespace Sys2Proof.Machine

variable {s : State}

/-- At the end of an event FAULT stands exactly while one of its conditions does (R13). -/
theorem State.finish_faultSound (s : State) : s.finish.faultSound := by
  unfold State.faultSound
  rw [State.finish_part]
  rfl

theorem State.faultSound.of_part {t : State} (h : s.faultSound) (e : t.part = s.part) : t.faultSound := by
  unfold State.faultSound at *
  rw [e]
  exact h

theorem State.faultSound.request {addr tag kind : Nat} {f : State → State × Rsp} (h : s.faultSound) :
    (s.request addr tag kind f).faultSound := by
  unfold State.request
  split
  · exact h
  · split
    · exact State.finish_faultSound _
    · exact State.finish_faultSound _

/-- A query is no event of the blocks (R167): only its overrun is. -/
theorem State.faultSound.query {tag kind : Nat} {f : State → Rsp} (h : s.faultSound) : (s.query tag kind f).faultSound := by
  unfold State.query
  split
  · exact h
  · split
    · exact State.finish_faultSound _
    · exact h.of_part (by simp)

/-- Every command leaves FAULT as its conditions ask (R13). -/
theorem State.faultSound.exec {i : Instr} {t : State} (h : s.faultSound) (he : exec i s = .next t) : t.faultSound := by
  cases i with
  | getStatus | queryLocation | queryZone | queryJob | queryPort | queryMove | queryRobot | queryWatch | queryNode =>
    cases he
    exact h.query
  | getStatusClear tag =>
    cases he
    split
    · exact h
    · split
      · exact State.finish_faultSound _
      · exact State.faultSound.of_part (s := s.heard.clearFlags) h (by simp)
  | softReset | queryReticle | declare | retire | hold | unhold | clearFault | clearFaultZone | scanRange | cancelScan
    | setExposure | deliver | returnJob | cancelJob | maskPort | unmaskPort | relocate | recoverRobot | setWatch
    | releaseMove | cancelMove | clearWatchFlags | busReset | loadOpen | loadEntry | loadCommit | loadDiscard | storeImage
    | reloadImage | restoreDefaults | enterMaintenance | exitMaintenance | enterStandalone | exitStandalone
    | forceFailSafe | exitFailSafe | unknownRequest | passThroughMoveLeg | passThroughOrder =>
    cases he
    exact h.request
  | coldStart | exchangeAnswered | exchangeUnanswered | rollRetryExpiry | moveTimeoutExpiry | yieldExpiry
    | passTimerExpiry | intervalExpiry | stepWaitExpiry | interlockLineChange =>
    cases he
    exact State.finish_faultSound _
  | frameCheckFailed =>
    cases he
    split
    · exact State.finish_faultSound _
    · exact h
  | replyOverrun =>
    cases he
    split
    · exact h
    · split
      · exact State.finish_faultSound _
      · exact h
  | lineSignalUp =>
    cases he
    split
    · exact h.of_part (by simp)
    · exact h
  | lineSignalLost | abortSymbol => cases he; exact h
  | abortResync | frameTransmitted => cases he; exact h.of_part (by simp)
  | linkSilenceExpiry =>
    cases he
    split
    · exact h
    · exact State.finish_faultSound _
  | imageWriteDone ok =>
    cases he
    split
    · exact h
    · dsimp only
      split
      · exact State.finish_faultSound _
      · exact State.finish_faultSound _

end Sys2Proof.Machine
end

section
open Sys2Proof Sys2Proof.Machine

/-- Settles O9: a command ends its event by setting FAULT (`State.finish_faultSound`) or leaves the blocks as they were,
and a second of part time is none of R13's conditions. -/
theorem faultKept : Obligations.FaultKept := by
  intro s t h he
  unfold step at he
  split at he
  · rename_i rest _
    exact State.faultSound.exec (s := { s with pending := rest }) h he
  · cases he
    exact h
end

section
open Sys2Proof Sys2Proof.Machine

/-- Settles O3: each value is a field of `State.reset` or a reading of an empty table. -/
theorem resetValues : Obligations.ResetValues := by
  have robots : ∀ x, (State.reset.part.robot x).state = .lost ∧ (State.reset.part.robot x).held = none ∧
      (State.reset.part.robot x).span = none := by
    intro x
    cases x <;> exact ⟨rfl, rfl, rfl⟩
  exact ⟨rfl, rfl, rfl, rfl, rfl, rfl, rfl, rfl, rfl, rfl, fun _ => rfl, fun _ => rfl, fun _ => rfl, fun _ => rfl, rfl, rfl,
    fun _ => rfl, fun _ => rfl, fun _ => rfl, rfl, rfl, rfl, robots, rfl, rfl, rfl, ⟨_, rfl, rfl⟩, rfl, rfl, rfl, rfl, rfl,
    rfl, rfl, rfl, rfl⟩
end

section
/-! SUPPORT. The queries: each answers in every mode and changes the link alone (R167). -/

namespace Sys2Proof.Machine

variable {s : State}

theorem State.listens_iff : s.listens = true ↔ s.deaf = false ∧ s.full = false := by
  simp [State.listens]

/-- A query that is heard and finds room is answered, and does nothing else. -/
theorem State.query_listens {tag kind : Nat} {f : State → Rsp} (h : s.listens = true) :
    s.query tag kind f = (s.heard.reply ⟨0, kind, tag, f s.heard⟩).transmit := by
  obtain ⟨hd, hf⟩ := State.listens_iff.1 h
  simp [State.query, hd, hf]

/-- A request that is heard and finds room is its owner's to answer. -/
theorem State.request_listens {addr tag kind : Nat} {f : State → State × Rsp} (h : s.listens = true) :
    s.request addr tag kind f = ((f s.heard).1.reply ⟨addr, kind, tag, (f s.heard).2⟩).finish := by
  obtain ⟨hd, hf⟩ := State.listens_iff.1 h
  simp [State.request, hd, hf]

/-- What a query leaves as it was (R167), and the link's own state after it. -/
theorem State.query_leaves {tag kind : Nat} {f : State → Rsp} (h : s.listens = true) :
    let t := s.query tag kind f
    t.part = s.part ∧ t.noticed = s.noticed ∧ t.notices.next = s.notices.next ∧ t.notices.lost = s.notices.lost ∧
    t.image = s.image ∧ t.link.error = s.link.error ∧ t.link.state = .up ∧
    t.link.silence = some (s.part.now + s.part.limits.linkSilence) := by
  rw [State.query_listens h]
  refine ⟨by simp, ?_, by simp, by simp, by simp, by simp, by simp, ?_⟩
  · rw [State.noticed_transmit]; rfl
  · rw [State.transmit_link_silence]; rfl

end Sys2Proof.Machine
end

section
open Sys2Proof Sys2Proof.Machine

/-- Settles O18: each query is `State.query` of its owner's reading, which the operand's range decides. -/
theorem queryReplies : Obligations.QueryReplies := by
  refine ⟨fun i s t hq hc hr hl he => ?_, fun s tag n hl => ?_⟩
  · cases i with
    | getStatusClear g => exact absurd rfl (hc g)
    | queryReticle g x => exact absurd rfl (hr g x)
    | getStatus | queryLocation | queryZone | queryJob | queryPort | queryMove | queryRobot | queryWatch | queryNode =>
      cases he
      exact State.query_leaves hl
    | _ => cases hq
  · have key : ∀ (k : Nat) (f : State → Rsp) (r : Rsp), f s.heard = r → (.next (s.query tag k f) : Out) =
        .next ((s.heard.reply ⟨0, k, tag, r⟩).transmit) := by
      rintro k f r rfl
      rw [State.query_listens hl]
    refine ⟨?_, fun h => ?_, fun h1 h2 => ?_, ?_, ?_, fun h => ?_, fun h => ?_, fun h => ?_, fun r h1 h2 => ?_,
      fun h1 h2 => ?_, fun h => ?_, fun h1 h2 => ?_, fun h1 h2 => ?_, fun h => ?_, fun m h1 h2 => ?_, fun h1 h2 => ?_,
      fun h => ?_, ?_, ?_, fun h => ?_, ?_, fun h1 h2 => ?_, fun h => ?_⟩
    all_goals refine key _ _ _ ?_
    · rfl
    · simp [Part.locationRsp, h]
    · simp [Part.locationRsp, h2, Nat.not_lt.2 h1]
    · simp [Part.locationRsp]
    · simp [Part.locationRsp]
    · grind [Part.locationRsp]
    · simp [Part.zoneRsp, h]
    · simp [Part.zoneRsp, Nat.not_lt.2 h]
    · simp [Part.jobRsp, h2, Nat.not_lt.2 (Nat.le_of_lt_succ h1)]
    · simp [Part.jobRsp, h2, Nat.not_lt.2 (Nat.le_of_lt_succ h1)]
    · simp [Part.jobRsp, Nat.lt_of_succ_le h]
    · simp [Part.portRsp, h2, Nat.not_le.2 h1]
    · simp [Part.portRsp, h2, Nat.not_le.2 h1]
    · simp [Part.portRsp, h]
    · simp [Part.moveRsp, h2, Nat.not_lt.2 (Nat.le_of_lt_succ h1)]
    · simp [Part.moveRsp, h2, Nat.not_lt.2 (Nat.le_of_lt_succ h1)]
    · simp [Part.moveRsp, Nat.lt_of_succ_le h]
    · rfl
    · rfl
    · grind [Part.robotRsp, sideOf]
    · rfl
    · simp [Part.nodeRsp, h1, h2]
    · grind [Part.nodeRsp]
end

section
/-! SUPPORT. The fault summaries (R12, R13, R79, R161) read from the tables, and the status summary (R170). -/

namespace Sys2Proof.Machine

variable {c : Part}

/-! ### The summaries -/

/-- The slot-fault summary of a zone is set while some slot of its column has a flag set (R12). -/
theorem Part.slotFault_iff (h : c.sound) (z : Nat) :
    c.slotFault z = true ↔ ∃ l, l / 60 = z ∧ (c.flagsOf l).any = true := by
  unfold Part.slotFault Part.flagsOf
  simp only [List.any_eq_true, Bool.and_eq_true, beq_iff_eq, columnOf]
  constructor
  · rintro ⟨⟨l, f⟩, hm, hz, hf⟩
    refine ⟨l, hz, ?_⟩
    rw [Store.getD, Store.find_of_mem (Store.rising_of_wf h.flags) hm]
    exact hf
  · rintro ⟨l, hz, hf⟩
    unfold Store.getD at hf
    cases hl : Store.find c.inv.flags l with
    | none => rw [hl] at hf; cases hf
    | some f => exact ⟨(l, f), Store.mem_of_find hl, hz, by rw [hl] at hf; exact hf⟩

theorem Part.zoneState_disabled_iff (c : Part) (z : Nat) : c.zoneState z = .disabled ↔ c.zoneDisabled z = true := by
  unfold Part.zoneState
  split
  · simp_all
  · repeat' split
    all_goals simp_all

/-- The purge fault indication of a zone (R79). -/
theorem Part.purgeFault_iff (c : Part) (z : Nat) : c.purgeFault z = true ↔
    (c.zone z).overrunFlag = true ∨ (c.zone z).failedFlag = true ∨ c.zoneState z = .disabled := by
  simp [Part.purgeFault, Part.zoneState_disabled_iff, or_assoc]

/-- The planned addresses whose entries are LOST or ABSENT (R161). -/
theorem Part.mem_nodeFaults (c : Part) (a : Nat) : a ∈ c.nodeFaults ↔
    ∃ e ∈ c.tables.plan, e.1 = a ∧ e.2.kind ≠ .none ∧ ∃ n, c.node? a = some n ∧ (n.state = .lost ∨ n.state = .absent) := by
  unfold Part.nodeFaults
  simp only [List.mem_filterMap, List.mem_filter, decide_eq_true_eq]
  refine exists_congr fun e => ?_
  cases hn : c.node? e.1 <;> grind

theorem State.noticed_length (s : State) : s.noticed.length = s.notices.size := by
  unfold State.noticed NoticeQueue.size
  cases s.notices.sending <;> simp

/-- A summary of the 16 zones, read at one of them. -/
theorem getElem?_map_range_eq_true {f : Nat → Bool} {z : Nat} (hz : z < 16) :
    ((List.range 16).map f)[z]? = some true ↔ f z = true := by
  simp [hz]

theorem any_range_iff_getElem? (f : Nat → Bool) :
    (List.range 16).any f = true ↔ ∃ z < 16, ((List.range 16).map f)[z]? = some true := by
  simp only [List.any_eq_true, List.mem_range]
  exact exists_congr fun z => and_congr_right fun hz => (getElem?_map_range_eq_true hz).symm

/-- The conditions of FAULT (R13). -/
theorem Part.faultNow_iff (c : Part) : c.faultNow = true ↔
    (List.range 16).any c.slotFault = true ∨ (List.range 16).any c.purgeFault = true ∨
    (∃ x, (c.robot x).state = .suspect ∨ (c.robot x).state = .lost) ∨ (∃ a, a ∈ c.nodeFaults) ∨
    c.ctl.imageBad = true ∨ c.ctl.enclosure = true ∨ c.ctl.stop = true := by
  have robots : (∃ x, (c.robot x).state = .suspect ∨ (c.robot x).state = .lost) ↔
      c.mv.robotA.state = .suspect ∨ c.mv.robotA.state = .lost ∨ c.mv.robotB.state = .suspect ∨
      c.mv.robotB.state = .lost := by
    rw [← or_assoc]
    exact ⟨fun ⟨x, h⟩ => by cases x; exacts [.inl h, .inr h], fun h => h.elim (⟨.a, ·⟩) (⟨.b, ·⟩)⟩
  have nodes : (∃ a, a ∈ c.nodeFaults) ↔ (!c.nodeFaults.isEmpty) = true := by
    cases c.nodeFaults <;> simp
  rw [robots, nodes]
  unfold Part.faultNow
  simp only [Bool.or_eq_true, decide_eq_true_eq, or_assoc]

end Sys2Proof.Machine
end

section
open Sys2Proof Sys2Proof.Machine

/-- Settles O13: each field of the summary is a field of the state, or one of the summaries above. -/
theorem statusSummary : Obligations.StatusSummary := by
  intro s hs
  dsimp only
  have lost := fun a => s.part.mem_nodeFaults a
  refine ⟨rfl, rfl, rfl, rfl, rfl, rfl, rfl, rfl, rfl, by simp [State.status], by simp [State.status], fun z hz => ?_,
    fun z hz => ?_, rfl, rfl, lost, rfl, rfl, rfl, rfl, rfl, ?_, ?_, ?_, (State.noticed_length s).symm, rfl, ?_, ?_, ?_, ?_⟩
  · refine (getElem?_map_range_eq_true hz).trans ((Part.slotFault_iff hs z).trans (exists_congr fun l => ?_))
    exact ⟨fun h => ⟨by omega, h⟩, And.right⟩
  · exact (getElem?_map_range_eq_true hz).trans (Part.purgeFault_iff _ z)
  · cases h : s.link.state <;> simp [State.status, h, LinkState.code]
  · cases h : s.link.state <;> simp [State.status, h, LinkState.code]
  · cases h : s.link.state <;> simp [State.status, h, LinkState.code]
  · intro h
    simp [State.status, h]
  · intro w h
    simp [State.status, h]
  · simp [State.status, Option.isSome_iff_exists]
  · rw [Part.faultNow_iff, any_range_iff_getElem?, any_range_iff_getElem?]
    simp only [lost]
    rfl
end

section
/-! SUPPORT. O34 fails: a port's window can be filled again in the commit that drops its node. Its node leaves first and
clears the window; a manifold of higher address leaves next, a reticle of its zone reaches E_HOLD as it is settled, the
hold removes that reticle's delivery, and the READY which the delivery had taken returns to the port's window (R97). -/

namespace Sys2Proof.Machine

/-- The node plan before the commit: port 4 at address 3, and the manifolds of zones 8 and 0 at addresses 4 and 6. -/
def refillTables : Tables := { Tests.tables with
  plan := [(1, ⟨.robot, 100, 0⟩), (2, ⟨.robot, 101, 1⟩), (3, ⟨.port, 200, 4⟩), (4, ⟨.manifold, 300, 0⟩),
    (5, ⟨.port, 201, 7⟩), (6, ⟨.manifold, 301, 0⟩)]
  zone := ⟨[(0, ⟨true, 6, 0⟩), (8, ⟨true, 4, 0⟩)], ⟨20, 240, 2⟩⟩ }

/-- The node plan of the commit: addresses 3 and 4 leave. -/
def refillPlan : Store PlanEntry :=
  [(1, ⟨.robot, 100, 0⟩), (2, ⟨.robot, 101, 1⟩), (5, ⟨.port, 201, 7⟩), (6, ⟨.manifold, 301, 0⟩)]

/-- Record 5 stands in slot 0, is named by slot 487 of zone 8 too, and is unsettled with E at its limit; its delivery to
port 4 is admitted and not granted. -/
def refillPart : Part := { Tests.part with
  tables := refillTables
  inv := { Tests.part.inv with
    occ := [(0, .occupied 5 true), (487, .occupied 5 true)]
    recs := [(5, { Tests.rec5 with e := 65535, place := .loc 0, state := .reserved, stamp := some 940 })] }
  jobs := { Tests.part.jobs with
    jobs := [(15, { Tests.job2 with active := true })]
    ports := [(4, { Port.cold with active := some 15 })] }
  mv := { Tests.part.mv with
    moves := [{ Tests.move20 with
      kind := .deliver, src := some 0, dst := some 964, owner := .step 15 0, ready := some 990 }]
    nextNum := 21
    lastSeq := 7 }
  bus := { Tests.part.bus with roster := Tests.part.bus.roster ++ [(6, Tests.node .manifold 301)] } }

theorem refillPart_sound : refillPart.sound := by
  refine Tests.sound_of _ ?_
  unfold Part.recordsSound Part.movesSound Part.zonesSound Zone.bounded Part.canonical
  decide +kernel

/-- No robot executes a move. -/
theorem refillPart_idle (x : Side) : refillPart.currentOf x = none := by
  cases x <;> decide +kernel

theorem refillPart_window : ((refillPart.commit (.plan refillPlan)).port 4).window = [⟨.ready, 990⟩] := by
  decide +kernel

end Sys2Proof.Machine
end

section
open Sys2Proof Sys2Proof.Machine

/-- Refutes O34: a commit of the node plan drops port 4's node and leaves a READY in the port's window, restored by the
delivery that a hold removed as the manifold of the next address left. -/
theorem not_commitEffects : ¬ Obligations.CommitEffects := by
  intro h
  obtain ⟨-, -, -, -, -, hplan, -⟩ := h refillPart refillPart_sound
  obtain ⟨-, -, hport, -⟩ := hplan refillPlan
  have hempty : ((refillPart.commit (.plan refillPlan)).port 4).window = [] :=
    hport 3 ⟨by decide, by decide, by decide +kernel, Tests.node .port 200, by decide +kernel, rfl⟩ (by decide +kernel)
      fun _ _ x _ _ => refillPart_idle x
  rw [refillPart_window] at hempty
  cases hempty

end

section
/-! SUPPORT. What the end of a move, a step or a job writes, and what a hold writes besides: the frame of the cascades that
the notices of a fault, a lost record or a cancelled scan start. -/

namespace Sys2Proof.Machine

/-- `R` is kept by every write that the ends of moves, steps, jobs and port returns make: no location, no record and no
robot is among them. -/
structure Ends (R : Part → Prop) : Prop where
  say : ∀ {c : Part} {n}, R c → R (c.say n)
  work : ∀ {c : Part} {w}, R c → R { c with work := w }
  watch : ∀ {c : Part} {w}, R c → R { c with watch := w }
  jobs : ∀ {c : Part} {j}, R c → R { c with jobs := j }
  roster : ∀ {c : Part} {r}, R c → R { c with bus := { c.bus with roster := r } }
  rescanList : ∀ {c : Part} {l}, R c → R { c with inv := { c.inv with rescan := l } }
  filterMoves : ∀ {c : Part} {p}, R c → R { c with mv := { c.mv with moves := c.mv.moves.filter p } }

/-- `R` is kept by what a hold does to a record as well: its place and its account stay. -/
structure Holds (R : Part → Prop) : Prop extends Ends R where
  updRec : ∀ {c : Part} {n f}, (∀ r, (f r).id = r.id ∧ (f r).place = r.place ∧ (f r).e = r.e ∧ (f r).frac = r.frac ∧
    (f r).stamp = r.stamp) → R c → R (c.updRec n f)

section Ends

variable {R : Part → Prop} (K : Ends R) {c : Part}
include K

theorem Ends.signal {g : Sig} (h : R c) : R (c.signal g) := by
  unfold Part.signal
  split
  · exact h
  · exact K.work h

theorem Ends.putPort {p : Nat} {r : Port} (h : R c) : R (c.putPort p r) := K.jobs h

theorem Ends.updJob {j : Nat} {f : Job → Job} (h : R c) : R (c.updJob j f) := by
  unfold Part.updJob
  split
  · exact h
  · exact K.jobs h

theorem Ends.portOrder {p : Nat} {o : Order} (h : R c) : R (c.portOrder p o) := by
  unfold Part.portOrder Part.order Part.queueOrder Part.putNode
  repeat' split
  all_goals first | exact h | exact K.roster h

theorem Ends.markStep {j k : Nat} {res : StepResult} {n : Option Nat} (h : R c) : R (c.markStep j k res n) := by
  unfold Part.markStep Part.setStep
  repeat' split
  all_goals first | exact h | exact K.say (K.updJob h)

theorem Ends.markSteps {j : Nat} {sel : StepState → Bool} {res : StepResult} (h : R c) : R (c.markSteps j sel res) := by
  unfold Part.markSteps
  split
  · exact h
  · refine Kept0.each h fun d k hd => ?_
    repeat' split
    all_goals first | exact hd | exact K.markStep hd

theorem Ends.sendIdle {j : Nat} (h : R c) : R (c.sendIdle j) := by
  unfold Part.sendIdle
  repeat' split
  all_goals first | exact h | exact K.putPort (K.portOrder h)

theorem Ends.followChain {j p q : Nat} (h : R c) : R (c.followChain j p q) := by
  unfold Part.followChain
  repeat' split
  all_goals first | exact K.putPort h | exact K.say h

theorem Ends.unbindWatch {j : Nat} (h : R c) : R (c.unbindWatch j) := K.watch h

theorem Ends.dropJob {j : Nat} (h : R c) : R (c.dropJob j) := K.jobs h

theorem Ends.endJob {j : Nat} {out : JobOutcome} (h : R c) : R (c.endJob j out) := by
  unfold Part.endJob
  split
  · exact h
  · dsimp only
    have hmarked : R (c.markSteps j (· ≠ .ended) .cancelled) := K.markSteps h
    repeat' first
      | with_reducible assumption | with_reducible refine K.followChain ?_ | with_reducible refine K.putPort ?_
      | with_reducible refine K.dropJob (K.unbindWatch (K.say ?_)) | with_reducible refine K.sendIdle ?_ | split

theorem Ends.afterStep {j : Nat} {failed : Bool} (h : R c) : R (c.afterStep j failed) := by
  unfold Part.afterStep
  repeat' split
  all_goals first | exact h | exact K.endJob h | exact K.signal h

theorem Ends.endStep {j k : Nat} {res : StepResult} {n : Option Nat} {failed : Bool} (h : R c) :
    R (c.endStep j k res n failed) := K.afterStep (K.markStep h)

theorem Ends.restoreReady {p : Nat} {time : Option Nat} (h : R c) : R (c.restoreReady p time) := by
  unfold Part.restoreReady
  dsimp only
  repeat' split
  all_goals first | exact h | exact K.signal (K.putPort h)

theorem Ends.serveReturn {p : Nat} (h : R c) : R (c.serveReturn p) := by
  unfold Part.serveReturn
  dsimp only
  split
  · exact K.signal (K.putPort h)
  · exact h

theorem Ends.endReturn {p : Nat} (h : R c) : R (c.endReturn p) := by
  unfold Part.endReturn
  split
  · exact h
  · exact K.serveReturn (K.putPort h)

theorem Ends.newReturn {p : Nat} {pod : Pod} {forced : Bool} (h : R c) : R (c.newReturn p pod forced) :=
  K.signal (K.putPort h)

theorem Ends.returnMoveEnd {m : Move} {res : MoveResult} (h : R c) : R (c.returnMoveEnd m res) := by
  unfold Part.returnMoveEnd
  dsimp only
  repeat' split
  all_goals first
    | exact h | exact K.signal (K.putPort h) | exact K.endReturn h | exact K.newReturn h
    | exact K.newReturn (K.endReturn h)

theorem Ends.stepMoveEnd {m : Move} {j k : Nat} {res : MoveResult} (h : R c) : R (c.stepMoveEnd m j k res) := by
  unfold Part.stepMoveEnd
  dsimp only
  repeat' split
  all_goals first
    | exact h | exact K.endStep (K.returnMoveEnd (K.restoreReady h)) | exact K.endStep (K.restoreReady h)
    | exact K.endStep (K.sendIdle (K.returnMoveEnd h)) | exact K.endStep (K.returnMoveEnd h)

theorem Ends.removeMove {m : Move} (h : R c) : R (c.removeMove m) := by
  unfold Part.removeMove
  dsimp only
  repeat' split
  all_goals first
    | exact K.signal (K.signal (K.signal (K.filterMoves h))) | exact K.signal (K.signal (K.filterMoves h))
    | exact K.signal (K.filterMoves h)

theorem Ends.rescan {l : Nat} (h : R c) : R (c.rescan l) := by
  unfold Part.rescan
  split
  · exact K.rescanList h
  · exact h

/-- A move's end keeps `R` where the taking of it out of the list does: its owner's part of the end takes out no move. -/
theorem Ends.endMove {m : Move} {res : MoveResult} (h : R c) : R (c.endMove m res) := by
  have hrem : R (c.removeMove m) := K.removeMove h
  unfold Part.endMove
  dsimp only
  repeat' split
  all_goals first
    | exact hrem | exact K.stepMoveEnd hrem | exact K.returnMoveEnd hrem | exact K.rescan hrem | exact K.say hrem

theorem Ends.endPendingOf {n : Nat} {cause : CancelCause} (h : R c) : R (c.endPendingOf n cause) :=
  Kept0.foldl h (fun _ _ hd => K.endMove hd) _

theorem Ends.signalReturnOf {n : Nat} {r : Rec} (h : R c) : R (c.signalReturnOf n r) := by
  unfold Part.signalReturnOf
  repeat' split
  all_goals first | exact h | exact K.signal h

theorem Ends.holdActs {n : Nat} {r : Rec} (h : R c) : R (c.holdActs n r) := by
  unfold Part.holdActs
  repeat' split
  all_goals first | exact h | exact K.endMove h | exact K.portOrder h

end Ends

theorem Rec.setHold_keeps (r : Rec) (h : HoldReason) (v : Bool) :
    (r.setHold h v).id = r.id ∧ (r.setHold h v).place = r.place ∧ (r.setHold h v).e = r.e ∧
      (r.setHold h v).frac = r.frac ∧ (r.setHold h v).stamp = r.stamp := by
  cases h <;> exact ⟨rfl, rfl, rfl, rfl, rfl⟩

section Holds

variable {R : Part → Prop} (K : Holds R) {c : Part}
include K

theorem Holds.release {n : Nat} (h : R c) : R (c.release n) :=
  K.updRec (fun r => by split <;> exact ⟨rfl, rfl, rfl, rfl, rfl⟩) h

theorem Holds.cancelMove {m : Move} {cause : CancelCause} (h : R c) : R (c.cancelMove m cause) := by
  unfold Part.cancelMove
  dsimp only
  split
  · exact K.endMove (K.release h)
  · exact K.endMove h

theorem Holds.addHold {n : Nat} {b : HoldReason} (h : R c) : R (c.addHold n b) := by
  unfold Part.addHold
  split
  · exact h
  · split
    · exact h
    · dsimp only
      refine K.signalReturnOf ?_
      repeat' split
      all_goals first
        | exact K.holdActs (K.updRec (fun r => r.setHold_keeps b true) h)
        | exact K.holdActs (K.say (K.updRec (fun r => r.setHold_keeps b true) h))
        | exact K.updRec (fun r => r.setHold_keeps b true) h
        | exact K.say (K.updRec (fun r => r.setHold_keeps b true) h)

theorem Holds.clearHold {n : Nat} {b : HoldReason} {own : Bool} (h : R c) : R (c.clearHold n b own) := by
  unfold Part.clearHold
  split
  · exact h
  · split
    · dsimp only
      refine K.signalReturnOf ?_
      split
      · exact K.say (K.updRec (fun r => r.setHold_keeps b false) h)
      · exact K.updRec (fun r => r.setHold_keeps b false) h
    · exact h

theorem Holds.threshold {n : Nat} {down : Bool} (h : R c) : R (c.threshold n down) := by
  unfold Part.threshold
  repeat' split
  all_goals first | exact h | exact K.addHold h | exact K.clearHold h

end Holds

/-! ### The frame -/

/-- The records apart, `d` differs from `c` in what was said, signalled and queued, in the jobs, ports and watch points, and
in moves that left the list. -/
structure Part.Framed (c d : Part) : Prop where
  occ : d.inv.occ = c.inv.occ
  hints : d.inv.hints = c.inv.hints
  flags : d.inv.flags = c.inv.flags
  cursor : d.inv.cursor = c.inv.cursor
  zones : d.zones = c.zones
  tables : d.tables = c.tables
  ctl : d.ctl = c.ctl
  now : d.now = c.now
  mv : d.mv = { c.mv with moves := d.mv.moves }
  moves : d.mv.moves ⊆ c.mv.moves
  out : c.out <+: d.out

variable {c d : Part}

theorem Part.Framed.occ_eq (h : c.Framed d) (l : Nat) : d.occ l = c.occ l := by
  unfold Part.occ
  rw [h.occ]

theorem Part.Framed.hint_eq (h : c.Framed d) (l : Nat) : d.hint l = c.hint l := by
  unfold Part.hint
  rw [h.hints]

theorem Part.Framed.flagsOf_eq (h : c.Framed d) (l : Nat) : d.flagsOf l = c.flagsOf l := by
  unfold Part.flagsOf
  rw [h.flags]

theorem Part.Framed.refl (c : Part) : c.Framed c :=
  ⟨rfl, rfl, rfl, rfl, rfl, rfl, rfl, rfl, rfl, List.Subset.refl _, List.prefix_rfl⟩

/-- A write of a record is inside the frame. -/
theorem Part.Framed.putRec {n : Nat} {r : Rec} (h : c.Framed d) : c.Framed (d.putRec n r) := { h with }

theorem Part.Framed.signal {g : Sig} (h : c.Framed d) : c.Framed (d.signal g) := by
  unfold Part.signal
  split
  · exact h
  · exact { h with }

theorem Part.Framed.updRec {n : Nat} {f : Rec → Rec} (h : c.Framed d) : c.Framed (d.updRec n f) := by
  unfold Part.updRec
  split
  · exact h
  · dsimp only
    split
    · exact h.putRec
    · exact h.putRec.signal

theorem framed_holds (c : Part) : Holds c.Framed where
  say h := { h with out := h.out.trans (List.prefix_append _ _) }
  work h := { h with }
  watch h := { h with }
  jobs h := { h with }
  roster h := { h with }
  rescanList h := { h with }
  filterMoves h := { h with
    mv := by rw [h.mv]
    moves := fun _ hm => h.moves (List.mem_filter.1 hm).1 }
  updRec _ h := h.updRec

theorem Part.Framed.settle {n : Nat} (h : c.Framed d) : c.Framed (d.settle n) := (framed_holds c).threshold h.updRec

theorem Part.Framed.fixProtection {n : Nat} (h : c.Framed d) : c.Framed (d.fixProtection n) := by
  unfold Part.fixProtection
  split
  · exact h
  · split
    · exact (framed_holds c).threshold h.updRec.updRec
    · exact h.updRec
    · exact h

theorem Part.Framed.limboAccount {n : Nat} (h : c.Framed d) : c.Framed (d.limboAccount n) := by
  unfold Part.limboAccount
  repeat' split
  all_goals first | exact h | exact h.settle | exact h.updRec

theorem ends_recs (x : Store Rec) : Ends fun c => c.inv.recs = x :=
  ⟨id, id, id, id, id, id, id⟩

end Sys2Proof.Machine
end

section
/-! SUPPORT. What a hold, a lost record and a presence report do (R8, R38, R39, R46). -/

namespace Sys2Proof.Machine

variable {c : Part}

/-! ### Rules of the operations -/

theorem Part.setOcc_framed (l : Nat) (o : Occ) :
    (c.setOcc l o).inv.hints = c.inv.hints ∧ (c.setOcc l o).inv.flags = c.inv.flags ∧
      (c.setOcc l o).mv = c.mv ∧ (c.setOcc l o).out = c.out := by
  rw [Part.setOcc_inv]
  refine ⟨rfl, rfl, ?_⟩
  unfold Part.setOcc
  dsimp only
  repeat' split
  all_goals simp

theorem Part.vacate_framed (n : Nat) (o : Occ) :
    (c.vacate n o).inv.hints = c.inv.hints ∧ (c.vacate n o).inv.flags = c.inv.flags ∧
      (c.vacate n o).mv = c.mv ∧ (c.vacate n o).out = c.out := by
  unfold Part.vacate
  repeat' split
  all_goals first | exact Part.setOcc_framed _ _ | exact ⟨rfl, rfl, rfl, rfl⟩

theorem Part.updRec_out (n : Nat) (f : Rec → Rec) : (c.updRec n f).out = c.out := by
  unfold Part.updRec
  split
  · rfl
  · dsimp only
    split
    · rfl
    · exact Part.signal_out _ _

/-- The end of a move changes no record. -/
theorem Part.holdActs_rec (n k : Nat) (r : Rec) : (c.holdActs n r).rec? k = c.rec? k :=
  congrArg (Store.find · k) ((ends_recs c.inv.recs).holdActs rfl)

theorem Part.endPendingOf_rec (n k : Nat) (cause : CancelCause) : (c.endPendingOf n cause).rec? k = c.rec? k :=
  congrArg (Store.find · k) ((ends_recs c.inv.recs).endPendingOf rfl)

/-- A move that has ended is not in the list. -/
theorem Part.endMove_gone {m m' : Move} {res : MoveResult} (hm : m' ∈ (c.endMove m res).mv.moves) : m' ≠ m := by
  -- the list loses the move's number at once, and no owner's part of the end adds a move
  rintro rfl
  suffices (c.endMove m' res).mv.moves ⊆ c.mv.moves.filter (·.num ≠ m'.num) by
    simpa using (List.mem_filter.1 (this hm)).2
  have hrem : (c.removeMove m').mv.moves ⊆ c.mv.moves.filter (·.num ≠ m'.num) := by
    unfold Part.removeMove
    dsimp only
    repeat' split
    all_goals simp
  have K := framed_holds (c.removeMove m')
  have h0 := Part.Framed.refl (c.removeMove m')
  refine List.Subset.trans (Part.Framed.moves (c := c.removeMove m') ?_) hrem
  unfold Part.endMove
  dsimp only
  repeat' split
  all_goals first
    | exact h0 | exact K.stepMoveEnd h0 | exact K.returnMoveEnd h0 | exact K.rescan h0 | exact K.say h0

/-- No move of the record is left in the list but one that has been granted (R8). -/
theorem Part.endPendingOf_moves {n : Nat} {cause : CancelCause} {m : Move}
    (hm : m ∈ (c.endPendingOf n cause).mv.moves) (hn : m.reticle = some n) : m.granted = true := by
  have hfold : ∀ (ms : List Move) (d : Part), m ∈ (ms.foldl (fun d k => d.endMove k (.cancelled cause)) d).mv.moves →
      m ∈ d.mv.moves ∧ m ∉ ms := by
    intro ms
    induction ms with
    | nil => exact fun d h => ⟨h, List.not_mem_nil⟩
    | cons k ms ih =>
      intro d h
      obtain ⟨hd, hms⟩ := ih _ h
      exact ⟨((framed_holds d).endMove (Part.Framed.refl d)).moves hd, by simp [Part.endMove_gone hd, hms]⟩
  obtain ⟨hc, hnot⟩ := hfold _ _ hm
  by_contra hg
  exact hnot (List.mem_filter.2 ⟨hc, by simp [hn, hg]⟩)

/-! ### Holds and accounts -/

/-- The record a hold leaves (R38, R39, R41). -/
def Rec.withHold (r : Rec) (b : HoldReason) : Rec :=
  if r.holds b then r
  else { r.setHold b true with
    state := if r.held then r.state else r.heldState
    job := if r.held = false ∧ r.state = .reserved then none else r.job }

theorem Part.addHold_rec {n : Nat} {r : Rec} (b : HoldReason) (h : c.rec? n = some r) :
    (c.addHold n b).rec? n = some (r.withHold b) := by
  have hsig : ∀ (d : Part), (d.signalReturnOf n r).rec? n = d.rec? n := fun d =>
    congrArg (Store.find · n) ((ends_recs d.inv.recs).signalReturnOf rfl)
  unfold Part.addHold Rec.withHold
  rw [h]
  dsimp only
  split
  · exact h
  · rw [hsig]
    have hw : ∀ f : Rec → Rec, (c.updRec n f).rec? n = some (f r) := fun f => by simp [Part.updRec_rec, h]
    cases hr : r.held <;> by_cases hb : b = .operator <;>
      simp only [hb, if_true, if_false, Bool.not_true, Bool.not_false, Bool.false_eq_true, true_and, false_and,
        Part.holdActs_rec]
    all_goals exact hw _

/-- A hold leaves a record of these states and its commitments as they are. -/
theorem Rec.withHold_lost {r : Rec} (b : HoldReason) (h : r.state = .lost) (hj : r.job = none) :
    (r.withHold b).state = .lost ∧ (r.withHold b).job = none ∧ (r.withHold b).id = r.id ∧
      (r.withHold b).place = r.place := by
  unfold Rec.withHold
  split
  · exact ⟨h, hj, rfl, rfl⟩
  · obtain ⟨hid, hplace, -⟩ := r.setHold_keeps b true
    exact ⟨by simp [Rec.heldState, h], by simp [h, hj], hid, hplace⟩

theorem Rec.accrue_keeps (r : Rec) (now rate : Nat) :
    (r.accrue now rate).id = r.id ∧ (r.accrue now rate).place = r.place ∧ (r.accrue now rate).state = r.state ∧
      (r.accrue now rate).job = r.job := by
  unfold Rec.accrue
  dsimp only
  repeat' split
  all_goals exact ⟨rfl, rfl, rfl, rfl⟩

/-- The record stands LOST, at no place and for no job. -/
def Part.lostAs (c : Part) (n : Nat) (x : RetId) : Prop :=
  ∃ r, c.rec? n = some r ∧ r.id = x ∧ r.state = .lost ∧ r.place = .none ∧ r.job = none

theorem Part.lostAs.threshold {n : Nat} {x : RetId} (h : c.lostAs n x) : (c.threshold n false).lostAs n x := by
  obtain ⟨r, hr, hx, hs, hp, hj⟩ := h
  unfold Part.threshold
  rw [hr]
  dsimp only
  split
  · obtain ⟨hs', hj', hid, hplace⟩ := r.withHold_lost .exposure hs hj
    exact ⟨_, Part.addHold_rec _ hr, hid.trans hx, hs', hplace.trans hp, hj'⟩
  · simpa using ⟨r, hr, hx, hs, hp, hj⟩

/-- An account opened or settled for a LOST record leaves it LOST. -/
theorem Part.lostAs.limboAccount {n : Nat} {x : RetId} (h : c.lostAs n x) : (c.limboAccount n).lostAs n x := by
  obtain ⟨r, hr, hx, hs, hp, hj⟩ := h
  unfold Part.limboAccount
  rw [hr]
  dsimp only
  split
  · obtain ⟨hid, hplace, hstate, hjob⟩ := r.accrue_keeps c.now (c.rateOf r)
    refine Part.lostAs.threshold ⟨r.accrue c.now (c.rateOf r), ?_, hid.trans hx, hstate.trans hs, hplace.trans hp,
      hjob.trans hj⟩
    simp [Part.accrueRec, Part.updRec_rec, hr]
  · exact ⟨{ r with stamp := some c.now }, by simp [Part.updRec_rec, hr], hx, hs, hp, hj⟩

/-- A record as it becomes LOST, before its account is settled or opened. -/
def Part.lostUnsettled (c : Part) (n : Nat) (r : Rec) (cause : LostCause) : Part :=
  ((c.vacate n .unknown).updRec n fun r => { r with place := .none, state := .lost, job := none }).say
    (.reticleLost n r.id r.place cause)

theorem Part.makeLost_eq {n : Nat} {r : Rec} (cause : LostCause) (h : c.rec? n = some r) :
    c.makeLost n cause = (c.lostUnsettled n r cause).limboAccount n := by
  unfold Part.makeLost
  rw [h]
  rfl

theorem Part.lostUnsettled_spec {n : Nat} {r : Rec} (cause : LostCause) (h : c.rec? n = some r) :
    (c.lostUnsettled n r cause).lostAs n r.id ∧ (c.lostUnsettled n r cause).inv.hints = c.inv.hints ∧
      (c.lostUnsettled n r cause).inv.flags = c.inv.flags ∧
      (c.lostUnsettled n r cause).out = c.out ++ [Subject.reticleLost n r.id r.place cause] := by
  obtain ⟨hhints, hflags, -, hout⟩ := Part.vacate_framed (c := c) n .unknown
  have hupd : ∀ f, (c.vacate n .unknown).Framed ((c.vacate n .unknown).updRec n f) := fun _ => (Part.Framed.refl _).updRec
  refine ⟨⟨{ r with place := .none, state := .lost, job := none }, ?_, rfl, rfl, rfl, rfl⟩,
    (hupd _).hints.trans hhints, (hupd _).flags.trans hflags, ?_⟩
  · exact (Part.updRec_rec ..).trans (by simp [Part.vacate_rec, h])
  · exact congrArg (· ++ [_]) ((Part.updRec_out ..).trans hout)

/-- A record becomes LOST (R24): the record stands so, RETICLE_LOST is the first notice, and neither hints nor flags change. -/
theorem Part.makeLost_spec {n : Nat} {r : Rec} (cause : LostCause) (h : c.rec? n = some r) :
    (c.makeLost n cause).lostAs n r.id ∧ (c.makeLost n cause).inv.hints = c.inv.hints ∧
      (c.makeLost n cause).inv.flags = c.inv.flags ∧
      c.out ++ [Subject.reticleLost n r.id r.place cause] <+: (c.makeLost n cause).out := by
  obtain ⟨hlost, hhints, hflags, hout⟩ := Part.lostUnsettled_spec cause h
  have hframe : (c.lostUnsettled n r cause).Framed ((c.lostUnsettled n r cause).limboAccount n) :=
    (Part.Framed.refl _).limboAccount
  rw [Part.makeLost_eq cause h]
  exact ⟨hlost.limboAccount, hframe.hints.trans hhints, hframe.flags.trans hflags, hout ▸ hframe.out⟩

end Sys2Proof.Machine
end

section
/-! SUPPORT. A presence report, case by case (R7 to R9, R154). -/

namespace Sys2Proof.Machine

variable {c : Part}

/-- What setting a slot's flag changes besides the flag: SLOT_FLAG, where the flag was clear (R9). -/
theorem Part.raiseFlag_framed (l : Nat) (f : SlotFlag) :
    (c.raiseFlag l f).inv.occ = c.inv.occ ∧ (c.raiseFlag l f).inv.hints = c.inv.hints ∧
      (c.raiseFlag l f).inv.recs = c.inv.recs ∧ (c.raiseFlag l f).mv = c.mv := by
  unfold Part.raiseFlag
  split
  · exact ⟨rfl, rfl, rfl, rfl⟩
  · exact ⟨rfl, rfl, rfl, rfl⟩

theorem Part.raiseFlag_out {l : Nat} (f : SlotFlag) (hl : l < 960) :
    (c.raiseFlag l f).out = c.out ++ if (c.flagsOf l).get f then [] else [Subject.slotFlag l f] := by
  unfold Part.raiseFlag isSlot
  cases h : (c.flagsOf l).get f <;> simp [hl]

theorem Part.raiseFlag_conflict {l : Nat} (hf : Store.wf SlotFlags.clear c.inv.flags = true) (hl : l < 960) :
    ((c.raiseFlag l .conflict).flagsOf l).conflict = true := by
  unfold Part.raiseFlag isSlot
  split
  · have := Store.getD_setD_self hf l ((c.flagsOf l).set .conflict)
    exact congrArg SlotFlags.conflict this
  · rename_i hset
    simpa [hl, SlotFlags.get] using hset

theorem Part.rescan_mem {l : Nat} (hl : l < 968) : l ∈ (c.rescan l).inv.rescan := by
  unfold Part.rescan isPlace
  by_cases h : l ∈ c.inv.rescan <;> simp [hl, h]

theorem Part.setHint_hint (h : c.sound) (l : Nat) (v : Hint) : (c.setHint l v).hint l = v :=
  Store.getD_setD_self h.hints l v

theorem Part.setHint_sound (h : c.sound) (l : Nat) (v : Hint) : (c.setHint l v).sound := kept_sound.setHint h

/-- The hint a report writes (R6). -/
def hintOf (v : Bool) : Hint := if v then .present else .absent

/-- A report that changes no hint is no event, but for an UNKNOWN slot in a snapshot (R7). -/
theorem Part.presence_same {l : Nat} {v snap : Bool} (h : c.hint l = hintOf v) :
    c.presence l v snap = if snap = true ∧ c.occ l = .unknown ∧ v = false then (c.setHint l (hintOf v)).setOcc l .vacant
      else c.setHint l (hintOf v) := by
  unfold Part.presence
  rw [← hintOf, h]
  cases snap <;> cases v <;> cases ho : c.occ l <;> simp

/-- A slot whose pod the report no longer finds: its record LOST, its moves ended, and the slot VACANT (R8). -/
def Part.podMissing (c : Part) (l n : Nat) : Part :=
  ((c.makeLost n .presence).setOcc l .vacant).endPendingOf n .lostSource

theorem Part.podMissing_hints {l n : Nat} : (c.podMissing l n).inv.hints = c.inv.hints := by
  have hlost : (c.makeLost n .presence).inv.hints = c.inv.hints := by
    cases hr : c.rec? n with
    | none => simp [Part.makeLost, hr]
    | some r => exact (Part.makeLost_spec .presence hr).2.1
  have hframe : ((c.makeLost n .presence).setOcc l .vacant).Framed (c.podMissing l n) :=
    (framed_holds _).endPendingOf (Part.Framed.refl _)
  exact hframe.hints.trans ((Part.setOcc_framed l .vacant).1.trans hlost)

theorem Part.podMissing_spec (hs : c.sound) {l n : Nat} {r : Rec} (h : c.rec? n = some r) :
    (c.podMissing l n).occ l = .vacant ∧ (c.podMissing l n).lostAs n r.id ∧ (c.podMissing l n).inv.hints = c.inv.hints ∧
      (c.podMissing l n).inv.flags = c.inv.flags ∧
      (∀ m ∈ (c.podMissing l n).mv.moves, m.reticle = some n → m.granted = true) ∧
      c.out ++ [Subject.reticleLost n r.id r.place .presence] <+: (c.podMissing l n).out := by
  obtain ⟨hlost, hhints, hflags, hout⟩ := Part.makeLost_spec .presence h
  obtain ⟨shints, sflags, smv, sout⟩ := Part.setOcc_framed (c := c.makeLost n .presence) l .vacant
  have hsound : (c.makeLost n .presence).sound := free_sound.kept.makeLost hs
  have hframe : ((c.makeLost n .presence).setOcc l .vacant).Framed (c.podMissing l n) :=
    (framed_holds _).endPendingOf (Part.Framed.refl _)
  refine ⟨?_, ?_, hframe.hints.trans (shints.trans hhints), hframe.flags.trans (sflags.trans hflags),
    fun m hm hn => Part.endPendingOf_moves hm hn, (hout.trans (sout ▸ List.prefix_rfl)).trans hframe.out⟩
  · exact (hframe.occ_eq l).trans ((Part.setOcc_occ hsound l l .vacant).trans (if_pos rfl))
  · obtain ⟨q, hq, hrest⟩ := hlost
    exact ⟨q, (Part.endPendingOf_rec ..).trans ((Part.setOcc_rec ..).trans hq), hrest⟩

/-! ### A changed hint (R7) -/

section Changed

variable {l : Nat} {v snap : Bool} (h : c.hint l ≠ hintOf v)
include h

theorem Part.presence_found (ho : c.occ l = .vacant) (hv : v = true) :
    c.presence l v snap = (((c.setHint l (hintOf v)).setOcc l .unknown).raiseFlag l .conflict).rescan l := by
  subst hv
  have h' : c.hint l ≠ .present := h
  simp [Part.presence, hintOf, ho, h']

theorem Part.presence_missing {n : Nat} {seen : Bool} (ho : c.occ l = .occupied n seen) (hv : v = false) :
    c.presence l v snap = if seen then ((c.setHint l (hintOf v)).podMissing l n).raiseFlag l .conflict
      else (c.setHint l (hintOf v)).podMissing l n := by
  subst hv
  have h' : c.hint l ≠ .absent := h
  simp [Part.presence, hintOf, ho, h', Part.podMissing]

theorem Part.presence_emptied (ho : c.occ l = .unknown ∨ ∃ k, c.occ l = .foreign k) (hv : v = false) :
    c.presence l v snap = (c.setHint l (hintOf v)).setOcc l .vacant := by
  subst hv
  have h' : c.hint l ≠ .absent := h
  obtain ho | ⟨k, ho⟩ := ho <;> simp [Part.presence, hintOf, ho, h']

theorem Part.presence_other (ho : v = true ∧ c.occ l ≠ .vacant ∨ v = false ∧ (c.occ l = .vacant ∨
    (∃ k, c.occ l = .inbound k) ∨ ∃ k w, c.occ l = .outbound k w)) : c.presence l v snap = c.setHint l (hintOf v) := by
  obtain ⟨rfl, hne⟩ | ⟨rfl, ho⟩ := ho
  · have h' : c.hint l ≠ .present := h
    cases ho : c.occ l <;> simp_all [Part.presence, hintOf]
  · have h' : c.hint l ≠ .absent := h
    obtain ho | ⟨k, ho⟩ | ⟨k, w, ho⟩ := ho <;> simp [Part.presence, hintOf, ho, h']

/-- Of the hints, a changed one is all that a report changes. -/
theorem Part.presence_hints : (c.presence l v snap).inv.hints = (c.setHint l (hintOf v)).inv.hints := by
  have hset : ∀ (d : Part) o, (d.setOcc l o).inv.hints = d.inv.hints := fun d o => (Part.setOcc_framed l o).1
  have hraise : ∀ d : Part, (d.raiseFlag l .conflict).inv.hints = d.inv.hints := fun d =>
    (Part.raiseFlag_framed l .conflict).2.1
  cases v with
  | true =>
    by_cases ho : c.occ l = .vacant
    · rw [Part.presence_found h ho rfl, Part.rescan_inv_hints, hraise, hset]
    · rw [Part.presence_other h (Or.inl ⟨rfl, ho⟩)]
  | false =>
    cases ho : c.occ l with
    | vacant => rw [Part.presence_other h (Or.inr ⟨rfl, Or.inl ho⟩)]
    | inbound k => rw [Part.presence_other h (Or.inr ⟨rfl, Or.inr (Or.inl ⟨k, ho⟩)⟩)]
    | outbound k w => rw [Part.presence_other h (Or.inr ⟨rfl, Or.inr (Or.inr ⟨k, w, ho⟩)⟩)]
    | unknown => rw [Part.presence_emptied h (Or.inl ho) rfl, hset]
    | foreign k => rw [Part.presence_emptied h (Or.inr ⟨k, ho⟩) rfl, hset]
    | occupied n seen =>
      have hmiss : ((c.setHint l (hintOf false)).podMissing l n).inv.hints = (c.setHint l (hintOf false)).inv.hints :=
        Part.podMissing_hints
      rw [Part.presence_missing h ho rfl]
      split
      · rw [hraise, hmiss]
      · exact hmiss

/-- A pod in a VACANT slot. -/
theorem Part.presence_found_spec (hs : c.sound) (hl : l < 960) (ho : c.occ l = .vacant) (hv : v = true) :
    (c.presence l v snap).occ l = .unknown ∧ ((c.presence l v snap).flagsOf l).conflict = true ∧
      l ∈ (c.presence l v snap).inv.rescan ∧
      (c.presence l v snap).out = c.out ++ if (c.flagsOf l).conflict then [] else [Subject.slotFlag l .conflict] := by
  have hs1 : (c.setHint l (hintOf v)).sound := Part.setHint_sound hs _ _
  obtain ⟨-, hflags, -, hout⟩ := Part.setOcc_framed (c := c.setHint l (hintOf v)) l .unknown
  rw [Part.presence_found h ho hv]
  refine ⟨?_, ?_, Part.rescan_mem (by omega), ?_⟩
  · unfold Part.occ
    rw [Part.rescan_inv_occ, (Part.raiseFlag_framed l .conflict).1]
    exact (Part.setOcc_occ hs1 l l .unknown).trans (if_pos rfl)
  · unfold Part.flagsOf
    rw [Part.rescan_inv_flags]
    exact Part.raiseFlag_conflict (by rw [hflags]; exact hs1.flags) hl
  · rw [Part.rescan_out, Part.raiseFlag_out _ hl, hout]
    unfold Part.flagsOf
    rw [hflags]
    rfl

/-- No pod in a slot that names a record. -/
theorem Part.presence_missing_spec (hs : c.sound) (hl : l < 960) {n : Nat} {seen : Bool} {r : Rec}
    (ho : c.occ l = .occupied n seen) (hv : v = false) (hr : c.rec? n = some r) :
    (c.presence l v snap).occ l = .vacant ∧ (c.presence l v snap).lostAs n r.id ∧
      (∀ m ∈ (c.presence l v snap).mv.moves, m.reticle = some n → m.granted = true) ∧
      (seen = true → ((c.presence l v snap).flagsOf l).conflict = true) ∧
      (seen = false → (c.presence l v snap).flagsOf l = c.flagsOf l) ∧
      ∃ a : List Subject, (c.presence l v snap).out = c.out ++ Subject.reticleLost n r.id r.place .presence :: a ++
        if seen = true ∧ (c.flagsOf l).conflict = false then [Subject.slotFlag l .conflict] else [] := by
  have hs1 : (c.setHint l (hintOf v)).sound := Part.setHint_sound hs _ _
  obtain ⟨hocc, hlost, -, hflags, hmoves, a, hout⟩ := Part.podMissing_spec (l := l) hs1 (n := n) (r := r) hr
  have hflag : ((c.setHint l (hintOf v)).podMissing l n).flagsOf l = c.flagsOf l := by
    unfold Part.flagsOf
    rw [hflags]
    rfl
  have hout' : ((c.setHint l (hintOf v)).podMissing l n).out =
      c.out ++ Subject.reticleLost n r.id r.place .presence :: a := by
    rw [← hout]
    simp
  obtain ⟨rocc, -, rrecs, rmv⟩ := Part.raiseFlag_framed (c := (c.setHint l (hintOf v)).podMissing l n) l .conflict
  rw [Part.presence_missing h ho hv]
  cases seen with
  | false => exact ⟨hocc, hlost, hmoves, nofun, fun _ => hflag, a, by simp [hout']⟩
  | true =>
    refine ⟨?_, ?_, ?_, fun _ => Part.raiseFlag_conflict (by rw [hflags]; exact hs1.flags) hl, nofun, a, ?_⟩
    · exact (congrArg (fun o => Store.getD Occ.unknown o l) rocc).trans hocc
    · obtain ⟨q, hq, hrest⟩ := hlost
      exact ⟨q, (congrArg (Store.find · n) rrecs).trans hq, hrest⟩
    · simpa [rmv] using hmoves
    · simp only [if_true, Part.raiseFlag_out _ hl, hflag, hout', SlotFlags.get, true_and]
      cases (c.flagsOf l).conflict <;> rfl

end Changed

end Sys2Proof.Machine
end

section
open Sys2Proof Sys2Proof.Machine

/-- Settles O47: the cases of a report that changes no hint, then of one that does, then whose reports are taken. -/
theorem presenceReports : Obligations.PresenceReports := by
  intro c l v snap hs hl
  refine ⟨fun h hno => ?_, fun h hsnap ho hv => ?_, fun h => ⟨?_, fun ho hv => ?_, fun n seen r ho hv hr => ?_,
    fun hv ho => ?_, fun ho => ?_⟩, fun a hk ha => ?_, fun a hk ha => ?_, fun a hk => ?_⟩
  · rw [Part.presence_same h, if_neg]
    · rfl
    · rintro ⟨rfl, ho, -⟩
      exact hno.elim (fun e => Bool.noConfusion e) fun e => e ho
  · rw [Part.presence_same h, if_pos ⟨hsnap, ho, hv⟩]
    have hset := Part.setOcc_occ (Part.setHint_sound hs l (hintOf v)) l l .vacant
    exact ⟨hset.trans (if_pos rfl), (Part.setOcc_framed _ _).2.2.2⟩
  · unfold Part.hint
    rw [Part.presence_hints h]
    exact Part.setHint_hint hs l (hintOf v)
  · exact Part.presence_found_spec h hs hl ho hv
  · exact Part.presence_missing_spec h hs hl ho hv hr
  · rw [Part.presence_emptied h ho hv]
    have hset := Part.setOcc_occ (Part.setHint_sound hs l (hintOf v)) l l .vacant
    exact ⟨hset.trans (if_pos rfl), (Part.setOcc_framed _ _).2.2.2⟩
  · exact Part.presence_other h ho
  · simp [Part.deliverReport, hk, isSlot, hl, columnOf, ha]
  · simp [Part.deliverReport, hk, isSlot, columnOf, Ne.symm ha]
  · simp [Part.deliverReport, hk, reportCode]

end

section
/-! SUPPORT. Slot choice: the lowest candidate of a zone, and the fold over the zones that keeps the best (R14 to R17). -/

namespace Sys2Proof.Machine

variable {c : Part}

/-- A slot that may be a store's destination, whatever its zone (R14, R15). -/
def Part.storable (c : Part) (kind s : Nat) : Prop := s < 960 ∧ c.eligibleDst s kind = true ∧ s ∉ c.barred

/-- A zone from which a slot may be chosen (R15, R17, R45). -/
def Part.zoneOpen (c : Part) (src : Nat) (ok : Nat → Bool) (z : Nat) : Prop :=
  ok z = true ∧ c.reachable (z + 1) src = true ∧ c.protective z = true

/-- Slot `s` is at least as good as slot `t` (R16). -/
def Part.preferred (c : Part) (ref s t : Nat) : Prop :=
  (c.zone (t / 60)).b < (c.zone (s / 60)).b ∨ ((c.zone (t / 60)).b = (c.zone (s / 60)).b ∧
    (dist (s / 60) ref < dist (t / 60) ref ∨ (dist (s / 60) ref = dist (t / 60) ref ∧ s ≤ t)))

/-! ### The tests said as the spec says them -/

theorem Robot.available_iff (r : Robot) :
    r.available = true ↔ r.state = .idle ∨ r.state = .busy ∨ r.state = .yielding := by
  simp [Robot.available, or_assoc]

theorem Part.storable_iff (kind s : Nat) : c.storable kind s ↔ s < 960 ∧ c.occ s = .vacant ∧
    (c.slotCfg s).enabled = true ∧ (c.flagsOf s).any = false ∧ accepts (c.slotCfg s).kinds kind = true ∧
    ∀ m ∈ c.mv.moves, m.dst = some s → m.granted = true ∧ m.kind = .scan := by
  have hbar : s ∉ c.barred ↔ ∀ m ∈ c.mv.moves, m.dst = some s → m.granted = true ∧ m.kind = .scan := by
    simp only [Part.barred, List.mem_filterMap, List.mem_filter, not_exists, not_and]
    refine forall_congr' fun m => ?_
    cases m.granted <;> by_cases hk : m.kind = .scan <;> simp [hk]
  unfold Part.storable
  rw [hbar]
  refine and_congr_right fun hs => ?_
  have hp : portOf s = none := by
    rw [portOf, if_neg (by omega)]
  simp [Part.eligibleDst, Part.eligibleSrc, hp, isSlot, hs]
  tauto

/-- A robot reaches a span without passing an unavailable one (R17). -/
def Part.reached (c : Part) (x : Side) (s : Nat) : Prop :=
  ((c.robot x).state = .idle ∨ (c.robot x).state = .busy ∨ (c.robot x).state = .yielding) ∧ 1 ≤ s ∧ s ≤ 16 ∧
    (((c.robot x.other).state = .idle ∨ (c.robot x.other).state = .busy ∨ (c.robot x.other).state = .yielding) ∨
      ((c.robot x.other).state = .disabled ∧ (c.robot x.other).held = some (x.other.park, x.other.park)) ∨
      ∃ j, (c.robot x.other).held = some j ∧
        match x with
        | .a => s + c.limits.clearSpans + 1 ≤ j.1
        | .b => j.2 + c.limits.clearSpans + 1 ≤ s)

theorem Part.reaches_iff (x : Side) (s : Nat) : c.reaches x s = true ↔ c.reached x s := by
  unfold Part.reaches Part.parked Part.reached
  simp only [← Robot.available_iff]
  cases hheld : (c.robot x.other).held <;> cases x <;> simp [keepsClear, and_assoc, or_assoc]

theorem Part.reachable_iff (s src : Nat) :
    c.reachable s src = true ↔ ∃ x, c.reaches x s = true ∧ c.reaches x src = true := by
  simp only [Part.reachable, Bool.or_eq_true, Bool.and_eq_true]
  constructor
  · rintro (h | h)
    · exact ⟨.a, h⟩
    · exact ⟨.b, h⟩
  · rintro ⟨⟨⟩, h⟩
    · exact Or.inl h
    · exact Or.inr h

theorem Part.protective_iff (z : Nat) : c.protective z = true ↔ (c.zoneCfg z).enabled = true ∧
    (c.zone z).overdue = false ∧ (c.zone z).failures ≠ 2 ∧ (c.zone z).supplyFault = false := by
  unfold Part.protective Part.zoneDisabled
  cases (c.zoneCfg z).enabled <;> cases (c.zone z).overdue <;> simp

/-- The candidates of slot choice (R14, R15, R17). -/
theorem Part.candidate_iff (kind src s : Nat) (ok : Nat → Bool) : c.storable kind s ∧ c.zoneOpen src ok (s / 60) ↔
    s < 960 ∧ c.occ s = .vacant ∧ (c.slotCfg s).enabled = true ∧ (c.flagsOf s).any = false ∧
      accepts (c.slotCfg s).kinds kind = true ∧ c.protective (s / 60) = true ∧ ok (s / 60) = true ∧
      (∃ x, c.reached x (s / 60 + 1) ∧ c.reached x src) ∧
      ∀ m ∈ c.mv.moves, m.dst = some s → m.granted = true ∧ m.kind = .scan := by
  rw [Part.storable_iff, Part.zoneOpen, Part.reachable_iff]
  simp only [Part.reaches_iff]
  tauto

/-! ### One zone -/

theorem Part.mem_occ_of_vacant {s : Nat} (h : c.occ s = .vacant) : (s, Occ.vacant) ∈ c.inv.occ := by
  unfold Part.occ Store.getD at h
  cases hf : Store.find c.inv.occ s with
  | none => rw [hf] at h; cases h
  | some o =>
    rw [hf] at h
    exact (show o = .vacant from h) ▸ Store.mem_of_find hf

/-- The candidate of a zone is its lowest storable slot. -/
theorem Part.candidateIn_some (hs : c.sound) {kind z s : Nat} (h : c.candidateIn kind z = some s) :
    c.protective z = true ∧ s / 60 = z ∧ c.storable kind s ∧ ∀ t, c.storable kind t → t / 60 = z → s ≤ t := by
  simp only [Part.candidateIn, Option.ite_none_right_eq_some, Option.map_eq_some_iff] at h
  obtain ⟨hz, e, he, rfl⟩ := h
  obtain ⟨hp, before, after, hocc, hbefore⟩ := List.find?_eq_some_iff_append.1 he
  simp only [Bool.and_eq_true, beq_iff_eq, isSlot, decide_eq_true_eq, Bool.not_eq_true', List.contains_eq_mem,
    decide_eq_false_iff_not, columnOf] at hp
  obtain ⟨⟨⟨hslot, hcol⟩, hel⟩, hbar⟩ := hp
  refine ⟨hz, hcol, ⟨hslot, hel, hbar⟩, fun t ⟨htslot, htel, htbar⟩ htz => ?_⟩
  have hrise := (Store.rising_iff _).1 (Store.rising_of_wf hs.occ)
  have htmem : (t, Occ.vacant) ∈ c.inv.occ :=
    Part.mem_occ_of_vacant (((Part.storable_iff kind t).1 ⟨htslot, htel, htbar⟩).2.1)
  rw [hocc, List.mem_append, List.mem_cons] at htmem
  rw [hocc, List.map_append, List.map_cons, List.pairwise_append, List.pairwise_cons] at hrise
  obtain hb | hb | hb := htmem
  · have := hbefore _ hb
    simp [isSlot, columnOf, htslot, htz, htel, htbar] at this
  · exact (congrArg Prod.fst hb).ge
  · exact (hrise.2.1.1 t (List.mem_map_of_mem hb)).le

theorem Part.candidateIn_none {kind z t : Nat} (h : c.candidateIn kind z = none) (hz : c.protective z = true)
    (ht : c.storable kind t) : t / 60 ≠ z := by
  rintro rfl
  obtain ⟨htslot, htel, htbar⟩ := id ht
  simp only [Part.candidateIn, hz, if_true, Option.map_eq_none_iff, List.find?_eq_none] at h
  have := h _ (Part.mem_occ_of_vacant ((Part.storable_iff kind t).1 ht).2.1)
  simp [isSlot, columnOf, htslot, htel, htbar] at this

/-! ### The zones -/

/-- What slot choice has found in the zones below `n`. -/
def Part.bestBelow (c : Part) (kind ref src : Nat) (ok : Nat → Bool) (n : Nat) : Option Nat → Prop
  | none => ∀ t, c.storable kind t → c.zoneOpen src ok (t / 60) → n ≤ t / 60
  | some s => c.storable kind s ∧ c.zoneOpen src ok (s / 60) ∧ s / 60 < n ∧
    ∀ t, c.storable kind t → c.zoneOpen src ok (t / 60) → t / 60 < n → c.preferred ref s t

theorem Part.bestBelow.closed {kind ref src n : Nat} {ok : Nat → Bool} {best : Option Nat}
    (h : c.bestBelow kind ref src ok n best)
    (hn : ∀ t, c.storable kind t → c.zoneOpen src ok (t / 60) → t / 60 ≠ n) :
    c.bestBelow kind ref src ok (n + 1) best := by
  cases best with
  | none => exact fun t ht hz => Nat.lt_of_le_of_ne (h t ht hz) (hn t ht hz).symm
  | some s =>
    obtain ⟨hs, hz, hlt, hall⟩ := h
    exact ⟨hs, hz, by omega, fun t ht htz hlt => hall t ht htz (by have := hn t ht htz; omega)⟩

/-- A zone's candidate is at least as good as every other slot of its zone. -/
theorem Part.candidateIn_preferred (hsound : c.sound) {kind ref s t : Nat} (hs : c.candidateIn kind (s / 60) = some s)
    (ht : c.storable kind t) (e : t / 60 = s / 60) : c.preferred ref s t := by
  obtain ⟨-, -, -, hlow⟩ := Part.candidateIn_some hsound hs
  unfold Part.preferred
  rw [e]
  exact Or.inr ⟨rfl, Or.inr ⟨rfl, hlow t ht e⟩⟩

/-- The first candidate found is the best so far. -/
theorem Part.bestBelow.first (hsound : c.sound) {kind ref src n s : Nat} {ok : Nat → Bool}
    (h : c.bestBelow kind ref src ok n none) (hz : ok n = true ∧ c.reachable (n + 1) src = true)
    (hs : c.candidateIn kind n = some s) : c.bestBelow kind ref src ok (n + 1) (some s) := by
  obtain ⟨hprot, rfl, hstore, -⟩ := Part.candidateIn_some hsound hs
  refine ⟨hstore, ⟨hz.1, hz.2, hprot⟩, by omega, fun t ht htz hlt => ?_⟩
  have hge := h t ht htz
  exact Part.candidateIn_preferred hsound hs ht (by omega)

/-- A zone's candidate takes the place of the best below it where it is better, and else stands behind it. -/
theorem Part.bestBelow.next (hsound : c.sound) {kind ref src n s t : Nat} {ok : Nat → Bool}
    (h : c.bestBelow kind ref src ok n (some t)) (hz : ok n = true ∧ c.reachable (n + 1) src = true)
    (hs : c.candidateIn kind n = some s) :
    c.bestBelow kind ref src ok (n + 1) (if (c.zone (columnOf t)).b < (c.zone n).b ∨
      ((c.zone (columnOf t)).b = (c.zone n).b ∧ dist n ref < dist (columnOf t) ref) then some s else some t) := by
  obtain ⟨hprot, rfl, hstore, -⟩ := Part.candidateIn_some hsound hs
  obtain ⟨ht, htz, htlt, hall⟩ := h
  unfold columnOf
  by_cases hbetter : (c.zone (t / 60)).b < (c.zone (s / 60)).b ∨
      ((c.zone (t / 60)).b = (c.zone (s / 60)).b ∧ dist (s / 60) ref < dist (t / 60) ref)
  · rw [if_pos hbetter]
    refine ⟨hstore, ⟨hz.1, hz.2, hprot⟩, by omega, fun u hu huz hlt => ?_⟩
    rcases Nat.lt_succ_iff_lt_or_eq.1 hlt with hlt | heq
    · have := hall u hu huz hlt
      unfold Part.preferred at *
      omega
    · exact Part.candidateIn_preferred hsound hs hu heq
  · rw [if_neg hbetter]
    refine ⟨ht, htz, by omega, fun u hu huz hlt => ?_⟩
    rcases Nat.lt_succ_iff_lt_or_eq.1 hlt with hlt | heq
    · exact hall u hu huz hlt
    · unfold Part.preferred
      rw [heq]
      omega

/-- Slot choice finds the best slot of all zones. -/
theorem Part.chooseSlot_best (hs : c.sound) (kind ref src : Nat) (ok : Nat → Bool) :
    c.bestBelow kind ref src ok 16 (c.chooseSlot kind ref src ok) := by
  unfold Part.chooseSlot
  dsimp only
  induction 16 with
  | zero => exact fun t _ _ => Nat.zero_le _
  | succ n ih =>
    rw [List.range_succ, List.foldl_append, List.foldl_cons, List.foldl_nil]
    set best := (List.range n).foldl _ none
    by_cases hz : ok n = true ∧ c.reachable (n + 1) src = true
    · rw [if_pos (by simp [hz])]
      cases hc : c.candidateIn kind n with
      | none => exact ih.closed fun t ht htz e => Part.candidateIn_none hc (e ▸ htz.2.2) ht e
      | some s =>
        cases hb : best with
        | none => exact (hb ▸ ih).first hs hz hc
        | some t => simpa using (hb ▸ ih).next hs hz hc
    · rw [if_neg (by simpa using hz)]
      exact ih.closed fun t _ htz e => hz ⟨e ▸ htz.1, e ▸ htz.2.1⟩

/-- The slot taken is the one that is at least as good as every other. -/
theorem Part.chooseSlot_iff (hs : c.sound) (kind ref src : Nat) (ok : Nat → Bool) :
    (c.chooseSlot kind ref src ok = none ↔ ∀ s, ¬(c.storable kind s ∧ c.zoneOpen src ok (s / 60))) ∧
    ∀ s, c.chooseSlot kind ref src ok = some s ↔ (c.storable kind s ∧ c.zoneOpen src ok (s / 60)) ∧
      ∀ t, c.storable kind t ∧ c.zoneOpen src ok (t / 60) → c.preferred ref s t := by
  have hbest := Part.chooseSlot_best hs kind ref src ok
  have hlt : ∀ t, c.storable kind t → t / 60 < 16 := fun t ht => by
    have := ht.1
    omega
  cases h : c.chooseSlot kind ref src ok with
  | none =>
    rw [h] at hbest
    have hno : ∀ s, ¬(c.storable kind s ∧ c.zoneOpen src ok (s / 60)) := fun s ⟨h1, h2⟩ => by
      have := hbest s h1 h2
      have := hlt s h1
      omega
    exact ⟨iff_of_true rfl hno, fun s => iff_of_false nofun fun e => hno s e.1⟩
  | some b =>
    rw [h] at hbest
    obtain ⟨hb, hbz, -, hall⟩ := hbest
    refine ⟨iff_of_false nofun fun e => e b ⟨hb, hbz⟩, fun s => ⟨?_, fun ⟨⟨hs1, hsz⟩, hsall⟩ => ?_⟩⟩
    · rintro ⟨⟩
      exact ⟨⟨hb, hbz⟩, fun t ⟨ht, htz⟩ => hall t ht htz (hlt t ht)⟩
    · have h1 := hall s hs1 hsz (hlt s hs1)
      have h2 := hsall b ⟨hb, hbz⟩
      unfold Part.preferred at h1 h2
      exact congrArg some (by omega)

end Sys2Proof.Machine
end

section
open Sys2Proof Sys2Proof.Machine

/-- Settles O54, from the fold over the zones and the tests it applies. -/
theorem slotChoice : Obligations.SlotChoice := by
  intro c kind ref src ok hs
  obtain ⟨hnone, hsome⟩ := Part.chooseSlot_iff hs kind ref src ok
  have hcand := fun s => Part.candidate_iff (c := c) kind src s ok
  exact ⟨hnone.trans (forall_congr' fun s => not_congr (hcand s)),
    fun s => (hsome s).trans (and_congr (hcand s) (forall_congr' fun t => imp_congr_left (hcand t))),
    fun z _ => Part.protective_iff z⟩

end

section
/-! SUPPORT. Admission: the checks of R112 said as the spec says them, the number given, the robot and its planned span. -/

namespace Sys2Proof.Machine

variable {c : Part}

/-! ### The locations (R112) -/

/-- A location that moves may name, in service where it is a slot (R3, R14). -/
def Part.usable (c : Part) (l : Nat) : Prop :=
  (960 ≤ l ∧ l < 968 ∧ (c.portCfg (l - 960)).inPlan = true) ∨
    (l < 960 ∧ (c.slotCfg l).enabled = true ∧ (c.flagsOf l).any = false)

/-- The pod kinds a location accepts (R14). -/
def Part.kindsAt (c : Part) (l : Nat) : BitVec 4 := if l < 960 then (c.slotCfg l).kinds else (c.portCfg (l - 960)).kinds

/-- The source column of the table of R112; `s` is the state of the pod's record. -/
def MoveKind.leaves (k : MoveKind) (l : Nat) (s : Option RState) : Prop :=
  match k with
  | .deliver | .relocate => l < 960 ∧ s = some .idle
  | .cross => 960 ≤ l ∧ s = some .returned
  | .store => 960 ≤ l ∧ (s = some .returned ∨ s = none)
  | .manual => s = some .idle ∨ s = some .returned ∨ s = none
  | .scan => False

/-- The destination column of the table of R112. -/
def MoveKind.reaches (k : MoveKind) (l : Nat) : Prop :=
  match k with
  | .deliver | .cross => 960 ≤ l
  | .store | .relocate => l < 960
  | .manual => True
  | .scan => False

/-- The pod that stands at a location: its record with the record's state, or one of no record. -/
def Part.stands (c : Part) (l : Nat) (n : Option Nat) (s : Option RState) : Prop :=
  (∃ k v r, c.occ l = .occupied k v ∧ c.rec? k = some r ∧ n = some k ∧ s = some r.state) ∨
    (∃ k, c.occ l = .foreign k ∧ n = none ∧ s = none)

/-- The fourth check of R112 for a SCAN. -/
def Part.scanFits (c : Part) (q : Ask) (n : Option Nat) : Prop :=
  q.kind = .scan ∧ n = none ∧ ∃ l, q.dst = some l ∧ l < 968 ∧ (960 ≤ l → (c.portCfg (l - 960)).inPlan = true)

/-- The fourth check of R112 for a move that carries a pod. -/
def Part.carryFits (c : Part) (q : Ask) (n : Option Nat) : Prop :=
  q.kind ≠ .scan ∧ ∃ l s, q.src = some l ∧ c.stands l n s ∧ q.kind.leaves l s ∧ c.usable l ∧
    (∀ m ∈ c.mv.moves, m.src ≠ some l ∧ (n ≠ none → m.reticle ≠ n)) ∧
    match q.dst with
    | none => q.kind = .store ∨ q.kind = .relocate
    | some d => d ≠ l ∧ q.kind.reaches d ∧ c.usable d ∧ c.occ d = .vacant ∧
        accepts (c.kindsAt d) (c.kindOf n q.podKind) = true ∧ ∀ m ∈ c.mv.moves, m.dst ≠ some d

theorem portOf_slot {l : Nat} (h : l < 960) : portOf l = none := by
  rw [portOf, if_neg (by omega)]

theorem portOf_position {l : Nat} (h : 960 ≤ l) (h' : l < 968) : portOf l = some (l - 960) := by
  rw [portOf, if_pos ⟨h, h'⟩]

theorem portOf_hand {l : Nat} (h : 968 ≤ l) : portOf l = none := by
  rw [portOf, if_neg (by omega)]

theorem Part.eligibleSrc_iff (l : Nat) : c.eligibleSrc l = true ↔ c.usable l := by
  unfold Part.eligibleSrc Part.usable isSlot
  rcases Nat.lt_or_ge l 960 with h | h
  · simp [portOf_slot h, h, Nat.not_le.2 h]
  · rcases Nat.lt_or_ge l 968 with h' | h'
    · simp [portOf_position h h', h, h', Nat.not_lt.2 h]
    · simp [portOf_hand h', Nat.not_lt.2 h, Nat.not_lt.2 h']

theorem Part.eligibleDst_iff (l kind : Nat) :
    c.eligibleDst l kind = true ↔ c.usable l ∧ c.occ l = .vacant ∧ accepts (c.kindsAt l) kind = true := by
  unfold Part.eligibleDst Part.kindsAt
  rw [Bool.and_eq_true, Bool.and_eq_true, Part.eligibleSrc_iff, and_assoc, decide_eq_true_eq]
  refine and_congr_right fun hu => and_congr_right fun _ => ?_
  rcases Nat.lt_or_ge l 960 with h | h
  · simp [portOf_slot h, h]
  · have h' : l < 968 := by
      unfold Part.usable at hu
      omega
    simp [portOf_position h h', Nat.not_lt.2 h]

theorem Part.podStanding_iff (l : Nat) (n : Option Nat) (s : Option RState) :
    c.stands l n s ↔ ∃ pod, c.podStanding l = some pod ∧ n = pod.map Prod.fst ∧ s = pod.map Prod.snd := by
  unfold Part.stands Part.podStanding
  cases ho : c.occ l with
  | occupied k v => cases hr : c.rec? k <;> simp [hr]
  | foreign k => simp
  | _ => simp

theorem sourceFits_iff {l : Nat} (h : c.usable l) (k : MoveKind) (pod : Option (Nat × RState)) :
    sourceFits k l pod = true ↔ k.leaves l (pod.map Prod.snd) := by
  have hl : l < 968 := by
    unfold Part.usable at h
    omega
  have hp : (portOf l).isSome = true ↔ 960 ≤ l := by
    rcases Nat.lt_or_ge l 960 with h' | h'
    · simp [portOf_slot h', h']
    · simp [portOf_position h' hl, h']
  cases k <;> cases pod with
  | none => simp [sourceFits, MoveKind.leaves, isPlace, hl, hp]
  | some e =>
    obtain ⟨n, s⟩ := e
    cases s <;> simp [sourceFits, MoveKind.leaves, isPlace, isSlot, hl, hp]

theorem destFits_iff {l d : Nat} (h : c.usable d) (k : MoveKind) : destFits k l d = true ↔ d ≠ l ∧ k.reaches d := by
  have hd : d < 968 := by
    unfold Part.usable at h
    omega
  have hp : (portOf d).isSome = true ↔ 960 ≤ d := by
    rcases Nat.lt_or_ge d 960 with h' | h'
    · simp [portOf_slot h', h']
    · simp [portOf_position h' hd, h']
  unfold destFits
  rw [Bool.and_eq_true, bne_iff_ne, ne_comm]
  refine and_congr_right fun _ => ?_
  cases k <;> simp [MoveKind.reaches, isPlace, isSlot, hd, hp]

theorem Part.locationsFit_scan (q : Ask) (n : Option Nat) (hk : q.kind = .scan) :
    c.locationsFit q = some n ↔ c.scanFits q n := by
  have hplan : ∀ l, isPlace l = true ∧ c.inPlanAt l = true ↔
      l < 968 ∧ (960 ≤ l → (c.portCfg (l - 960)).inPlan = true) := fun l => by
    unfold isPlace Part.inPlanAt
    rw [decide_eq_true_eq]
    refine and_congr_right fun hl => ?_
    rcases Nat.lt_or_ge l 960 with h | h
    · simp [portOf_slot h, Nat.not_le.2 h]
    · simp [portOf_position h hl, h]
  unfold Part.locationsFit Part.scanFits
  rw [hk]
  cases hd : q.dst with
  | none => simp
  | some d =>
    dsimp only
    rw [Option.ite_none_right_eq_some, Bool.and_eq_true, hplan]
    constructor
    · rintro ⟨h, ⟨⟩⟩
      exact ⟨rfl, rfl, d, rfl, h⟩
    · rintro ⟨-, rfl, l, ⟨⟩, h⟩
      exact ⟨h, rfl⟩

/-- The test of a destination, named or to be chosen. -/
def Part.destinationFits (c : Part) (q : Ask) (l : Nat) (n : Option Nat) : Bool :=
  match q.dst with
  | some d => destFits q.kind l d && c.eligibleDst d (c.kindOf n q.podKind) && !(c.reserved.contains d)
  | none => q.kind = .store || q.kind = .relocate

/-- The test of a source and of the pod that stands there. -/
def Part.sourceFree (c : Part) (q : Ask) (l : Nat) (pod : Option (Nat × RState)) : Bool :=
  sourceFits q.kind l pod && c.eligibleSrc l && !(c.mv.moves.any fun m => m.src == some l) &&
    match pod.map (·.1) with
    | some n => !c.inMove n
    | none => true

theorem Part.locationsFit_eq (q : Ask) {l : Nat} (hk : q.kind ≠ .scan) (hsrc : q.src = some l) :
    c.locationsFit q = (c.podStanding l).bind fun pod =>
      if c.sourceFree q l pod && c.destinationFits q l (pod.map (·.1)) then some (pod.map (·.1)) else none := by
  unfold Part.locationsFit Part.sourceFree Part.destinationFits
  rw [hsrc]
  cases hq : q.kind with
  | scan => exact absurd hq hk
  | _ => cases q.dst <;> dsimp only <;> cases c.podStanding l <;> rfl

theorem Part.sourceFree_iff (q : Ask) (l : Nat) (pod : Option (Nat × RState)) : c.sourceFree q l pod = true ↔
    q.kind.leaves l (pod.map Prod.snd) ∧ c.usable l ∧
      ∀ m ∈ c.mv.moves, m.src ≠ some l ∧ (pod.map Prod.fst ≠ none → m.reticle ≠ pod.map Prod.fst) := by
  have hfits : sourceFits q.kind l pod = true ∧ c.usable l ↔ q.kind.leaves l (pod.map Prod.snd) ∧ c.usable l :=
    and_congr_left fun hu => sourceFits_iff hu q.kind pod
  unfold Part.sourceFree
  rw [Bool.and_eq_true, Bool.and_eq_true, Bool.and_eq_true, Part.eligibleSrc_iff, hfits, and_assoc, and_assoc,
    forall₂_and]
  refine and_congr_right fun _ => and_congr_right fun _ => and_congr (by simp) ?_
  cases pod <;> simp [Part.inMove]

theorem Part.destinationFits_iff (q : Ask) (l : Nat) (n : Option Nat) : c.destinationFits q l n = true ↔
    match q.dst with
    | none => q.kind = .store ∨ q.kind = .relocate
    | some d => d ≠ l ∧ q.kind.reaches d ∧ c.usable d ∧ c.occ d = .vacant ∧
        accepts (c.kindsAt d) (c.kindOf n q.podKind) = true ∧ ∀ m ∈ c.mv.moves, m.dst ≠ some d := by
  unfold Part.destinationFits
  cases q.dst with
  | none => simp
  | some d =>
    have hres : (!(c.reserved.contains d)) = true ↔ ∀ m ∈ c.mv.moves, m.dst ≠ some d := by
      simp [Part.reserved]
    have hfits : destFits q.kind l d = true ∧ c.usable d ↔ (d ≠ l ∧ q.kind.reaches d) ∧ c.usable d :=
      and_congr_left fun hu => destFits_iff hu q.kind
    dsimp only
    rw [Bool.and_eq_true, Bool.and_eq_true, Part.eligibleDst_iff, hres]
    tauto

theorem Part.locationsFit_carry (q : Ask) (n : Option Nat) (hk : q.kind ≠ .scan) :
    c.locationsFit q = some n ↔ c.carryFits q n := by
  unfold Part.carryFits
  rw [and_iff_right hk]
  cases hsrc : q.src with
  | none =>
    have hnone : c.locationsFit q = none := by
      unfold Part.locationsFit
      rw [hsrc]
      cases hq : q.kind with
      | scan => exact absurd hq hk
      | _ => rfl
    simp [hnone]
  | some l =>
    rw [Part.locationsFit_eq q hk hsrc]
    simp only [Part.podStanding_iff, Option.bind_eq_some_iff, Option.ite_none_right_eq_some, Bool.and_eq_true,
      Part.sourceFree_iff, Part.destinationFits_iff]
    constructor
    · rintro ⟨pod, hpod, ⟨⟨hleaves, husable, hmoves⟩, hdest⟩, ⟨⟩⟩
      exact ⟨l, _, rfl, ⟨pod, hpod, rfl, rfl⟩, hleaves, husable, hmoves, hdest⟩
    · rintro ⟨k, s, ⟨⟩, ⟨pod, hpod, rfl, rfl⟩, hleaves, husable, hmoves, hdest⟩
      exact ⟨pod, hpod, ⟨⟨hleaves, husable, hmoves⟩, hdest⟩, rfl⟩

theorem Part.locationsFit_iff (q : Ask) (n : Option Nat) :
    c.locationsFit q = some n ↔ c.scanFits q n ∨ c.carryFits q n := by
  by_cases hk : q.kind = .scan
  · rw [Part.locationsFit_scan q n hk, or_iff_left fun h => h.1 hk]
  · rw [Part.locationsFit_carry q n hk, or_iff_right fun h => hk h.1]

/-! ### The robot (R113) -/

/-- The robot a move is assigned to. -/
def Part.takes (c : Part) (own : Option Side) (span : Nat) (x : Side) : Prop :=
  (c.robot x).available = true ∧ (own = some x ∨ (own = none ∧ ((c.robot x.other).available = true →
    match x with
    | .a => ¬dist (c.plannedSpan .b) span < dist (c.plannedSpan .a) span
    | .b => dist (c.plannedSpan .b) span < dist (c.plannedSpan .a) span)))

theorem Part.assign_iff (own : Option Side) (span : Nat) (x : Side) :
    c.assign own span = some x ↔ c.takes own span x := by
  unfold Part.assign Part.takes
  cases own with
  | some y =>
    by_cases hy : (c.robot y).available = true
    · simp [hy]
      rintro rfl
      exact hy
    · simp [hy]
      rintro h rfl
      exact hy h
  | none =>
    have ha : c.robot .a = c.mv.robotA := rfl
    have hb : c.robot .b = c.mv.robotB := rfl
    cases x <;> cases hA : c.mv.robotA.available <;> cases hB : c.mv.robotB.available <;>
      by_cases hd : dist (c.plannedSpan .b) span < dist (c.plannedSpan .a) span <;>
      simp [ha, hb, hA, hB, hd, Side.other]

/-! ### The number (R111) -/

/-- The number given is the first free one. -/
theorem Part.nextNumber_first (h : c.mv.moves.length < 256) : ∃ i < 256, c.nextNumber = (c.mv.nextNum + i) % 256 ∧
    (∀ k ∈ c.mv.moves, k.num ≠ c.nextNumber) ∧
    ∀ i' < i, ∃ k ∈ c.mv.moves, k.num = (c.mv.nextNum + i') % 256 := by
  obtain ⟨hlt, hfresh⟩ := Part.nextNumber_fresh h
  cases hfind : (List.range 256).find? fun i => !(c.mv.moves.any fun m => m.num == (c.mv.nextNum + i) % 256) with
  | none =>
    -- every number would be carried, and the one given among them
    have hnum : c.nextNumber = c.mv.nextNum := by
      unfold Part.nextNumber
      rw [List.find?_map]
      exact congrArg (fun o => (Option.map _ o).getD _) hfind
    have hall := List.find?_eq_none.1 hfind 0 (List.mem_range.2 (by omega))
    rw [hnum] at hlt hfresh
    simp only [Nat.add_zero, Nat.mod_eq_of_lt hlt, Bool.not_eq_true', Bool.not_eq_false, List.any_eq_true,
      beq_iff_eq] at hall
    obtain ⟨m, hm, e⟩ := hall
    exact absurd e (hfresh m hm)
  | some i =>
    obtain ⟨hi, hlt, hbefore⟩ := List.find?_range_eq_some.1 hfind
    have hnum : c.nextNumber = (c.mv.nextNum + i) % 256 := by
      unfold Part.nextNumber
      rw [List.find?_map]
      exact congrArg (fun o => (Option.map _ o).getD _) hfind
    refine ⟨i, List.mem_range.1 hlt, hnum, hfresh, fun i' hi' => ?_⟩
    simpa using hbefore i' hi'

/-! ### The planned span (R113) -/

theorem Part.plannedSpan_of_latest {x : Side} {older newer : List Move} {m : Move} {l : Nat}
    (hmoves : c.mv.moves = older ++ m :: newer) (hx : m.robot = x) (hm : m.state ≠ .held)
    (hnewer : ∀ k ∈ newer, k.robot = x → k.state = .held) (hl : (m.dst <|> m.src) = some l) :
    c.plannedSpan x = c.tables.spanAt l := by
  have hlast : (c.mv.moves.filter fun m => m.robot = x ∧ m.state ≠ .held).getLast? = some m := by
    have hnone : newer.filter (fun m => decide (m.robot = x ∧ m.state ≠ .held)) = [] := by
      simpa [List.filter_eq_nil_iff] using hnewer
    rw [hmoves, List.filter_append, List.filter_cons_of_pos (by simp [hx, hm]), hnone]
    simp
  unfold Part.plannedSpan
  rw [hlast]
  dsimp only
  rw [hl]

theorem Part.plannedSpan_of_none {x : Side} (h : ∀ m ∈ c.mv.moves, m.robot = x → m.state = .held) :
    (∀ t, (c.robot x).state = .yielding → (c.robot x).yieldTo = some t → c.plannedSpan x = t.1) ∧
      ∀ s, (c.robot x).state ≠ .yielding → (c.robot x).span = some s → c.plannedSpan x = s := by
  have hnone : c.mv.moves.filter (fun m => decide (m.robot = x ∧ m.state ≠ .held)) = [] := by
    simpa [List.filter_eq_nil_iff] using h
  unfold Part.plannedSpan
  rw [hnone]
  refine ⟨fun t hy ht => by simp [hy, ht], fun s hy hs => ?_⟩
  dsimp only [List.getLast?_nil]
  rw [hs]
  split
  · exact absurd ‹_› hy
  · rfl

/-! ### The move admitted (R110, R111) -/

theorem Part.hasRoom_iff (k : MoveKind) : c.hasRoom k = true ↔
    match k with
    | .deliver | .store | .cross => c.mv.moves.length < 24
    | .relocate | .scan | .manual => c.mv.moves.length < 16 := by
  cases k <;> simp only [Part.hasRoom, decide_eq_true_eq] <;> unfold Part.freeMoves <;> omega

theorem Part.enlist_mv (m : Move) : (c.enlist m).mv = { c.mv with
    moves := c.mv.moves ++ [if c.watchHolds m then { m with state := .held } else m]
    nextNum := (m.num + 1) % 256, lastSeq := m.seq } := by
  have hwatch : ∀ (d : Part) k, (d.watchHold k).mv = d.mv := fun _ _ => rfl
  unfold Part.enlist
  dsimp only
  cases m.reticle <;> split <;> simp [hwatch]

theorem Part.giveKind_mv (m : Move) : (c.giveKind m).mv = c.mv := by
  unfold Part.giveKind
  split <;> rfl

/-- The move an ask becomes, PENDING or HELD by the BEFORE evaluation (R114). -/
def Part.admitted (c : Part) (q : Ask) (x : Side) (n : Option Nat) (d : Nat) : Move :=
  { c.moveOf q x n (some d) with
    state := if c.watchHolds (c.moveOf q x n (some d)) then .held else .pending }

theorem Part.admitted_eq (q : Ask) (x : Side) (n : Option Nat) (d : Nat) : c.admitted q x n d =
    { num := (c.admitted q x n d).num, seq := c.mv.lastSeq + 1, kind := q.kind, robot := x, src := q.src, dst := some d
      refColumn := if q.dst = none then some q.ref else none, reticle := n
      podKind := if n = none ∧ q.kind ≠ .scan then some q.podKind else none
      owner := q.owner, state := if c.watchHolds (c.admitted q x n d) then .held else .pending, express := q.express
      passed := false, putBack := false, pickRead := none, dispatched := none, ready := q.ready, forced := q.forced } := by
  have hwatch : c.watchHolds (c.admitted q x n d) = c.watchHolds (c.moveOf q x n (some d)) := rfl
  have href : (if q.dst.isNone then some q.ref else none) = if q.dst = none then some q.ref else none := by
    simp [Option.isNone_iff_eq_none]
  have hpod : (if n.isNone && q.kind != .scan then some q.podKind else none) =
      if n = none ∧ q.kind ≠ .scan then some q.podKind else none := by simp
  rw [hwatch, ← href, ← hpod]
  rfl

theorem Part.admitted_mv (q : Ask) (x : Side) (n : Option Nat) (d : Nat) :
    ((c.enlist (c.moveOf q x n (some d))).giveKind (c.moveOf q x n (some d))).mv = { c.mv with
      moves := c.mv.moves ++ [c.admitted q x n d]
      nextNum := (c.nextNumber + 1) % 256, lastSeq := c.mv.lastSeq + 1 } := by
  rw [Part.giveKind_mv, Part.enlist_mv, Part.admitted]
  cases c.watchHolds (c.moveOf q x n (some d)) <;> rfl

/-- The destination of an admitted move: the one named, or the one chosen (R15, R112). -/
def Part.destinationOf (c : Part) (q : Ask) (n : Option Nat) (span : Nat) : Option Nat :=
  match q.dst with
  | some d => some d
  | none => c.chooseSlot (c.kindOf n q.podKind) q.ref span fun _ => true

/-- The span of a move's source, or of the location a SCAN reads (R113). -/
def Part.askSpan (c : Part) (q : Ask) : Nat :=
  match q.src <|> q.dst with
  | some l => c.tables.columnAt l + 1
  | none => 0

/-- The checks of an ask in their order (R112). -/
theorem Part.admitAsk_eq (q : Ask) : c.admitAsk q =
    if !c.ctl.mode.admits then .error .wrongMode
    else if !c.hasRoom q.kind then .error .busy
    else match c.assign q.robot (c.askSpan q) with
      | none => .error .noRobot
      | some x => match c.locationsFit q with
        | none => .error .wrongState
        | some n => match c.destinationOf q n (c.askSpan q) with
          | none => .error .noSlot
          | some d => .ok ((c.enlist (c.moveOf q x n (some d))).giveKind (c.moveOf q x n (some d)), c.admitted q x n d) :=
  rfl

end Sys2Proof.Machine
end

section
open Sys2Proof Sys2Proof.Machine

/-- Settles O53, from the checks of an ask, each said as the spec says it. -/
theorem admissionRules : Obligations.AdmissionRules := by
  intro c q hs
  have havail : ∀ x, (c.robot x).available = true ↔ (c.robot x).state = .idle ∨ (c.robot x).state = .busy ∨
    (c.robot x).state = .yielding := fun x => Robot.available_iff (c.robot x)
  have htakes : ∀ x, c.assign q.robot (c.askSpan q) = some x ↔ _ := fun x => Part.assign_iff q.robot (c.askSpan q) x
  have hfits := fun n => Part.locationsFit_iff (c := c) q n
  simp only [Part.takes, havail] at htakes
  have hroom := Part.hasRoom_iff (c := c) q.kind
  refine ⟨fun hm => ?_, fun hm hr => ?_, fun hm hr hx => ?_, fun hm hr x hx => ⟨fun hf => ?_, fun n hf hd => ?_,
    fun n d hf hd => ?_⟩, fun x => ⟨fun older m newer hmoves hx hm hnewer => ⟨fun l hl => ?_, fun l hd hl => ?_⟩,
    fun h => Part.plannedSpan_of_none h⟩⟩
  · simp [Part.admitAsk_eq, hm]
  · have hr' : c.hasRoom q.kind = false := Bool.eq_false_iff.2 fun h => hr (hroom.1 h)
    simp [Part.admitAsk_eq, hm, hr']
  · have hnone : c.assign q.robot (c.askSpan q) = none :=
      Option.eq_none_iff_forall_ne_some.2 fun x h => hx x ((htakes x).1 h)
    simp [Part.admitAsk_eq, hm, hroom.2 hr, hnone]
  · have hnone : c.locationsFit q = none := Option.eq_none_iff_forall_ne_some.2 fun n h => hf n ((hfits n).1 h)
    simp [Part.admitAsk_eq, hm, hroom.2 hr, (htakes x).2 hx, hnone]
  · have hdest : c.destinationOf q n (c.askSpan q) = none := hd
    simp [Part.admitAsk_eq, hm, hroom.2 hr, (htakes x).2 hx, (hfits n).2 hf, hdest]
  · have hdest : c.destinationOf q n (c.askSpan q) = some d := hd
    refine ⟨_, c.admitted q x n d, by
      simp [Part.admitAsk_eq, hm, hroom.2 hr, (htakes x).2 hx, (hfits n).2 hf, hdest], Part.admitted_mv q x n d, Part.nextNumber_first ?_, ?_⟩
    · have := Part.room_length (hroom.2 hr)
      omega
    · exact Part.admitted_eq q x n d
  · exact Part.plannedSpan_of_latest hmoves hx hm hnewer (by simp [hl])
  · exact Part.plannedSpan_of_latest hmoves hx hm hnewer (by simp [hd, hl])

end

section
/-! SUPPORT. The values after a cold start (R190): the blocks as the enumeration begins, with nothing left to be done. -/

namespace Sys2Proof.Machine

/-- A filtered table of rising keys gives what passes the filter. -/
theorem Store.find_filter {α : Type} {m : Store α} (h : Store.rising m = true) (p : Nat × α → Bool) (k : Nat) :
    Store.find (m.filter p) k = (Store.find m k).filter fun v => p (k, v) := by
  cases hk : Store.find m k with
  | none =>
    refine Store.find_none fun v hv => ?_
    rw [Store.find_of_mem h (List.mem_filter.1 hv).1] at hk
    cases hk
  | some v =>
    cases hp : p (k, v) with
    | true => simpa [Option.filter, hp] using Store.find_of_mem (Store.rising_filter h p) (List.mem_filter.2 ⟨Store.mem_of_find hk, hp⟩)
    | false =>
      simp only [Option.filter, hp, Bool.false_eq_true, if_false]
      refine Store.find_none fun w hw => ?_
      obtain ⟨hw, hpw⟩ := List.mem_filter.1 hw
      obtain rfl : v = w := Option.some.inj (hk.symm.trans (Store.find_of_mem h hw))
      rw [hp] at hpw
      cases hpw

/-! ### The blocks -/

/-- The Mode Controller as a cold start's enumeration begins (R178, R190). -/
def coldCtl (e p bad : Bool) : ModeController := ⟨.start, none, false, FailCauses.none, e, p, e, p, true, bad, false⟩

/-- The notices of the sampled lines (R183). -/
def coldOut (e p : Bool) : List Subject :=
  (if e then [.interlock .enclosure true .start] else []) ++ if p then [.interlock .stop true .start] else []

/-- The blocks as a cold start leaves them, the FAULT summary apart. -/
def Part.coldReady (x : Tables × List Nat × Bool) (e p : Bool) (a : Nat) (rest : List Nat) : Part :=
  { Part.coldWith x.1 x.2.1 x.2.2 with
    bus := ⟨coldRoster x.1.plan, some ⟨.cold, rest⟩, some (.rollCall a), 0, 0, none⟩
    ctl := coldCtl e p x.2.2
    out := coldOut e p }

theorem Part.abortPasses_of_none {c : Part} (h : ∀ z, (c.zone z).pass = none) : c.abortPasses = c := by
  unfold Part.abortPasses Part.each
  generalize List.range 16 = l
  induction l with
  | nil => rfl
  | cons z l ih =>
    rw [List.foldl_cons, show c.abortPass z = c by simp [Part.abortPass, h]]
    exact ih

/-- The record of an enabled zone at cold start. -/
def coldZone (t : ZoneTable) : Zone := { Zone.cold with timer := some (60 * t.sched.tInt) }

theorem coldZones_eq (t : ZoneTable) :
    coldZones t = (t.zones.filter fun e => e.2.enabled).map fun e => (e.1, coldZone t) := rfl

theorem coldZones_zone (t : ZoneTable) (h : Store.rising t.zones = true) (z : Nat) :
    Store.getD Zone.cold (coldZones t) z = ⟨-1, if (Store.getD ZoneCfg.default t.zones z).enabled
      then some (60 * t.sched.tInt) else none, none, 0, false, 0, false, false, false, false⟩ := by
  unfold Store.getD
  rw [coldZones_eq, Store.find_map _ (fun _ => coldZone t), Store.find_filter h]
  cases hz : Store.find t.zones z with
  | none => rfl
  | some g => cases hg : g.enabled <;> simp [Option.filter, hg, coldZone, Zone.cold]

theorem coldRoster_find (t : Store PlanEntry) (h : Store.rising t = true) (a : Nat) (n : Node) :
    Store.find (coldRoster t) a = some n ↔ (Store.getD PlanEntry.default t a).kind ≠ .none ∧
      n = (Store.getD PlanEntry.default t a).node false := by
  unfold Store.getD coldRoster
  rw [Store.find_map _ (fun e : PlanEntry => e.node false), Store.find_filter h]
  cases ha : Store.find t a with
  | none => simp [PlanEntry.default]
  | some e => by_cases he : e.kind = .none <;> simp [Option.filter, he, eq_comm]

/-- A line sampled active in START is taken down, and its notice queued (R178, R183). -/
theorem Part.lineChange_start {c : Part} {l : Line} (hmode : c.ctl.mode = .start) (hl : c.ctl.level l = false)
    (hz : ∀ z, (c.zone z).pass = none) : c.lineChange l true =
      { c with ctl := (c.ctl.setLevel l true).see l, out := c.out ++ [.interlock l true .start] } := by
  have hacts : ∀ d : Part, d.ctl.mode = .start → d.lineActs l = { d with ctl := d.ctl.see l } := fun d hd => by
    unfold Part.lineActs
    rw [hd]
  have hset : (c.ctl.setLevel l true).mode = .start := by cases l <;> exact hmode
  unfold Part.lineChange
  rw [if_neg (by simp [hl]), if_pos rfl]
  dsimp only
  rw [hacts _ hset, hmode]
  split
  · exact Part.abortPasses_of_none hz
  · rfl

theorem Part.lineChange_same {c : Part} {l : Line} {v : Bool} (h : c.ctl.level l = v) : c.lineChange l v = c :=
  if_pos h

/-- The blocks at power-on with the lines sampled. -/
def Part.coldSampled (x : Tables × List Nat × Bool) (e p : Bool) : Part :=
  { Part.coldWith x.1 x.2.1 x.2.2 with ctl := coldCtl e p x.2.2, out := coldOut e p }

/-- The two lines, sampled in START, change the Mode Controller alone. -/
theorem Part.coldSampled_lines (x : Tables × List Nat × Bool) (e p : Bool) (h : Store.rising x.1.zone.zones = true) :
    ((Part.coldSampled x false false).lineChange .enclosure e).lineChange .stop p = Part.coldSampled x e p := by
  have hpass : ∀ e p z, ((Part.coldSampled x e p).zone z).pass = none := fun _ _ z =>
    congrArg Zone.pass (coldZones_zone x.1.zone h z)
  have hfirst : (Part.coldSampled x false false).lineChange .enclosure e = Part.coldSampled x e false := by
    cases e with
    | false => exact Part.lineChange_same rfl
    | true => exact (Part.lineChange_start rfl rfl (hpass false false)).trans rfl
  rw [hfirst]
  cases p with
  | false => exact Part.lineChange_same rfl
  | true =>
    rw [Part.lineChange_start rfl rfl (hpass e false)]
    cases e <;> rfl

theorem Part.callOrder_cons (c : Part) : ∃ a rest, c.callOrder = a :: rest := by
  have hlen : c.callOrder.length = 63 := by
    unfold Part.callOrder
    rw [List.length_append, ← List.length_eq_length_filter_add]
    rfl
  exact List.exists_cons_of_length_pos (by omega)

/-- An enumeration's beginning leaves the entries of a new roster as they are. -/
theorem coldRoster_called (t : Store PlanEntry) : ((coldRoster t).filter fun e => e.2.state ≠ .unexpected).map (fun e =>
    (e.1, { e.2 with rollPending := false, planCall := false })) = coldRoster t := by
  have hnode : ∀ e ∈ coldRoster t, ∃ q : PlanEntry, e.2 = q.node false := fun e he => by
    obtain ⟨k, -, rfl⟩ := List.mem_map.1 he
    exact ⟨k.2, rfl⟩
  rw [List.filter_eq_self.2 fun e he => by
    obtain ⟨q, hq⟩ := hnode e he
    rw [hq]
    rfl]
  refine (List.map_congr_left fun e he => ?_).trans (List.map_id _)
  obtain ⟨q, hq⟩ := hnode e he
  exact Prod.ext rfl (by dsimp only [id]; rw [hq]; rfl)

theorem coldRobot_called (b : Bool) (x : Side) : { coldRobot b x with rollSpan := none } = coldRobot b x := by
  cases b <;> rfl

theorem Part.coldSampled_beginEnum (x : Tables × List Nat × Bool) (e p : Bool) :
    ∃ a rest, (Part.coldSampled x e p).beginEnum .cold = Part.coldReady x e p a rest := by
  obtain ⟨a, rest, horder⟩ := Part.callOrder_cons (Part.coldSampled x e p)
  refine ⟨a, rest, ?_⟩
  unfold Part.beginEnum
  rw [horder]
  dsimp only [Part.coldSampled, Part.coldWith]
  rw [coldRoster_called, coldRobot_called, coldRobot_called]
  rfl

/-- The blocks a cold start leaves. -/
theorem Part.coldStart_eq (image : List Byte) (e p : Bool) :
    ∃ a rest, Part.coldStart image e p = Part.coldReady (startTables image) e p a rest := by
  obtain ⟨a, rest, hbegin⟩ := Part.coldSampled_beginEnum (startTables image) e p
  rw [← Part.coldSampled_lines _ e p (startTables_rising image).1] at hbegin
  exact ⟨a, rest, hbegin⟩

/-! ### The end of the event -/

/-- No block has anything to do in START while there is no work, no move and no robot in service (R178). -/
theorem Part.nextAct_start {c : Part} (hmode : c.ctl.mode = .start) (hwork : c.work = []) (hmoves : c.mv.moves = [])
    (hrobot : ∀ x, (c.robot x).recovery = [] ∧ (c.robot x).state ≠ .idle) (hret : ∀ p, (c.port p).ret = none)
    (hcursor : c.inv.cursor.active = false) : c.nextAct = none := by
  have hstandalone : c.standaloneOnce = none := by simp [Part.standaloneOnce, hmode]
  have hrecovery : c.recoveryOnce = none := by
    simp [Part.recoveryOnce, Part.recoveryScan, (hrobot .a).1, (hrobot .b).1]
  have hactivate : c.activateOnce = none := by simp [Part.activateOnce, Part.canActivate, hmode]
  have hwaiting : c.waitingOnce = none := by
    simp only [Part.waitingOnce, hret]
    split <;> rfl
  have hscan : c.offerScan = none := by simp [Part.offerScan, hmode, Mode.admits]
  have hdone : c.cursorDone = none := by simp [Part.cursorDone, hcursor]
  have hassign : ∀ b, c.reassign b = none := fun b => by simp [Part.reassign, hmoves]
  have hcandidate : ∀ x, c.candidate x = none := fun x => by simp [Part.candidate, (hrobot x).2]
  have hrail : c.railOnce = none := by simp [Part.railOnce, hcandidate]
  have hcandidacy : ∀ z, c.candidacy z = none := fun z => by simp [Part.candidacy, hmode]
  have hfirst : c.firstCandidate = none := by
    simp only [Part.firstCandidate, hcandidacy]
    exact List.foldlRecOn (motive := fun b => b = none) _ _ rfl fun _ hb _ _ => hb
  have hsupply : c.supplyOnce = none := by simp [Part.supplyOnce, hfirst]
  simp [Part.nextAct, Part.levels, hstandalone, hwork, hrecovery, hactivate, hwaiting, hscan, hdone, hassign, hrail,
    hsupply]

theorem coldRobot_rest (b : Bool) (x : Side) : (coldRobot b x).recovery = [] ∧ (coldRobot b x).state ≠ .idle := by
  cases b <;> exact ⟨rfl, nofun⟩

theorem Part.coldReady_close (x : Tables × List Nat × Bool) (e p : Bool) (a : Nat) (rest : List Nat) :
    ∃ f, (Part.coldReady x e p a rest).close = { Part.coldReady x e p a rest with
      ctl := { coldCtl e p x.2.2 with fault := f } } := by
  have hsettle : Part.settleAll 4096 (Part.coldReady x e p a rest) = Part.coldReady x e p a rest := by
    unfold Part.settleAll
    rw [Part.nextAct_start rfl rfl rfl (fun y => by cases y <;> exact coldRobot_rest _ _) (fun _ => rfl) rfl]
  unfold Part.close
  rw [hsettle]
  exact ⟨_, rfl⟩

/-- With the link DOWN nothing is sent at the end of an event. -/
theorem State.finish_down {s : State} (h : s.link.state = .down) :
    s.finish = State.flush { s with part := s.part.close } := by
  unfold State.finish State.transmit
  exact if_pos (Or.inl h)

/-- The state a cold start leaves. -/
def State.coldReady (s : State) (e p : Bool) (a : Nat) (rest : List Nat) (f : Bool) : State :=
  { part := { Part.coldReady (startTables s.image.atPowerOn.bytes) e p a rest with
      ctl := { coldCtl e p (startTables s.image.atPowerOn.bytes).2.2 with fault := f }
      out := [] }
    notices := NoticeQueue.pushAll ⟨[], 0, false, none⟩ 0 (coldOut e p)
    link := ⟨.down, none, [], none, false⟩
    image := s.image.atPowerOn
    pending := s.pending }

theorem execColdStart_eq (s : State) (e p : Bool) : ∃ a rest f, exec (.coldStart e p) s = .next (s.coldReady e p a rest f) := by
  obtain ⟨a, rest, hstart⟩ := Part.coldStart_eq s.image.atPowerOn.bytes e p
  obtain ⟨f, hclose⟩ := Part.coldReady_close (startTables s.image.atPowerOn.bytes) e p a rest
  refine ⟨a, rest, f, ?_⟩
  show execColdStart e p s = _
  unfold execColdStart
  dsimp only
  rw [State.finish_down rfl, hstart]
  dsimp only
  rw [hclose]
  rfl

theorem startTables_of_good {b : List Byte} (h : imageGood b = true) :
    (startTables b).1 = imageTables b ∧ (startTables b).2.1 = imageGens b ∧ (startTables b).2.2 = false := by
  rw [startTables, if_pos h]
  exact ⟨rfl, rfl, rfl⟩

theorem startTables_of_bad {b : List Byte} (h : imageGood b = false) :
    (startTables b).1 = Tables.default ∧ (startTables b).2.1 = [0, 0, 0, 0, 0, 0, 0] ∧ (startTables b).2.2 = true := by
  rw [startTables, if_neg (by simp [h])]
  exact ⟨rfl, rfl, rfl⟩

/-- A robot at a cold start, field by field (R137). -/
theorem coldRobot_eq (off : Bool) (x : Side) : coldRobot off x = ⟨if off then .disabled else .lost, none,
    if off then some (x.park, x.park) else none, none, none, [], false, none⟩ := by
  cases off <;> rfl

/-- The notices of two sampled lines fit the empty queue. -/
theorem coldOut_lost (e p : Bool) : (NoticeQueue.pushAll ⟨[], 0, false, none⟩ 0 (coldOut e p)).lost = false := by
  cases e <;> cases p <;> rfl

end Sys2Proof.Machine
end

section
open Sys2Proof Sys2Proof.Machine

/-- Settles O4: the blocks are those of `Part.coldReady`, and the event of a cold start ends with nothing done to them. -/
theorem coldStartValues : Obligations.ColdStartValues := by
  intro s e p
  obtain ⟨a, rest, f, hexec⟩ := execColdStart_eq s e p
  obtain ⟨hzones, hplan⟩ := startTables_rising s.image.atPowerOn.bytes
  refine ⟨_, hexec, rfl, rfl, rfl, rfl, rfl, rfl, rfl, rfl, rfl, rfl, fun h => ?_, fun h => ?_, rfl, rfl,
    fun _ => ⟨rfl, rfl, rfl⟩, fun _ => rfl, rfl, rfl, fun z _ => coldZones_zone _ hzones z, fun _ => rfl, fun _ => rfl,
    rfl, rfl, rfl, fun x => ?_, rfl, rfl, fun b n => coldRoster_find _ hplan b n, rfl, ⟨_, rfl, rfl⟩, rfl, rfl,
    coldOut_lost e p, ?_⟩
  · exact startTables_of_good h
  · exact startTables_of_bad h
  · cases x
    · exact coldRobot_eq _ _
    · exact coldRobot_eq _ _
  · rintro rfl rfl
    exact ⟨rfl, rfl⟩

end

section
/-! SUPPORT. What CLEAR_FAULT, CANCEL_SCAN, the offer of a background scan and the cursor's end do (R11, R36, R37, R78). -/

namespace Sys2Proof.Machine

variable {c : Part}

/-! ### CLEAR_FAULT -/

theorem Part.Framed.fixSlot {d : Part} (h : c.Framed d) (l : Nat) : c.Framed (d.fixSlot l) := by
  unfold Part.fixSlot
  split
  · exact h.fixProtection
  · exact h

theorem Part.Framed.fixZone {d : Part} (h : c.Framed d) (z : Nat) : c.Framed (d.fixZone z) :=
  Kept0.foldl h (fun _ _ hd => hd.fixProtection) _

/-- A change of a zone's record is the one asked for, whatever follows from its standing. -/
theorem Part.updZone_zone (h : c.sound) (z : Nat) (f : Zone → Zone) : (c.updZone z f).zone z = f (c.zone z) := by
  have hput : (c.putZone z (f (c.zone z))).zone z = f (c.zone z) := Store.getD_setD_self h.zones z _
  suffices (c.putZone z (f (c.zone z))).Framed (c.updZone z f) by
    unfold Part.zone at *
    rw [this.zones]
    exact hput
  have h0 := Part.Framed.refl (c.putZone z (f (c.zone z)))
  have K := framed_holds (c.putZone z (f (c.zone z)))
  unfold Part.updZone Part.zoneSettled
  dsimp only
  repeat' split
  all_goals first
    | exact h0 | exact K.say h0 | exact h0.fixZone z | exact (h0.fixZone z).signal | exact (K.say h0).fixZone z
    | exact ((K.say h0).fixZone z).signal

/-- The slot with its flags and, after a conflict, its hint cleared, before its reticle and slot choice follow. -/
def Part.slotCleared (c : Part) (l : Nat) : Part :=
  if (c.flagsOf l).conflict then (c.putFlags l SlotFlags.clear).setHint l .missing else c.putFlags l SlotFlags.clear

theorem Part.clearSlot_eq (l : Nat) : c.clearSlot l = (c.slotCleared l).fixSlot l ∨
    c.clearSlot l = ((c.slotCleared l).fixSlot l).signal .slotAvailable := by
  by_cases hv : ((c.slotCleared l).fixSlot l).occ l = .vacant ∧ ((c.slotCleared l).fixSlot l).eligibleSrc l = true ∧
      ¬c.eligibleSrc l = true
  · exact Or.inr (if_pos hv)
  · exact Or.inl (if_neg hv)

theorem Part.clearSlot_framed (l : Nat) : (c.slotCleared l).Framed (c.clearSlot l) := by
  obtain h | h := Part.clearSlot_eq (c := c) l <;> rw [h]
  · exact (Part.Framed.refl _).fixSlot l
  · exact ((Part.Framed.refl _).fixSlot l).signal

theorem Part.slotCleared_hints (h : c.sound) (l k : Nat) : (c.slotCleared l).hint k =
    if k = l ∧ (c.flagsOf l).conflict then .missing else c.hint k := by
  unfold Part.slotCleared
  cases hc : (c.flagsOf l).conflict with
  | false => simp [Part.hint]
  | true =>
    by_cases hk : k = l
    · subst hk
      rw [if_pos rfl, if_pos ⟨rfl, rfl⟩]
      exact Store.getD_setD_self h.hints k Hint.missing
    · rw [if_pos rfl, if_neg fun e => hk e.1]
      exact Store.getD_setD_of_ne Hint.missing c.inv.hints Hint.missing hk

theorem Part.slotCleared_flags (h : c.sound) (l k : Nat) :
    (c.slotCleared l).flagsOf k = if k = l then SlotFlags.clear else c.flagsOf k := by
  have hput : (c.slotCleared l).inv.flags = Store.setD SlotFlags.clear c.inv.flags l SlotFlags.clear := by
    unfold Part.slotCleared
    split <;> rfl
  unfold Part.flagsOf
  rw [hput]
  by_cases hk : k = l
  · subst hk
    simpa using Store.getD_setD_self h.flags k SlotFlags.clear
  · simpa [hk] using Store.getD_setD_of_ne SlotFlags.clear c.inv.flags SlotFlags.clear hk

/-- The flags and the hint of the slot are cleared, and nothing else of the Location Table changes. -/
theorem Part.slotCleared_same (l : Nat) : (c.slotCleared l).inv.occ = c.inv.occ ∧
    (c.slotCleared l).inv.recs = c.inv.recs ∧ (c.slotCleared l).zones = c.zones ∧
    (c.slotCleared l).tables = c.tables ∧ (c.slotCleared l).now = c.now := by
  unfold Part.slotCleared
  split <;> exact ⟨rfl, rfl, rfl, rfl, rfl⟩

/-- A hold leaves the account and the place of every record as they are. -/
theorem holds_account (n : Nat) (q : Rec) : Holds fun d => ∃ r, d.rec? n = some r ∧ r.id = q.id ∧ r.place = q.place ∧
    r.e = q.e ∧ r.frac = q.frac ∧ r.stamp = q.stamp where
  say h := h
  work h := h
  watch h := h
  jobs h := h
  roster h := h
  rescanList h := h
  filterMoves h := h
  updRec {d k f} hf h := by
    obtain ⟨r, hr, hid, hplace, he, hfrac, hstamp⟩ := h
    rw [Part.updRec_rec]
    split
    · rename_i e
      subst e
      obtain ⟨fid, fplace, fe, ffrac, fstamp⟩ := hf r
      exact ⟨f r, by simp [hr], fid.trans hid, fplace.trans hplace, fe.trans he, ffrac.trans hfrac, fstamp.trans hstamp⟩
    · exact ⟨r, hr, hid, hplace, he, hfrac, hstamp⟩

theorem Rec.accrue_protected {r : Rec} (h : r.stamp = none) (now rate : Nat) : r.accrue now rate = r := by
  unfold Rec.accrue
  rw [h]

/-- A record that stands protected is settled and carries no stamp (R46). -/
theorem Part.fixProtection_sheltered {n : Nat} {r : Rec} (h : c.rec? n = some r) (hs : c.sheltered n r = true) :
    ∃ q, (c.fixProtection n).rec? n = some q ∧ q.id = r.id ∧ q.place = r.place ∧
      q.e = (r.accrue c.now (c.rateOf r)).e ∧ q.frac = (r.accrue c.now (c.rateOf r)).frac ∧ q.stamp = none := by
  unfold Part.fixProtection
  rw [h]
  dsimp only
  rw [hs]
  cases hstamp : r.stamp with
  | none => exact ⟨r, h, rfl, rfl, by rw [Rec.accrue_protected hstamp], by rw [Rec.accrue_protected hstamp], hstamp⟩
  | some t =>
    obtain ⟨hid, hplace, -⟩ := r.accrue_keeps c.now (c.rateOf r)
    have hset : ((c.accrueRec n).updRec n fun r => { r with stamp := none }).rec? n =
        some { r.accrue c.now (c.rateOf r) with stamp := none } := by
      simp [Part.accrueRec, Part.updRec_rec, h]
    obtain ⟨q, hq, hqid, hqplace, hqe, hqfrac, hqstamp⟩ := (holds_account n _).threshold (down := false) (n := n)
      ⟨_, hset, rfl, rfl, rfl, rfl, rfl⟩
    exact ⟨q, hq, hqid.trans hid, hqplace.trans hplace, hqe, hqfrac, hqstamp⟩

/-- The reticle of a slot whose SEAL_FAULT is cleared in a protective zone is settled and protected again (R11, R45). -/
theorem Part.clearSlot_account (hs : c.sound) (ha : c.agrees) {l n : Nat} {r : Rec} (hl : l < 960)
    (hz : c.protective (l / 60) = true) (hn : (c.occ l).resident = some n) (hr : c.rec? n = some r) :
    ∃ q, (c.clearSlot l).rec? n = some q ∧ q.id = r.id ∧ q.place = r.place ∧
      q.e = (r.accrue c.now (c.rateOf r)).e ∧ q.frac = (r.accrue c.now (c.rateOf r)).frac ∧ q.stamp = none := by
  obtain ⟨hocc, hrecs, hzones, htables, hnow⟩ := Part.slotCleared_same (c := c) l
  have hocc' : (c.slotCleared l).occ l = c.occ l := by
    unfold Part.occ
    rw [hocc]
  have hplace : r.place = .loc l := by
    obtain ⟨r', hr', hp⟩ := (ha n l).2 hn
    obtain rfl : r = r' := Option.some.inj (hr.symm.trans hr')
    exact hp
  have hprot : (c.slotCleared l).protective (l / 60) = c.protective (l / 60) := by
    unfold Part.protective Part.zoneDisabled Part.zoneCfg Part.zone
    rw [hzones, htables]
  have hrec : (c.slotCleared l).rec? n = some r := by
    unfold Part.rec?
    rw [hrecs]
    exact hr
  have hshelter : (c.slotCleared l).sheltered n r = true := by
    simp [Part.sheltered, hplace, isSlot, hl, hocc', hn, Part.slotCleared_flags hs, SlotFlags.clear, columnOf, hprot, hz]
  have hfix : (c.slotCleared l).fixSlot l = (c.slotCleared l).fixProtection n := by
    unfold Part.fixSlot
    rw [hocc', hn]
  have hrate : (c.slotCleared l).rateOf r = c.rateOf r := by
    unfold Part.rateOf Part.classCfg
    rw [htables]
  obtain ⟨q, hq, hrest⟩ := Part.fixProtection_sheltered hrec hshelter
  rw [hnow, hrate] at hrest
  refine ⟨q, ?_, hrest⟩
  obtain h | h := Part.clearSlot_eq (c := c) l <;> rw [h, hfix]
  · exact hq
  · simpa [Part.rec?] using hq

end Sys2Proof.Machine
end

section
/-! SUPPORT. CANCEL_SCAN, the offer of a background scan and the cursor's end (R36, R37). -/

namespace Sys2Proof.Machine

variable {c : Part}

/-! ### CANCEL_SCAN -/

theorem Part.removeMove_moves (m : Move) :
    (c.removeMove m).mv.moves = c.mv.moves.filter (·.num ≠ m.num) ∧ (c.removeMove m).out = c.out ∧
      (c.removeMove m).inv = c.inv := by
  unfold Part.removeMove
  dsimp only
  cases m.reticle <;> dsimp only <;> split <;> simp

theorem Part.updRec_mv (n : Nat) (f : Rec → Rec) : (c.updRec n f).mv = c.mv := by
  unfold Part.updRec
  split
  · rfl
  · dsimp only
    split
    · rfl
    · exact Part.signal_mv _ _

theorem Part.release_moves (n : Nat) :
    (c.release n).mv = c.mv ∧ (c.release n).out = c.out ∧ (c.release n).inv.cursor = c.inv.cursor :=
  ⟨Part.updRec_mv .., Part.updRec_out .., ((Part.Framed.refl c).updRec).cursor⟩

/-- A background scan that is cancelled leaves the list, with no notice (R36, R37). -/
theorem Part.cancelMove_scan {m : Move} {b : Bool} (h : m.owner = .inventory b) :
    (c.cancelMove m .cancelled).mv.moves = c.mv.moves.filter (·.num ≠ m.num) ∧
      (c.cancelMove m .cancelled).out = c.out ∧ (c.cancelMove m .cancelled).inv.cursor = c.inv.cursor := by
  have hend : ∀ d : Part, d.endMove m (.cancelled .cancelled) = d.removeMove m := fun d => by
    simp [Part.endMove, h]
  unfold Part.cancelMove
  dsimp only
  rw [hend]
  cases m.reticle with
  | none =>
    obtain ⟨h1, h2, h3⟩ := Part.removeMove_moves (c := c) m
    exact ⟨h1, h2, by rw [h3]⟩
  | some n =>
    obtain ⟨h1, h2, h3⟩ := Part.removeMove_moves (c := c.release n) m
    obtain ⟨r1, r2, r3⟩ := Part.release_moves (c := c) n
    exact ⟨by rw [h1, r1], h2.trans r2, by rw [h3, r3]⟩

theorem Part.cancelMoves_scans (ms : List Move) (d : Part) (h : ∀ m ∈ ms, m.owner = .inventory true) :
    (ms.foldl (fun c m => c.cancelMove m .cancelled) d).mv.moves =
        d.mv.moves.filter (fun k => ms.all fun m => k.num ≠ m.num) ∧
      (ms.foldl (fun c m => c.cancelMove m .cancelled) d).out = d.out ∧
      (ms.foldl (fun c m => c.cancelMove m .cancelled) d).inv.cursor = d.inv.cursor := by
  induction ms generalizing d with
  | nil => simp
  | cons m ms ih =>
    obtain ⟨h1, h2, h3⟩ := Part.cancelMove_scan (c := d) (h m (by simp))
    obtain ⟨i1, i2, i3⟩ := ih (d.cancelMove m .cancelled) fun k hk => h k (List.mem_cons_of_mem _ hk)
    refine ⟨?_, i2.trans h2, i3.trans h3⟩
    rw [List.foldl_cons, i1, h1, List.filter_filter]
    exact List.filter_congr fun k _ => by rw [List.all_cons, Bool.and_comm]

/-- With numbers that no two moves share, the moves taken out by their numbers are the moves themselves. -/
theorem filter_by_num {l : List Move} (h : (l.map Move.num).Nodup) (p : Move → Bool) :
    l.filter (fun k => (l.filter p).all fun m => k.num ≠ m.num) = l.filter fun k => !p k := by
  refine List.filter_congr fun k hk => ?_
  rw [Bool.eq_iff_iff, List.all_eq_true, Bool.not_eq_true']
  constructor
  · intro hall
    by_contra hp
    simpa using hall k (List.mem_filter.2 ⟨hk, by simpa using hp⟩)
  · intro hp m hm
    obtain ⟨hm, hpm⟩ := List.mem_filter.1 hm
    refine decide_eq_true fun e => ?_
    rw [List.inj_on_of_nodup_map h hk hm e, hpm] at hp
    cases hp

/-- CANCEL_SCAN (R36). -/
theorem Part.cancelScan_spec (hs : c.sound) (h : c.inv.cursor.active = true) :
    c.cancelScan.inv.cursor = { c.inv.cursor with active := false } ∧
    c.cancelScan.mv.moves = (c.mv.moves.filter fun m => !(m.owner == .inventory true && !m.granted)).map (fun m =>
      if m.owner = .inventory true then { m with owner := .inventory false } else m) ∧
    c.cancelScan.out = c.out ++
      [Subject.scanDone c.inv.cursor.first c.inv.cursor.count c.inv.cursor.admitted true] := by
  obtain ⟨hmoves, hout, hcursor⟩ := Part.cancelMoves_scans
    (c.mv.moves.filter fun m => m.owner == .inventory true && !m.granted)
    (c.setCursor { c.inv.cursor with active := false }) fun m hm => by
      have := (List.mem_filter.1 hm).2
      simp only [Bool.and_eq_true, beq_iff_eq] at this
      exact this.1
  unfold Part.cancelScan
  rw [if_pos h]
  refine ⟨hcursor, ?_, congrArg (· ++ [_]) hout⟩
  refine congrArg (List.map _) (hmoves.trans ?_)
  exact filter_by_num hs.moves.2.1 _

/-! ### The offer of a background scan -/

/-- A background scan has room, and none is in the list (R37). -/
def Part.offers (c : Part) : Prop :=
  c.ctl.mode.admits = true ∧ c.mv.moves.length < 16 ∧ ∀ m ∈ c.mv.moves, ∀ b, m.owner ≠ .inventory b

theorem Part.scanning_iff : c.scanning = false ↔ ∀ m ∈ c.mv.moves, ∀ b, m.owner ≠ .inventory b := by
  unfold Part.scanning
  rw [List.any_eq_false]
  refine forall₂_congr fun m _ => ?_
  cases m.owner <;> simp

theorem Part.offers_iff :
    c.offers ↔ ¬((!c.ctl.mode.admits || c.scanning || decide (c.freeMoves ≤ 8)) = true) := by
  unfold Part.offers
  rw [← Part.scanning_iff]
  simp only [Bool.not_eq_true, Bool.or_eq_false_iff, Bool.not_eq_false', decide_eq_false_iff_not]
  unfold Part.freeMoves
  constructor
  · rintro ⟨h1, h2, h3⟩
    exact ⟨⟨h1, h3⟩, by omega⟩
  · rintro ⟨⟨h1, h3⟩, h2⟩
    exact ⟨h1, by omega, h3⟩

theorem Part.offerScan_none (h : ¬c.offers) : c.offerScan = none := by
  unfold Part.offerScan
  rw [if_pos (Decidable.not_not.1 (mt Part.offers_iff.2 h))]

/-- With room, a background scan of a location in plan is admitted exactly where a robot is available (R37). -/
def Part.scanAdmitted (c : Part) (l : Nat) (own : Bool) (d : Part) : Prop :=
  d.inv = c.inv ∧ ∃ m : Move, d.mv.moves = c.mv.moves ++ [m] ∧ m.kind = .scan ∧ m.src = none ∧ m.dst = some l ∧
    m.reticle = none ∧ m.owner = .inventory own ∧ m.granted = false

theorem Part.enlist_inv (m : Move) : (c.enlist m).inv = c.inv := by
  have hwatch : ∀ (d : Part) k, (d.watchHold k).inv = d.inv := fun _ _ => rfl
  unfold Part.enlist
  dsimp only
  cases m.reticle <;> split <;> simp [hwatch]

/-- The ask for a background scan of a location. -/
def scanAsk (l : Nat) (own : Bool) : Ask :=
  ⟨.scan, none, some l, 0, 0, .inventory own, none, false, none, false⟩

/-- A robot takes a move that belongs to none exactly where one is available (R113). -/
theorem Part.assign_none (span : Nat) :
    c.assign none span = none ↔ (c.robot .a).available = false ∧ (c.robot .b).available = false := by
  have ha : (c.robot .a).available = c.mv.robotA.available := rfl
  have hb : (c.robot .b).available = c.mv.robotB.available := rfl
  rw [ha, hb]
  unfold Part.assign
  cases c.mv.robotA.available <;> cases c.mv.robotB.available <;> simp
  split <;> simp

theorem Part.admitScan_none {l : Nat} {own : Bool} (h : c.offers)
    (hr : (c.robot .a).available = false ∧ (c.robot .b).available = false) : c.admitScan l own = none := by
  have hroom : c.hasRoom .scan = true := (Part.hasRoom_iff .scan).2 h.2.1
  have hno : c.admitAsk (scanAsk l own) = .error .noRobot := by
    rw [Part.admitAsk_eq]
    simp [h.1, hroom, scanAsk, (Part.assign_none _).2 hr]
  unfold Part.admitScan
  rw [← scanAsk, hno]

theorem Part.admitScan_some {l : Nat} {own : Bool} (h : c.offers)
    (hr : (c.robot .a).available = true ∨ (c.robot .b).available = true) (hl : l < 968)
    (hplan : 960 ≤ l → (c.portCfg (l - 960)).inPlan = true) :
    ∃ d, c.admitScan l own = some d ∧ c.scanAdmitted l own d := by
  have hroom : c.hasRoom .scan = true := (Part.hasRoom_iff .scan).2 h.2.1
  have hfits : c.locationsFit (scanAsk l own) = some none :=
    (Part.locationsFit_scan _ none rfl).2 ⟨rfl, rfl, l, rfl, hl, hplan⟩
  obtain ⟨x, hx⟩ : ∃ x, c.assign none (c.askSpan (scanAsk l own)) = some x :=
    Option.ne_none_iff_exists'.1 fun e => by
      have := (Part.assign_none _).1 e
      simp [this] at hr
  have hok : c.admitAsk (scanAsk l own) = .ok ((c.enlist (c.moveOf (scanAsk l own) x none (some l))).giveKind
      (c.moveOf (scanAsk l own) x none (some l)), c.admitted (scanAsk l own) x none l) := by
    have hx' : c.assign (scanAsk l own).robot (c.askSpan (scanAsk l own)) = some x := hx
    have hroom' : c.hasRoom (scanAsk l own).kind = true := hroom
    rw [Part.admitAsk_eq, if_neg (by simp [h.1]), if_neg (by simp [hroom']), hx']
    dsimp only
    rw [hfits]
    rfl
  have hadmit : c.admitScan l own = some ((c.enlist (c.moveOf (scanAsk l own) x none (some l))).giveKind
      (c.moveOf (scanAsk l own) x none (some l))) := by
    unfold Part.admitScan
    rw [← scanAsk, hok]
  refine ⟨_, hadmit, Part.enlist_inv _, c.admitted (scanAsk l own) x none l, ?_, rfl, rfl, rfl, rfl, rfl, ?_⟩
  · exact congrArg MoveScheduler.moves (Part.admitted_mv (scanAsk l own) x none l)
  · unfold Part.admitted Move.granted
    dsimp only
    split <;> rfl

theorem Part.inPlanAt_iff {l : Nat} (hl : l < 968) :
    c.inPlanAt l = true ↔ (960 ≤ l → (c.portCfg (l - 960)).inPlan = true) := by
  unfold Part.inPlanAt
  rcases Nat.lt_or_ge l 960 with h | h
  · simp [portOf_slot h, Nat.not_le.2 h]
  · simp [portOf_position h hl, h]

/-- What `offerScan` does with a scan of a location: none without a robot, else the scan with the Inventory as `inv`. -/
def Part.scansAs (c : Part) (l : Nat) (own : Bool) (inv : Inventory) : Prop :=
  (¬((c.robot .a).available = true ∨ (c.robot .b).available = true) → c.offerScan = none) ∧
    ((c.robot .a).available = true ∨ (c.robot .b).available = true →
      ∃ d m, c.offerScan = some d ∧ d.inv = inv ∧ d.mv.moves = c.mv.moves ++ [m] ∧ m.kind = .scan ∧ m.src = none ∧
        m.dst = some l ∧ m.reticle = none ∧ m.owner = .inventory own ∧ m.granted = false)

theorem Part.scansAs_of {l : Nat} {own : Bool} {f : Part → Part} (h : c.offers) (hl : l < 968)
    (hplan : 960 ≤ l → (c.portCfg (l - 960)).inPlan = true) (hscan : c.offerScan = (c.admitScan l own).map f)
    (hf : ∀ d, (f d).mv = d.mv) (hinv : ∀ d, d.inv = c.inv → (f d).inv = (f c).inv) :
    c.scansAs l own (f c).inv := by
  refine ⟨fun hr => ?_, fun hr => ?_⟩
  · rw [hscan, Part.admitScan_none h (by simpa using hr)]
    rfl
  · obtain ⟨d, hd, hdinv, m, hmoves, hm⟩ := Part.admitScan_some (own := own) h hr hl hplan
    exact ⟨f d, m, by rw [hscan, hd]; rfl, hinv d hdinv, by rw [hf, hmoves], hm⟩

/-- With locations waiting, the head of the rescan queue leaves it. -/
theorem Part.offerScan_queue (h : c.offers) {l : Nat} {rest : List Nat} (hq : c.inv.rescan = l :: rest) (hl : l < 968) :
    (c.inPlanAt l = false → c.offerScan = some (c.unrescan l)) ∧
      (c.inPlanAt l = true → c.scansAs l false (c.unrescan l).inv) := by
  have heq : c.offerScan = if !c.inPlanAt l then some (c.unrescan l)
      else (c.admitScan l false).map fun d => d.unrescan l := by
    unfold Part.offerScan
    rw [if_neg (Part.offers_iff.1 h), hq]
  refine ⟨fun hp => by rw [heq, hp]; rfl, fun hp => ?_⟩
  refine Part.scansAs_of (f := fun d => d.unrescan l) h hl ((Part.inPlanAt_iff hl).1 hp) ?_ (fun _ => rfl) fun d hd => ?_
  · rw [heq, hp]
    rfl
  · simp [Part.unrescan, hd]

/-- With none waiting, the active cursor offers its next slot. -/
theorem Part.offerScan_cursor (h : c.offers) (hq : c.inv.rescan = []) :
    (c.inv.cursor.active = false ∨ c.inv.cursor.remaining = 0 → c.offerScan = none) ∧
      (c.inv.cursor.active = true → 0 < c.inv.cursor.remaining → c.inv.cursor.next < 960 →
        ((∃ n, c.occ c.inv.cursor.next = .inbound n ∨ ∃ v, c.occ c.inv.cursor.next = .outbound n v) →
          c.offerScan = some ((c.rescan c.inv.cursor.next).setCursor (c.inv.cursor.step 0))) ∧
        ((¬∃ n, c.occ c.inv.cursor.next = .inbound n ∨ ∃ v, c.occ c.inv.cursor.next = .outbound n v) →
          c.scansAs c.inv.cursor.next true (c.setCursor (c.inv.cursor.step 1)).inv)) := by
  have hpass : c.inv.cursor.active = true ∧ 0 < c.inv.cursor.remaining → c.offerScan =
      match c.occ c.inv.cursor.next with
      | .inbound _ | .outbound _ _ => some ((c.rescan c.inv.cursor.next).setCursor (c.inv.cursor.step 0))
      | _ => (c.admitScan c.inv.cursor.next true).map fun d => d.setCursor (c.inv.cursor.step 1) := fun hk => by
    unfold Part.offerScan
    rw [if_neg (Part.offers_iff.1 h), hq]
    exact if_pos hk
  refine ⟨fun hk => ?_, fun ha hr hl => ⟨fun hm => ?_, fun hm => ?_⟩⟩
  · unfold Part.offerScan
    rw [if_neg (Part.offers_iff.1 h), hq]
    refine if_neg fun hk' => ?_
    rcases hk with hk | hk
    · rw [hk] at hk'
      exact Bool.noConfusion hk'.1
    · omega
  · rw [hpass ⟨ha, hr⟩]
    obtain ⟨n, hn | ⟨v, hn⟩⟩ := hm <;> rw [hn]
  · refine Part.scansAs_of (f := fun d => d.setCursor (c.inv.cursor.step 1)) h (by omega) (fun hp => by omega) ?_
      (fun _ => rfl) fun d hd => by simp [Part.setCursor, hd]
    rw [hpass ⟨ha, hr⟩]
    cases ho : c.occ c.inv.cursor.next with
    | inbound n => exact absurd ⟨n, Or.inl ho⟩ hm
    | outbound n v => exact absurd ⟨n, Or.inr ⟨v, ho⟩⟩ hm
    | _ => rfl

/-- The cursor's end (R36). -/
theorem Part.cursorDone_cases :
    (¬(c.inv.cursor.active = true ∧ c.inv.cursor.remaining = 0 ∧ ∀ m ∈ c.mv.moves, m.owner ≠ .inventory true) →
      c.cursorDone = none) ∧
    (c.inv.cursor.active = true ∧ c.inv.cursor.remaining = 0 ∧ (∀ m ∈ c.mv.moves, m.owner ≠ .inventory true) →
      c.cursorDone = some ((c.setCursor { c.inv.cursor with active := false }).say
        (.scanDone c.inv.cursor.first c.inv.cursor.count c.inv.cursor.admitted false))) := by
  have hscan : c.cursorScanning = false ↔ ∀ m ∈ c.mv.moves, m.owner ≠ .inventory true := by
    simp [Part.cursorScanning]
  rw [← hscan]
  exact ⟨fun h => if_neg h, fun h => if_pos h⟩

/-! ### The requests -/

variable {s : State}

/-- A request that its owner accepts. -/
theorem State.request_accepted {addr tag kind : Nat} {f : State → State × Rsp} {p : Part} {b : Body}
    (h : s.listens = true) (hf : f s.heard = s.heard.accept p b) :
    (.next (s.request addr tag kind f) : Out) = .next (s.concludes p addr kind tag (Rsp.ok b)) := by
  rw [State.request_listens h, hf]
  rfl

/-- A request that its owner refuses. -/
theorem State.request_refused {tag kind : Nat} {f : State → State × Rsp} {r : Result} (h : s.listens = true)
    (hf : f s.heard = s.heard.refuse r) : (.next (s.request 0 tag kind f) : Out) = .next (s.refuses kind tag r) := by
  rw [State.request_listens h, hf]
  rfl

end Sys2Proof.Machine
end

section
open Sys2Proof Sys2Proof.Machine

/-- Settles O24: the requests are the owners' operations behind their tests, and each operation is said by its lemma. -/
theorem faultAndScanRequests : Obligations.FaultAndScanRequests := by
  refine ⟨fun s tag n count hl => ⟨fun hm hn => ?_, fun hm hn => ?_, fun hm => ?_, fun hm hn => ?_, fun hm hn => ?_,
    fun hm hn h1 h2 hk => ?_, fun hm hn => ?_, fun hm hn hc => ?_, fun hm hn h1 h2 hk => ?_, fun hm => ?_⟩,
    fun c l z hs => ⟨⟨?_, fun k hk => ⟨?_, ?_⟩, ?_, fun k => ?_, fun ha hl hseal hz n r hn hr => ?_⟩,
      Part.updZone_zone hs z _, fun h => ?_, fun h => Part.cancelScan_spec hs h, fun h => Part.offerScan_none h,
      fun x rest ho hq hx => ⟨fun hp hplan => ?_, fun hp => ?_⟩,
      fun ho hq => ⟨(Part.offerScan_cursor ho hq).1, fun ha hr hn => ⟨fun hm => ?_, fun hm => ?_⟩⟩,
      Part.cursorDone_cases.1, Part.cursorDone_cases.2⟩⟩
  · exact State.request_accepted hl (by simp [State.notInStart, State.need, hm, hn])
  · exact State.request_refused hl (by simp [State.notInStart, State.need, hm, Nat.not_lt.2 hn])
  · exact State.request_refused hl (by simp [State.notInStart, hm])
  · exact State.request_accepted hl (by simp [State.notInStart, State.need, hm, hn])
  · exact State.request_refused hl (by simp [State.notInStart, State.need, hm, Nat.not_lt.2 hn])
  · exact State.request_accepted hl (by simp [State.inService, State.need, hm, hn, h1, h2, hk, Part.setCursor])
  · exact State.request_refused hl (by simp [State.inService, State.need, hm, Nat.not_lt.2 hn])
  · have hcount : ¬(1 ≤ count ∧ n + count ≤ 960) := by omega
    exact State.request_refused hl (by simp only [State.inService, State.need, State.heard_mode, hm, hn, hcount]; simp)
  · exact State.request_refused hl (by simp [State.inService, State.need, hm, hn, h1, h2, hk])
  · exact State.request_accepted hl (by simp [State.notInStart, hm])
  · rw [(Part.clearSlot_framed l).flagsOf_eq, Part.slotCleared_flags hs, if_pos rfl]
  · rw [(Part.clearSlot_framed l).flagsOf_eq, Part.slotCleared_flags hs, if_neg hk]
  · rw [(Part.clearSlot_framed l).hint_eq, Part.slotCleared_hints hs, if_neg fun e => hk e.1]
  · rw [(Part.clearSlot_framed l).hint_eq, Part.slotCleared_hints hs]
    simp
  · rw [(Part.clearSlot_framed l).occ_eq]
    unfold Part.occ
    rw [(Part.slotCleared_same l).1]
  · obtain ⟨q, hq, hid, hplace, he, hfrac, hstamp⟩ := Part.clearSlot_account hs ha hl hz hn hr
    exact ⟨q, hq, hid, hplace, hstamp, he, hfrac⟩
  · exact if_neg (by simp [h])
  · obtain ⟨hout, -⟩ := Part.offerScan_queue ho hq hx
    rw [hout (Bool.eq_false_iff.2 fun e => by simp [(Part.inPlanAt_iff hx).1 e hp] at hplan)]
    simp [Part.unrescan, hq]
  · have hp' : 960 ≤ x → (c.portCfg (x - 960)).inPlan = true := fun h => hp.resolve_left (Nat.not_lt.2 h)
    have hinv : (c.unrescan x).inv = { c.inv with rescan := rest.filter (· ≠ x) } := by simp [Part.unrescan, hq]
    exact hinv ▸ (Part.offerScan_queue ho hq hx).2 ((Part.inPlanAt_iff hx).2 hp')
  · rw [((Part.offerScan_cursor ho hq).2 ha hr hn).1 hm]
    have hplace : isPlace c.inv.cursor.next = true := decide_eq_true (by omega)
    simp [Part.rescan, hq, hplace, Part.setCursor, Cursor.step]
  · exact ((Part.offerScan_cursor ho hq).2 ha hr hn).2 hm

end

section
/-! SUPPORT. The rail: the clearance test, the needed interval, yields, and what the arbiter takes (R117 to R120). -/

namespace Sys2Proof.Machine

variable {c : Part}

/-! ### Rules of the robots' records and queues -/

theorem Part.setRobot_robot (x y : Side) (r : Robot) : (c.setRobot x r).robot y = if y = x then r else c.robot y := by
  have hput : (c.putRobot x r).robot y = if y = x then r else c.robot y := by
    cases x <;> cases y <;> rfl
  have hsig : ∀ (d : Part) g, (d.signal g).robot y = d.robot y := fun d g => by
    cases y <;> simp [Part.robot]
  unfold Part.setRobot
  dsimp only
  split <;> simp only [hsig, hput]

/-- What a write of a robot's record leaves as it was. -/
theorem Part.setRobot_same (x : Side) (r : Robot) : (c.setRobot x r).inv = c.inv ∧ (c.setRobot x r).bus = c.bus ∧
    (c.setRobot x r).tables = c.tables ∧ (c.setRobot x r).jobs = c.jobs ∧ (c.setRobot x r).out = c.out ∧
    (c.setRobot x r).now = c.now ∧ (c.setRobot x r).mv.moves = c.mv.moves := by
  unfold Part.setRobot
  dsimp only
  cases x <;> split <;> simp [Part.putRobot]

theorem Part.queueOrder_same (a : Option Nat) (o : QOrder) : (c.queueOrder a o).inv = c.inv ∧
    (c.queueOrder a o).mv = c.mv ∧ (c.queueOrder a o).tables = c.tables ∧ (c.queueOrder a o).jobs = c.jobs ∧
    (c.queueOrder a o).out = c.out := by
  unfold Part.queueOrder
  repeat' split
  all_goals exact ⟨rfl, rfl, rfl, rfl, rfl⟩

/-- An order for a planned address joins the tail of its queue (R156). -/
theorem Part.queueOrder_node {a : Nat} {n : Node} (o : QOrder) (ha : (c.planOf a).kind ≠ .none) (hn : c.node? a = some n) :
    (c.queueOrder (some a) o).node? a = some { n with queue := n.queue ++ [o] } := by
  have hp : c.planned a = true := decide_eq_true ha
  unfold Part.queueOrder
  dsimp only
  rw [if_pos hp, hn]
  exact Store.find_put_self _ _ _

/-- An order leaves every queue as it was, but for what joins its tail. -/
theorem Part.queueOrder_extends {a : Nat} {n : Node} (b : Option Nat) (o : QOrder) (hn : c.node? a = some n) :
    ∃ v, (c.queueOrder b o).node? a = some { n with queue := n.queue ++ v } := by
  have hsame : c.node? a = some { n with queue := n.queue ++ [] } := by simpa using hn
  unfold Part.queueOrder
  split
  · exact ⟨[], hsame⟩
  · rename_i b
    split
    · split
      · rename_i k hk
        by_cases hab : a = b
        · subst hab
          obtain rfl : k = n := Option.some.inj (hk.symm.trans hn)
          exact ⟨[o], Store.find_put_self _ _ _⟩
        · exact ⟨[], (Store.find_put_of_ne _ _ hab).trans hsame⟩
      · exact ⟨[], hsame⟩
    · exact ⟨[], hsame⟩

/-! ### The clearance test, the needed interval and the yield's target -/

theorem keepsClear_iff (x : Side) (gap : Nat) (mine theirs : Nat × Nat) : keepsClear x gap mine theirs = true ↔
    match x with
    | .a => mine.2 + gap + 1 ≤ theirs.1
    | .b => theirs.2 + gap + 1 ≤ mine.1 := by
  cases x <;> exact decide_eq_true_iff

theorem Part.clearFor_iff (x : Side) (i : Nat × Nat) : c.clearFor x i = true ↔
    (c.robot x.other).held = some (x.other.park, x.other.park) ∨
      ∃ j, (c.robot x.other).held = some j ∧ keepsClear x c.limits.clearSpans i j = true := by
  unfold Part.clearFor Part.parked
  cases h : (c.robot x.other).held <;> simp

theorem Part.needed_none {x : Side} {m : Move} (h : (c.robot x).span = none) : c.needed x m = none := by
  unfold Part.needed
  rw [h]

/-- An interval is the smallest that holds a set of points. -/
def SpansJust (i : Nat × Nat) (stop : Nat → Prop) : Prop := stop i.1 ∧ stop i.2 ∧ ∀ p, stop p → i.1 ≤ p ∧ p ≤ i.2

theorem SpansJust.widen {i : Nat × Nat} {stop : Nat → Prop} (h : SpansJust i stop) (q : Nat) :
    SpansJust (widen i q) fun p => stop p ∨ p = q := by
  obtain ⟨h1, h2, hall⟩ := h
  obtain ⟨a, b⟩ := i
  refine ⟨?_, ?_, fun p hp => ?_⟩ <;> simp only [Machine.widen] at *
  · rcases Nat.le_total a q with hq | hq
    · exact Or.inl (by rwa [Nat.min_eq_left hq])
    · exact Or.inr (Nat.min_eq_right hq)
  · rcases Nat.le_total b q with hq | hq
    · exact Or.inr (Nat.max_eq_right hq)
    · exact Or.inl (by rwa [Nat.max_eq_left hq])
  · rcases hp with hp | rfl
    · have := hall p hp
      omega
    · omega

/-- The needed interval is the smallest that holds the robot's span and those of the locations (R117). -/
theorem Part.needed_some {x : Side} {m : Move} {s : Nat} (h : (c.robot x).span = some s) :
    ∃ i, c.needed x m = some i ∧ SpansJust i fun p => p = s ∨ (∃ l, m.src = some l ∧ p = c.tables.columnAt l + 1) ∨
      ∃ l, m.dst = some l ∧ p = c.tables.columnAt l + 1 := by
  have h0 : SpansJust (s, s) fun p => p = s := ⟨rfl, rfl, fun p hp => ⟨hp.ge, hp.le⟩⟩
  unfold Part.needed Tables.spanAt
  rw [h]
  cases m.src with
  | none =>
    cases m.dst with
    | none => exact ⟨_, rfl, by simpa using h0⟩
    | some d => exact ⟨_, rfl, by simpa using h0.widen (c.tables.columnAt d + 1)⟩
  | some l =>
    cases m.dst with
    | none => exact ⟨_, rfl, by simpa using h0.widen (c.tables.columnAt l + 1)⟩
    | some d =>
      exact ⟨_, rfl, by simpa [or_assoc] using (h0.widen (c.tables.columnAt l + 1)).widen (c.tables.columnAt d + 1)⟩

theorem Part.yieldTarget_spec (i : Nat × Nat) :
    (i.2 + c.limits.clearSpans + 1 ≤ 16 → c.yieldTarget .b i = i.2 + c.limits.clearSpans + 1) ∧
    (16 < i.2 + c.limits.clearSpans + 1 → c.yieldTarget .b i = 17) ∧
    (c.limits.clearSpans + 2 ≤ i.1 → c.yieldTarget .a i + c.limits.clearSpans + 1 = i.1) ∧
    (i.1 < c.limits.clearSpans + 2 → c.yieldTarget .a i = 0) := by
  unfold Part.yieldTarget
  dsimp only
  refine ⟨fun h => ?_, fun h => ?_, fun h => ?_, fun h => ?_⟩ <;> split <;> omega

/-- A yield (R120). -/
theorem Part.issueYield_robot (y x : Side) (t : Nat) : (c.issueYield y t).robot x = if x = y then { c.robot y with
    state := .yielding, held := some (hull ((c.robot y).span.getD t) t)
    yieldTo := some (t, c.now + c.limits.moveTimeout) } else c.robot x := by
  have hmv : ∀ (d : Part) o, (d.robotOrder y o).robot x = d.robot x := fun d o => by
    have := (Part.queueOrder_same (c := d) (d.robotAddr y) ⟨o, none⟩).2.1
    cases x
    · exact congrArg MoveScheduler.robotA this
    · exact congrArg MoveScheduler.robotB this
  exact (hmv _ _).trans (Part.setRobot_robot _ _ _)

theorem Part.issueYield_same (y : Side) (t : Nat) :
    (c.issueYield y t).mv.moves = c.mv.moves ∧ (c.issueYield y t).inv = c.inv := by
  obtain ⟨hinv, -, -, -, -, -, hmoves⟩ := Part.setRobot_same (c := c) y { c.robot y with
    state := .yielding, held := some (hull ((c.robot y).span.getD t) t)
    yieldTo := some (t, c.now + c.limits.moveTimeout) }
  unfold Part.issueYield Part.robotOrder Part.order
  dsimp only
  obtain ⟨oinv, omv, -⟩ := Part.queueOrder_same (c := c.setRobot y { c.robot y with
    state := .yielding, held := some (hull ((c.robot y).span.getD t) t)
    yieldTo := some (t, c.now + c.limits.moveTimeout) }) ((c.setRobot y _).robotAddr y) ⟨.yieldTo t, none⟩
  exact ⟨(congrArg MoveScheduler.moves omv).trans hmoves, oinv.trans hinv⟩

theorem Part.issueYield_node {y : Side} {t a : Nat} {n : Node} (hy : c.robotAddr y = some a)
    (ha : (c.planOf a).kind ≠ .none) (hn : c.node? a = some n) :
    (c.issueYield y t).node? a = some { n with queue := n.queue ++ [⟨.yieldTo t, none⟩] } := by
  obtain ⟨-, hbus, htables, -⟩ := Part.setRobot_same (c := c) y { c.robot y with
    state := .yielding, held := some (hull ((c.robot y).span.getD t) t)
    yieldTo := some (t, c.now + c.limits.moveTimeout) }
  unfold Part.issueYield Part.robotOrder Part.order Part.robotAddr
  dsimp only
  rw [htables]
  rw [show c.tables.nodeFor .robot y.index = some a from hy]
  refine Part.queueOrder_node _ ?_ ?_
  · unfold Part.planOf
    rw [htables]
    exact ha
  · unfold Part.node?
    rw [hbus]
    exact hn

/-! ### The arbiter -/

/-- The other robot's candidate goes first (R119): it is clear, and keeps clear of the interval `i`. -/
def Part.goesFirst (c : Part) (y : Side) (i : Nat × Nat) (k : Move) (j : Nat × Nat) : Prop :=
  c.candidate y = some k ∧ c.needed y k = some j ∧ c.clearFor y j = true ∧ keepsClear y c.limits.clearSpans j i = true

/-- An IDLE robot can be sent away (R120). -/
def Part.sendable (c : Part) (y : Side) : Prop :=
  (c.robot y).state = .idle ∧ (c.robot y).held ≠ none ∧ (c.robot y.other).held ≠ none

theorem Side.other_other (x : Side) : x.other.other = x := by
  cases x <;> rfl

theorem Part.arbitrate_none {x : Side} {m : Move} (h : c.needed x m = none) : c.arbitrate x m = none := by
  unfold Part.arbitrate
  rw [h]

theorem Part.arbitrate_clear {x : Side} {m : Move} {i : Nat × Nat} (h : c.needed x m = some i) (hc : c.clearFor x i = true) :
    c.arbitrate x m = some (c.grant x m i) := by
  unfold Part.arbitrate
  rw [h]
  exact if_pos hc

theorem Part.sendable_iff (x : Side) : c.sendable x.other ↔
    (c.robot x.other).state = .idle ∧ (c.robot x.other).held.isSome = true ∧ (c.robot x).held.isSome = true := by
  unfold Part.sendable
  rw [Side.other_other]
  simp only [Option.isSome_iff_ne_none]

theorem Part.arbitrate_first {x : Side} {m k : Move} {i j : Nat × Nat} (h : c.needed x m = some i)
    (hc : c.clearFor x i = false) (hs : c.sendable x.other) (hf : c.goesFirst x.other i k j) :
    c.arbitrate x m = some (c.grant x.other k j) := by
  obtain ⟨hk, hj, hclear, hapart⟩ := hf
  unfold Part.arbitrate
  rw [h]
  dsimp only
  rw [if_neg (by simp [hc]), if_pos ((Part.sendable_iff x).1 hs), hk]
  dsimp only
  rw [hj]
  dsimp only
  rw [if_pos (by simp [hclear, hapart])]

theorem Part.arbitrate_yield {x : Side} {m : Move} {i : Nat × Nat} (h : c.needed x m = some i)
    (hc : c.clearFor x i = false) (hs : c.sendable x.other) (hf : ∀ k j, ¬c.goesFirst x.other i k j) :
    c.arbitrate x m = some (c.issueYield x.other (c.yieldTarget x.other i)) := by
  unfold Part.arbitrate
  rw [h]
  dsimp only
  rw [if_neg (by simp [hc]), if_pos ((Part.sendable_iff x).1 hs)]
  cases hk : c.candidate x.other with
  | none => rfl
  | some k =>
    dsimp only
    cases hj : c.needed x.other k with
    | none => rfl
    | some j => 
      dsimp only
      rw [if_neg]
      rw [Bool.and_eq_true]
      exact fun ⟨h1, h2⟩ => hf k j ⟨hk, hj, h1, h2⟩

theorem Part.arbitrate_waits {x : Side} {m : Move} {i : Nat × Nat} (h : c.needed x m = some i)
    (hc : c.clearFor x i = false) (hs : ¬c.sendable x.other) : c.arbitrate x m = none := by
  unfold Part.arbitrate
  rw [h]
  dsimp only
  rw [if_neg (by simp [hc]), if_neg fun e => hs ((Part.sendable_iff x).2 e)]

/-- All that the arbiter can do with a candidate: grant it, grant the other robot's, or send that robot away. -/
theorem Part.arbitrate_cases {x : Side} {m : Move} {d : Part} (h : c.arbitrate x m = some d) :
    ∃ i, c.needed x m = some i ∧ ((c.clearFor x i = true ∧ d = c.grant x m i) ∨
      (c.clearFor x i = false ∧ c.sendable x.other ∧ ((∃ k j, c.goesFirst x.other i k j ∧ d = c.grant x.other k j) ∨
        d = c.issueYield x.other (c.yieldTarget x.other i)))) := by
  cases hn : c.needed x m with
  | none => 
    rw [Part.arbitrate_none hn] at h
    cases h
  | some i =>
    refine ⟨i, rfl, ?_⟩
    cases hc : c.clearFor x i with
    | true =>
      rw [Part.arbitrate_clear hn hc] at h
      exact Or.inl ⟨rfl, (Option.some.inj h).symm⟩
    | false =>
      refine Or.inr ⟨rfl, ?_⟩
      by_cases hs : c.sendable x.other
      · refine ⟨hs, ?_⟩
        by_cases hf : ∃ k j, c.goesFirst x.other i k j
        · obtain ⟨k, j, hf⟩ := hf
          rw [Part.arbitrate_first hn hc hs hf] at h
          exact Or.inl ⟨k, j, hf, (Option.some.inj h).symm⟩
        · rw [Part.arbitrate_yield hn hc hs fun k j e => hf ⟨k, j, e⟩] at h
          exact Or.inr (Option.some.inj h).symm
      · rw [Part.arbitrate_waits hn hc hs] at h
        cases h

/-! ### Precedence (R118, R119) -/

theorem Part.railOnce_none (ha : c.candidate .a = none) (hb : c.candidate .b = none) : c.railOnce = none := by
  unfold Part.railOnce
  rw [ha, hb]

theorem Part.railOnce_alone {x : Side} {m : Move} (h : c.candidate x = some m) (ho : c.candidate x.other = none) :
    c.railOnce = c.arbitrate x m := by
  unfold Part.railOnce
  cases x
  · rw [h, show c.candidate .b = none from ho]
  · rw [h, show c.candidate .a = none from ho]

theorem Move.ahead_iff (m k : Move) : m.ahead k = true ↔
    (m.express = true ∧ k.express = false) ∨ (m.express = k.express ∧ m.seq < k.seq) := by
  unfold Move.ahead
  split
  · rename_i h
    simp [h]
  · rename_i h
    cases hm : m.express <;> cases hk : k.express <;> simp_all

theorem Part.railOnce_ahead {x : Side} {m k : Move} (h : c.candidate x = some m) (ho : c.candidate x.other = some k)
    (ha : m.ahead k = true) : c.railOnce = (c.arbitrate x m <|> c.arbitrate x.other k) := by
  have hnot : k.ahead m = false := by
    rw [Bool.eq_false_iff, ne_eq, Move.ahead_iff]
    rw [Move.ahead_iff] at ha
    rcases ha with ⟨h1, h2⟩ | ⟨h1, h2⟩
    · simp [h1, h2]
    · rw [h1]
      simp
      omega
  unfold Part.railOnce
  cases x
  · rw [h, show c.candidate .b = some k from ho]
    exact if_pos ha
  · rw [h, show c.candidate .a = some k from ho]
    exact if_neg (by simp [hnot])

theorem Part.railOnce_cases {d : Part} (h : c.railOnce = some d) :
    ∃ x m, c.candidate x = some m ∧ c.arbitrate x m = some d := by
  unfold Part.railOnce at h
  cases ha : c.candidate .a with
  | none =>
    cases hb : c.candidate .b with
    | none =>
      rw [ha, hb] at h
      cases h
    | some k =>
      rw [ha, hb] at h
      exact ⟨.b, k, hb, h⟩
  | some m =>
    cases hb : c.candidate .b with
    | none =>
      rw [ha, hb] at h
      exact ⟨.a, m, ha, h⟩
    | some k =>
      rw [ha, hb] at h
      dsimp only at h
      split at h
      · rcases (Option.orElse_eq_some _ _ _).1 h with h | ⟨-, h⟩
        · exact ⟨.a, m, ha, h⟩
        · exact ⟨.b, k, hb, h⟩
      · rcases (Option.orElse_eq_some _ _ _).1 h with h | ⟨-, h⟩
        · exact ⟨.b, k, hb, h⟩
        · exact ⟨.a, m, ha, h⟩

end Sys2Proof.Machine
end

section
/-! SUPPORT. What a grant does (R121, R22, R96). -/

namespace Sys2Proof.Machine

variable {c : Part}

/-! ### The Job Engine at a dispatch -/

theorem Part.setStep_same (j k : Nat) (f : Step → Step) : (c.setStep j k f).inv = c.inv ∧ (c.setStep j k f).mv = c.mv ∧
    (c.setStep j k f).bus = c.bus ∧ (c.setStep j k f).tables = c.tables ∧ (c.setStep j k f).out = c.out := by
  unfold Part.setStep Part.updJob
  split <;> exact ⟨rfl, rfl, rfl, rfl, rfl⟩

theorem Part.setStep_step {j k : Nat} {b : Job} {st : Step} (f : Step → Step) (hb : c.job? j = some b)
    (hst : b.steps[k]? = some st) :
    ∃ b', (c.setStep j k f).job? j = some b' ∧ b'.steps[k]? = some (f st) := by
  refine ⟨{ b with steps := b.steps.set k (f st) }, ?_, ?_⟩
  · unfold Part.setStep Part.updJob
    rw [hb]
    dsimp only
    rw [hst]
    exact Store.find_put_self _ _ _
  · rw [List.getElem?_set_self]
    exact (List.getElem?_eq_some_iff.1 hst).1

theorem Part.sendIdle_same (j : Nat) : (c.sendIdle j).inv = c.inv ∧ (c.sendIdle j).mv = c.mv ∧
    (c.sendIdle j).out = c.out ∧ ∀ k, (c.sendIdle j).job? k = c.job? k := by
  unfold Part.sendIdle
  split
  · exact ⟨rfl, rfl, rfl, fun _ => rfl⟩
  · rename_i r _
    split
    · exact ⟨rfl, rfl, rfl, fun _ => rfl⟩
    · obtain ⟨hinv, hmv, -, hjobs, hout⟩ :=
        Part.queueOrder_same (c := c) (c.portAddr r.port) ⟨.portJob false j r.kind, none⟩
      have hjob : (c.portOrder r.port (.portJob false j r.kind)).jobs = c.jobs := hjobs
      refine ⟨hinv, hmv, hout, fun k => ?_⟩
      unfold Part.job? Part.putPort
      dsimp only
      rw [hjob]

theorem Part.sendIdle_node {a : Nat} {n : Node} (j : Nat) (hn : c.node? a = some n) :
    ∃ v, (c.sendIdle j).node? a = some { n with queue := n.queue ++ v } := by
  have hsame : c.node? a = some { n with queue := n.queue ++ [] } := by simpa using hn
  unfold Part.sendIdle
  split
  · exact ⟨[], hsame⟩
  · rename_i r _
    split
    · exact ⟨[], hsame⟩
    · exact Part.queueOrder_extends (c.portAddr r.port) ⟨.portJob false j r.kind, none⟩ hn

/-- What the dispatch of a move does to its owner's job changes neither the Location Table nor the robots. -/
theorem Part.dispatched_same (m : Move) : (c.dispatched m).inv = c.inv ∧ (c.dispatched m).mv = c.mv ∧
    (c.dispatched m).out = c.out := by
  unfold Part.dispatched
  split
  · rename_i j k _
    split
    · obtain ⟨sinv, smv, -, -, sout⟩ := Part.setStep_same (c := c) j k fun st => { st with state := .moving }
      obtain ⟨iinv, imv, iout, -⟩ := Part.sendIdle_same (c := c.setStep j k fun st => { st with state := .moving }) j
      split
      · dsimp only
        split
        · exact ⟨iinv.trans sinv, imv.trans smv, iout.trans sout⟩
        · exact ⟨sinv, smv, sout⟩
      · exact ⟨rfl, rfl, rfl⟩
    · exact ⟨rfl, rfl, rfl⟩
  · exact ⟨rfl, rfl, rfl⟩

theorem Part.dispatched_node {a : Nat} {n : Node} (m : Move) (hn : c.node? a = some n) :
    ∃ v, (c.dispatched m).node? a = some { n with queue := n.queue ++ v } := by
  have hsame : c.node? a = some { n with queue := n.queue ++ [] } := by simpa using hn
  unfold Part.dispatched
  split
  · rename_i j k _
    have hstep : (c.setStep j k fun st => { st with state := .moving }).node? a = some n := by
      unfold Part.node?
      rw [(Part.setStep_same j k _).2.2.1]
      exact hn
    split
    · split
      · dsimp only
        split
        · exact Part.sendIdle_node j hstep
        · exact ⟨[], by simpa using hstep⟩
      · exact ⟨[], hsame⟩
    · exact ⟨[], hsame⟩
  · exact ⟨[], hsame⟩

/-- A delivery step becomes MOVING (R96). -/
theorem Part.dispatched_step {m : Move} {j k : Nat} {b : Job} {st : Step} (hm : m.owner = .step j k)
    (hb : c.job? j = some b) (hkind : b.kind = .deliver) (hst : b.steps[k]? = some st) :
    ∃ b', (c.dispatched m).job? j = some b' ∧ b'.steps[k]? = some { st with state := .moving } := by
  obtain ⟨b', hb', hst'⟩ := Part.setStep_step (fun st => { st with state := .moving }) hb hst
  refine ⟨b', ?_, hst'⟩
  unfold Part.dispatched
  rw [hm]
  dsimp only
  rw [hb]
  dsimp only
  rw [if_pos hkind]
  split
  · rw [(Part.sendIdle_same j).2.2.2]
    exact hb'
  · exact hb'

/-! ### The dispatch -/

/-- The move as it is dispatched. -/
def Part.departing (c : Part) (m : Move) : Move :=
  { m with state := .dispatched, dispatched := some (c.now, c.now + c.limits.moveTimeout) }

/-- The blocks with the robot BUSY and the move DISPATCHED, before its order is queued. -/
def Part.departed (c : Part) (x : Side) (m : Move) (i : Nat × Nat) : Part :=
  (c.setRobot x { c.robot x with state := .busy, held := some i, current := some m.num }).putMove (c.departing m)

/-- The order a dispatch sends to the robot (R121). -/
def Part.orderFor (c : Part) (m : Move) : Option Order :=
  match m.kind, m.src, m.dst with
  | .scan, _, some d => some (.scanAt m.num (c.tables.coord d))
  | _, some s, some d => some (.moveLeg m.num (c.tables.coord s) (c.tables.coord d))
  | _, _, _ => none

theorem Part.orderFor_scan {m : Move} {l : Nat} (hk : m.kind = .scan) (hl : m.dst = some l) :
    c.orderFor m = some (.scanAt m.num (c.tables.coord l)) := by
  unfold Part.orderFor
  rw [hk, hl]

theorem Part.orderFor_leg {m : Move} {s l : Nat} (hk : m.kind ≠ .scan) (hs : m.src = some s) (hl : m.dst = some l) :
    c.orderFor m = some (.moveLeg m.num (c.tables.coord s) (c.tables.coord l)) := by
  unfold Part.orderFor
  rw [hs, hl]
  cases h : m.kind with
  | scan => exact absurd h hk
  | _ => rfl

/-- A dispatch with the order it sends. -/
theorem Part.dispatch_eq {x : Side} {m : Move} {i : Nat × Nat} {o : Order} (ho : c.orderFor m = some o) :
    c.dispatch x m i = ((c.departed x m i).robotOrder x o).dispatched m := by
  have heq : c.dispatch x m i = Part.dispatched (match c.orderFor m with
    | some o => (c.departed x m i).robotOrder x o
    | none => c.departed x m i) m := rfl
  rw [heq, ho]

theorem Part.departed_same (x : Side) (m : Move) (i : Nat × Nat) : (c.departed x m i).inv = c.inv ∧
    (c.departed x m i).bus = c.bus ∧ (c.departed x m i).tables = c.tables ∧ (c.departed x m i).jobs = c.jobs ∧
    (c.departed x m i).out = c.out := by
  obtain ⟨hinv, hbus, htables, hjobs, hout, -⟩ :=
    Part.setRobot_same (c := c) x { c.robot x with state := .busy, held := some i, current := some m.num }
  exact ⟨hinv, hbus, htables, hjobs, hout⟩

theorem Part.departed_robot (x y : Side) (m : Move) (i : Nat × Nat) : (c.departed x m i).robot y =
    if y = x then { c.robot x with state := .busy, held := some i, current := some m.num } else c.robot y := by
  rw [← Part.setRobot_robot]
  cases y <;> rfl

theorem Part.departed_move {x : Side} {m : Move} {i : Nat × Nat} (h : c.move? m.num = some m) :
    (c.departed x m i).move? m.num = some (c.departing m) := by
  have hmoves := (Part.setRobot_same (c := c) x
    { c.robot x with state := .busy, held := some i, current := some m.num }).2.2.2.2.2.2
  have hlook : ∀ l : List Move, (l.map fun k => if k.num = (c.departing m).num then { c.departing m with seq := k.seq }
      else k).find? (fun k => decide (k.num = m.num)) = (l.find? fun k => decide (k.num = m.num)).map fun k =>
      if k.num = (c.departing m).num then { c.departing m with seq := k.seq } else k := fun l => by
    rw [List.find?_map]
    congr 2
    funext k
    dsimp only [Function.comp]
    split
    · rename_i e
      simp [e, Part.departing]
    · rfl
  unfold Part.move? at h
  unfold Part.departed Part.move? Part.putMove
  dsimp only
  rw [hmoves, hlook, h]
  simp [Part.departing]

/-- All that a dispatch does, apart from what the places' own entries become. -/
structure Part.Goes (c d : Part) (x : Side) (m : Move) (i : Nat × Nat) (o : Order) : Prop where
  robot : d.robot x = { c.robot x with state := .busy, held := some i, current := some m.num }
  move : d.move? m.num = some { m with state := .dispatched, dispatched := some (c.now, c.now + c.limits.moveTimeout) }
  queue : ∀ a n, c.robotAddr x = some a → (c.planOf a).kind ≠ .none → c.node? a = some n →
    ∃ v, d.node? a = some { n with queue := n.queue ++ ⟨o, none⟩ :: v }
  step : ∀ j k b st, m.owner = .step j k → c.job? j = some b → b.kind = .deliver → b.steps[k]? = some st →
    ∃ b', d.job? j = some b' ∧ b'.steps[k]? = some { st with state := .moving }
  out : d.out = c.out

theorem Part.dispatch_mv (x : Side) (m : Move) (i : Nat × Nat) : (c.dispatch x m i).mv = (c.departed x m i).mv := by
  have heq : c.dispatch x m i = Part.dispatched (match c.orderFor m with
    | some o => (c.departed x m i).robotOrder x o
    | none => c.departed x m i) m := rfl
  rw [heq, (Part.dispatched_same m).2.1]
  cases c.orderFor m with
  | none => rfl
  | some o => exact (Part.queueOrder_same _ _).2.1

theorem Part.dispatch_goes {x : Side} {m : Move} {i : Nat × Nat} {o : Order} (ho : c.orderFor m = some o)
    (hm : c.move? m.num = some m) : c.Goes (c.dispatch x m i) x m i o := by
  obtain ⟨-, pbus, ptables, pjobs, pout⟩ := Part.departed_same (c := c) x m i
  obtain ⟨-, -, -, qjobs, qout⟩ :=
    Part.queueOrder_same (c := c.departed x m i) ((c.departed x m i).robotAddr x) ⟨o, none⟩
  obtain ⟨-, -, dout⟩ := Part.dispatched_same (c := (c.departed x m i).robotOrder x o) m
  have hmv := Part.dispatch_mv (c := c) x m i
  rw [Part.dispatch_eq ho] at hmv ⊢
  refine ⟨?_, ?_, fun a n ha hp hn => ?_, fun j k b st hj hb hkind hst => ?_, dout.trans (qout.trans pout)⟩
  · have hrobot := Part.departed_robot (c := c) x x m i
    rw [if_pos rfl] at hrobot
    refine Eq.trans ?_ hrobot
    cases x
    · exact congrArg MoveScheduler.robotA hmv
    · exact congrArg MoveScheduler.robotB hmv
  · refine Eq.trans ?_ (Part.departed_move (x := x) (i := i) hm)
    unfold Part.move?
    rw [hmv]
  · have haddr : (c.departed x m i).robotAddr x = some a := by
      unfold Part.robotAddr
      rw [ptables]
      exact ha
    have hplan : ((c.departed x m i).planOf a).kind ≠ .none := by
      unfold Part.planOf
      rw [ptables]
      exact hp
    have hnode : (c.departed x m i).node? a = some n := by
      unfold Part.node?
      rw [pbus]
      exact hn
    have hqueue : ((c.departed x m i).robotOrder x o).node? a = some { n with queue := n.queue ++ [⟨o, none⟩] } := by
      unfold Part.robotOrder Part.order
      rw [haddr]
      exact Part.queueOrder_node _ hplan hnode
    obtain ⟨v, hv⟩ := Part.dispatched_node m hqueue
    exact ⟨v, by simpa using hv⟩
  · refine Part.dispatched_step hj ?_ hkind hst
    unfold Part.job?
    rw [show ((c.departed x m i).robotOrder x o).jobs = c.jobs from qjobs.trans pjobs]
    exact hb

theorem Part.dispatch_inv {x : Side} {m : Move} {i : Nat × Nat} {o : Order} (ho : c.orderFor m = some o) :
    (c.dispatch x m i).inv = c.inv := by
  rw [Part.dispatch_eq ho]
  exact (Part.dispatched_same m).1.trans ((Part.queueOrder_same _ _).1.trans (Part.departed_same x m i).1)

end Sys2Proof.Machine
end

section
/-! SUPPORT. The grant: its tests, the places and the record it changes, and each of its outcomes (R14 to R16, R22, R121). -/

namespace Sys2Proof.Machine

variable {c : Part}

/-! ### The places and the record -/

theorem Part.grantPlaces_same (m : Move) : (c.grantPlaces m).mv = c.mv ∧ (c.grantPlaces m).bus = c.bus ∧
    (c.grantPlaces m).tables = c.tables ∧ (c.grantPlaces m).jobs = c.jobs ∧ (c.grantPlaces m).out = c.out ∧
    (c.grantPlaces m).now = c.now := by
  have hset : ∀ (d : Part) l o, (d.setOcc l o).mv = d.mv ∧ (d.setOcc l o).bus = d.bus ∧
      (d.setOcc l o).tables = d.tables ∧ (d.setOcc l o).jobs = d.jobs ∧ (d.setOcc l o).out = d.out ∧
      (d.setOcc l o).now = d.now := fun d l o => by
    unfold Part.setOcc
    dsimp only
    repeat' split
    all_goals simp
  have hupd : ∀ (d : Part) n f, (d.updRec n f).mv = d.mv ∧ (d.updRec n f).bus = d.bus ∧
      (d.updRec n f).tables = d.tables ∧ (d.updRec n f).jobs = d.jobs ∧ (d.updRec n f).out = d.out ∧
      (d.updRec n f).now = d.now := fun d n f => by
    unfold Part.updRec
    split
    · exact ⟨rfl, rfl, rfl, rfl, rfl, rfl⟩
    · dsimp only
      split <;> simp
  unfold Part.grantPlaces
  split
  · simp only [hset, hupd, and_self]
  · exact ⟨rfl, rfl, rfl, rfl, rfl, rfl⟩

theorem Part.grantPlaces_none {m : Move} (h : m.reticle = none) : c.grantPlaces m = c := by
  unfold Part.grantPlaces
  rw [h]

/-- A location other than the default reads back as it was written. -/
theorem Part.setOcc_occ_self {l : Nat} {o : Occ} (h : o ≠ .unknown) : (c.setOcc l o).occ l = o := by
  unfold Part.occ
  rw [Part.setOcc_inv]
  unfold Part.putOcc Store.setD Store.getD
  dsimp only
  rw [if_neg h, Store.find_put_self]
  rfl

/-- The source is OUTBOUND, the destination INBOUND and the record IN_TRANSIT (R22, R121). -/
theorem Part.grantPlaces_spec {m : Move} {n s l : Nat} {v : Bool} {r : Rec} (hn : m.reticle = some n)
    (hs : m.src = some s) (hl : m.dst = some l) (ho : c.occ s = .occupied n v) (hv : c.occ l = .vacant)
    (hr : c.rec? n = some r) :
    (c.grantPlaces m).occ s = .outbound n v ∧ (c.grantPlaces m).occ l = .inbound n ∧
      (∀ a, a ≠ s → a ≠ l → (c.grantPlaces m).occ a = c.occ a) ∧
      (c.grantPlaces m).rec? n = some { r with state := .inTransit, job := m.stepRef <|> r.job } ∧
      ∀ k, k ≠ n → (c.grantPlaces m).rec? k = c.rec? k := by
  have hne : s ≠ l := fun e => by
    rw [e, hv] at ho
    cases ho
  have heq : c.grantPlaces m = ((c.setOcc s (.outbound n v)).setOcc l (.inbound n)).updRec n fun r =>
      { r with state := .inTransit, job := m.stepRef <|> r.job } := by
    unfold Part.grantPlaces
    rw [hn, hs, hl]
    dsimp only
    rw [ho]
    rfl
  rw [heq]
  refine ⟨?_, ?_, fun a has hal => ?_, ?_, fun k hk => ?_⟩
  · rw [Part.updRec_occ, Part.setOcc_occ_ne hne.symm]
    exact Part.setOcc_occ_self nofun
  · rw [Part.updRec_occ]
    exact Part.setOcc_occ_self nofun
  · rw [Part.updRec_occ, Part.setOcc_occ_ne hal.symm, Part.setOcc_occ_ne has.symm]
  · rw [Part.updRec_rec, if_pos rfl, Part.setOcc_rec, Part.setOcc_rec, hr]
    rfl
  · rw [Part.updRec_rec, if_neg hk, Part.setOcc_rec, Part.setOcc_rec]

/-! ### The tests -/

/-- The source still holds the pod the move was admitted with (R121). -/
def Part.holdsAt (c : Part) (m : Move) (s : Nat) : Prop :=
  m.src = some s ∧ c.usable s ∧
    match m.reticle with
    | some n => ∃ v, c.occ s = .occupied n v
    | none => ∃ k, c.occ s = .foreign k

theorem Part.sourceHolds_iff (m : Move) : c.sourceHolds m = true ↔ ∃ s, c.holdsAt m s := by
  unfold Part.sourceHolds Part.holdsAt
  cases m.src with
  | none => simp
  | some s =>
    simp only [Bool.and_eq_true, Part.eligibleSrc_iff, Option.some.injEq, exists_eq_left']
    rw [and_comm]
    refine and_congr_right fun _ => ?_
    cases m.reticle <;> cases c.occ s <;> simp
    exact eq_comm

/-- The pod kind the destination is tested with (R14). -/
def Part.kindFor (c : Part) (m : Move) (s : Nat) : Nat := c.kindOf m.reticle (c.foreignKind s)

/-! ### The outcomes -/

theorem Part.grant_scan {x : Side} {m : Move} {i : Nat × Nat} (hk : m.kind = .scan) :
    c.grant x m i = c.dispatch x m i := if_pos hk

theorem Part.grant_gone {x : Side} {m : Move} {i : Nat × Nat} (hk : m.kind ≠ .scan) (h : ∀ s, ¬c.holdsAt m s) :
    c.grant x m i = c.cancelMove m .atGrant := by
  have hno : c.sourceHolds m = false := Bool.eq_false_iff.2 fun e => by
    obtain ⟨s, hs⟩ := (Part.sourceHolds_iff m).1 e
    exact h s hs
  unfold Part.grant
  rw [if_neg hk, if_pos (by simp [hno])]

section Held

variable {x : Side} {m : Move} {i : Nat × Nat} {s l : Nat} (hk : m.kind ≠ .scan) (h : c.holdsAt m s)
  (hl : m.dst = some l)
include hk h hl

/-- A grant whose source is good turns on its destination. -/
theorem Part.grant_held : c.grant x m i =
    if c.eligibleDst l (c.kindFor m s) then (c.grantPlaces m).dispatch x m i
    else match m.refColumn with
      | none => c.cancelMove m .atGrant
      | some ref => match c.chooseSlot (c.kindFor m s) ref (c.tables.columnAt s + 1) fun _ => true with
        | none => c.cancelMove m .atGrant
        | some q => c.putMove { m with dst := some q } := by
  have hyes : c.sourceHolds m = true := (Part.sourceHolds_iff m).2 ⟨s, h⟩
  unfold Part.grant
  rw [if_neg hk, if_neg (by simp [hyes]), hl, h.1]
  rfl

end Held

/-- A grant writes no robot's record but that of the robot it makes BUSY. -/
theorem Part.grant_robot (x y : Side) (m : Move) (i : Nat × Nat) : (c.grant x m i).robot y = c.robot y ∨
    (y = x ∧ (c.grant x m i).robot y =
      { c.robot x with state := .busy, held := some i, current := some m.num }) := by
  have hframe : (c.cancelMove m .atGrant).robot y = c.robot y := by
    have hmv := ((framed_holds c).cancelMove (m := m) (cause := .atGrant) (Part.Framed.refl c)).mv
    cases y
    · exact (congrArg MoveScheduler.robotA hmv).trans rfl
    · exact (congrArg MoveScheduler.robotB hmv).trans rfl
  have hput : ∀ k : Move, (c.putMove k).robot y = c.robot y := fun k => by
    cases y <;> rfl
  have hdispatch : ∀ d : Part, d.mv = c.mv → (d.dispatch x m i).robot y = c.robot y ∨
      (y = x ∧ (d.dispatch x m i).robot y =
        { c.robot x with state := .busy, held := some i, current := some m.num }) := fun d hd => by
    have hrobots : ∀ z, d.robot z = c.robot z := fun z => by
      cases z
      · exact congrArg MoveScheduler.robotA hd
      · exact congrArg MoveScheduler.robotB hd
    have hmv := Part.dispatch_mv (c := d) x m i
    have hsame : (d.dispatch x m i).robot y = (d.departed x m i).robot y := by
      cases y
      · exact congrArg MoveScheduler.robotA hmv
      · exact congrArg MoveScheduler.robotB hmv
    rw [hsame, Part.departed_robot, hrobots, hrobots]
    split
    · exact Or.inr ⟨‹_›, rfl⟩
    · exact Or.inl rfl
  unfold Part.grant
  dsimp only
  repeat' split
  all_goals first
    | exact hdispatch c rfl | exact hdispatch _ (Part.grantPlaces_same m).1 | exact Or.inl hframe
    | exact Or.inl (hput _)

/-- A grant that passes its tests, seen from the blocks before it (R121). -/
theorem Part.grantPlaces_goes {x : Side} {m : Move} {i : Nat × Nat} {o : Order} (ho : c.orderFor m = some o)
    (hm : c.move? m.num = some m) : c.Goes ((c.grantPlaces m).dispatch x m i) x m i o := by
  obtain ⟨hmv, hbus, htables, hjobs, hout, hnow⟩ := Part.grantPlaces_same (c := c) m
  have ho' : (c.grantPlaces m).orderFor m = some o := by
    unfold Part.orderFor
    rw [htables]
    exact ho
  have hm' : (c.grantPlaces m).move? m.num = some m := by
    unfold Part.move?
    rw [hmv]
    exact hm
  have hrobot : (c.grantPlaces m).robot x = c.robot x := by
    cases x
    · exact congrArg MoveScheduler.robotA hmv
    · exact congrArg MoveScheduler.robotB hmv
  obtain ⟨grobot, gmove, gqueue, gstep, gout⟩ := Part.dispatch_goes (x := x) (i := i) ho' hm'
  refine ⟨by rw [grobot, hrobot], ?_, fun a n ha hp hn => gqueue a n ?_ ?_ ?_, fun j k b st hj hb => gstep j k b st hj ?_,
    gout.trans hout⟩
  · rw [gmove, hnow]
    unfold Part.limits
    rw [htables]
  · unfold Part.robotAddr
    rw [htables]
    exact ha
  · unfold Part.planOf
    rw [htables]
    exact hp
  · unfold Part.node?
    rw [hbus]
    exact hn
  · unfold Part.job?
    rw [hjobs]
    exact hb

/-- What a consideration of the arbiter does to a robot: nothing, a grant or a yield (R117, R119 to R121). -/
theorem Part.railOnce_robot {d : Part} (h : c.railOnce = some d) (x : Side) :
    d.robot x = c.robot x ∨
    (∃ m i, c.candidate x = some m ∧ c.needed x m = some i ∧ c.clearFor x i = true ∧
      d.robot x = { c.robot x with state := .busy, held := some i, current := some m.num }) ∨
    (∃ m i, c.candidate x.other = some m ∧ c.needed x.other m = some i ∧ c.clearFor x.other i = false ∧
      (c.robot x).state = .idle ∧ d.robot x.other = c.robot x.other ∧
      d.robot x = { c.robot x with
        state := .yielding, held := some (hull ((c.robot x).span.getD (c.yieldTarget x i)) (c.yieldTarget x i))
        yieldTo := some (c.yieldTarget x i, c.now + c.limits.moveTimeout) }) := by
  have hgrant : ∀ y m i, c.candidate y = some m → c.needed y m = some i → c.clearFor y i = true → d = c.grant y m i →
      d.robot x = c.robot x ∨ ∃ m i, c.candidate x = some m ∧ c.needed x m = some i ∧ c.clearFor x i = true ∧
        d.robot x = { c.robot x with state := .busy, held := some i, current := some m.num } := by
    rintro y m i hm hi hc rfl
    obtain h | ⟨rfl, h⟩ := Part.grant_robot y x m i
    · exact Or.inl h
    · exact Or.inr ⟨m, i, hm, hi, hc, h⟩
  obtain ⟨y, m, hm, hy⟩ := Part.railOnce_cases h
  obtain ⟨i, hi, ⟨hc, rfl⟩ | ⟨hc, hs, ⟨k, j, ⟨hk, hj, hkc, -⟩, rfl⟩ | rfl⟩⟩ := Part.arbitrate_cases hy
  · exact (hgrant y m i hm hi hc rfl).imp_right Or.inl
  · exact (hgrant _ k j hk hj hkc rfl).imp_right Or.inl
  · by_cases hx : x = y.other
    · subst hx
      refine Or.inr (Or.inr ⟨m, i, ?_, ?_, ?_, hs.1, ?_, ?_⟩)
      · rwa [Side.other_other]
      · rwa [Side.other_other]
      · rwa [Side.other_other]
      · rw [Part.issueYield_robot, if_neg]
        cases y <;> nofun
      · rw [Part.issueYield_robot, if_pos rfl]
    · exact Or.inl (by rw [Part.issueYield_robot, if_neg hx])

end Sys2Proof.Machine
end

section
open Sys2Proof Sys2Proof.Machine

/-- Settles O56: the arbiter's cases for a robot, the tests and targets, and the outcomes of a grant. -/
theorem arbiterKeepsClear : Obligations.ArbiterKeepsClear := by
  refine ⟨fun c d x h => ?_, fun c => ⟨fun x i => ?_, fun x m => ⟨Part.needed_none, fun s hs => Part.needed_some hs⟩,
    Part.yieldTarget_spec, fun y t s hs => ?_, fun x m => ⟨Part.arbitrate_none, fun i hi => ⟨Part.arbitrate_clear hi,
      fun hc ha => ?_, fun hc ha => ?_⟩⟩, Part.railOnce_none, fun x m hm => ⟨Part.railOnce_alone hm, fun k hk ha => ?_⟩⟩,
    fun c x m i hm => ⟨fun l hk hl => ?_, fun hk h => ?_, fun hk s l h hl => ⟨fun hf => ?_, fun hf hr => ?_,
      fun hf ref hr => ⟨fun hn => ?_, fun q hq => ?_⟩⟩⟩⟩
  · exact Part.railOnce_robot h x
  · exact (Part.clearFor_iff x i).trans
      (or_congr_right (exists_congr fun j => and_congr_right fun _ => keepsClear_iff x c.limits.clearSpans i j))
  · obtain ⟨hmoves, hinv⟩ := Part.issueYield_same (c := c) y t
    refine ⟨?_, ?_, hmoves, hinv, fun a n hy ha hn => Part.issueYield_node hy ha hn⟩
    · rw [Part.issueYield_robot, if_pos rfl, hs]
      rfl
    · rw [Part.issueYield_robot, if_neg]
      cases y <;> nofun
  · have hs : c.sendable x.other := ⟨ha.1, ha.2.1, by rw [Side.other_other]; exact ha.2.2⟩
    have hapart := fun j => keepsClear_iff x.other c.limits.clearSpans j i
    exact ⟨fun k j ⟨hk, hj, hkc, hj'⟩ => Part.arbitrate_first hi hc hs ⟨hk, hj, hkc, (hapart j).2 hj'⟩,
      fun hno => Part.arbitrate_yield hi hc hs fun k j ⟨hk, hj, hkc, hj'⟩ => hno k j ⟨hk, hj, hkc, (hapart j).1 hj'⟩⟩
  · exact Part.arbitrate_waits hi hc fun hs => ha ⟨hs.1, hs.2.1, by have := hs.2.2; rwa [Side.other_other] at this⟩
  · rw [Part.railOnce_ahead hm hk ((Move.ahead_iff m k).2 ha)]
    exact ⟨fun d hd => by rw [hd]; rfl, fun hn => by rw [hn]; rfl⟩
  · have ho := Part.orderFor_scan (c := c) hk hl
    obtain ⟨grobot, gmove, gqueue, gstep, gout⟩ := Part.dispatch_goes (x := x) (i := i) ho hm
    rw [Part.grant_scan hk]
    exact ⟨⟨grobot, gmove, gqueue, gstep, gout⟩, Part.dispatch_inv ho⟩
  · exact Part.grant_gone hk h
  · obtain ⟨hplace, hvacant, haccepts⟩ := hf
    have ho := Part.orderFor_leg (c := c) hk h.1 hl
    have hd : c.grant x m i = (c.grantPlaces m).dispatch x m i :=
      (Part.grant_held hk h hl).trans (if_pos ((Part.eligibleDst_iff l _).2 ⟨hplace, hvacant, haccepts⟩))
    have hinv : (c.grant x m i).inv = (c.grantPlaces m).inv := by
      rw [hd]
      refine Part.dispatch_inv (o := .moveLeg m.num (c.tables.coord s) (c.tables.coord l)) ?_
      unfold Part.orderFor
      rw [(Part.grantPlaces_same m).2.2.1]
      exact ho
    obtain ⟨grobot, gmove, gqueue, gstep, gout⟩ := Part.grantPlaces_goes (x := x) (i := i) ho hm
    refine ⟨hd ▸ ⟨grobot, gmove, gqueue, gstep, gout⟩, fun hn => ?_, fun n v r hn hocc hr => ?_⟩
    · rw [hinv, Part.grantPlaces_none hn]
    · obtain ⟨hsrc, hdst, hother, hrec, hrecs⟩ := Part.grantPlaces_spec hn h.1 hl hocc hvacant hr
      have hoccs : ∀ a, (c.grant x m i).occ a = (c.grantPlaces m).occ a := fun a => by
        unfold Part.occ
        rw [hinv]
      have hrecords : ∀ k, (c.grant x m i).rec? k = (c.grantPlaces m).rec? k := fun k => by
        unfold Part.rec?
        rw [hinv]
      refine ⟨(hoccs s).trans hsrc, (hoccs l).trans hdst, fun a h1 h2 => (hoccs a).trans (hother a h1 h2), ?_,
        fun k hkn => (hrecords k).trans (hrecs k hkn)⟩
      refine (hrecords n).trans (hrec.trans ?_)
      unfold Move.stepRef
      cases m.owner <;> rfl
  · refine (Part.grant_held hk h hl).trans ((if_neg (mt (Part.eligibleDst_iff l _).1 hf)).trans ?_)
    rw [hr]
  · have hnone : c.chooseSlot (c.kindFor m s) ref (c.tables.columnAt s + 1) (fun _ => true) = none := hn
    refine (Part.grant_held hk h hl).trans ((if_neg (mt (Part.eligibleDst_iff l _).1 hf)).trans ?_)
    rw [hr]
    dsimp only
    rw [hnone]
  · have hsome : c.chooseSlot (c.kindFor m s) ref (c.tables.columnAt s + 1) (fun _ => true) = some q := hq
    refine (Part.grant_held hk h hl).trans ((if_neg (mt (Part.eligibleDst_iff l _).1 hf)).trans ?_)
    rw [hr]
    dsimp only
    rw [hsome]

end

section
/-! SUPPORT. LOAD_ENTRY: an entry read from bytes, clamped and written into a shadow (R173, R174, R193). -/

namespace Sys2Proof.Machine

/-! ### Bytes -/

theorem ofBytes_lt (b : List Byte) : ofBytes b < 256 ^ b.length := by
  have hfold : ∀ (l : List Byte) (v : Nat), l.foldl (fun v x => v * 256 + x.toNat) v < (v + 1) * 256 ^ l.length := by
    intro l
    induction l with
    | nil => intro v; simp
    | cons x l ih =>
      intro v
      refine Nat.lt_of_lt_of_le (ih _) ?_
      rw [List.length_cons, Nat.pow_succ', ← Nat.mul_assoc]
      refine Nat.mul_le_mul_right _ ?_
      have hx := x.isLt
      dsimp only
      omega
  simpa [ofBytes] using hfold b 0

theorem field_lt (b : List Byte) (p n : Nat) : field b p n < 256 ^ n :=
  Nat.lt_of_lt_of_le (ofBytes_lt _) (Nat.pow_le_pow_right (by omega) (List.length_take_le n _))

theorem field_byte (b : List Byte) : field b 0 1 = (b.getD 0 0).toNat := by
  cases b <;> simp [field, ofBytes]

/-- The four bits of a pod kind set are the low bits of its byte (R3). -/
theorem kindBits (b : List Byte) {k : Nat} (hk : k < 4) :
    (BitVec.ofNat 4 (field b 0 1)).getLsbD k = bitAt b 0 k := by
  rw [field_byte, BitVec.getLsbD_ofNat, bitAt, BitVec.getLsbD]
  simp [hk]

/-! ### Clamping -/

theorem clampTo_zero (hi v : Nat) : clampTo 0 hi v = min hi v := Nat.zero_max _

theorem SlotCfg.clamp_eq (e : SlotCfg) : e.clamp = ⟨e.enabled, min 4095 e.offset, e.kinds⟩ := by
  simp [SlotCfg.clamp, clampTo_zero]

theorem PortCfg.clamp_eq (e : PortCfg) : e.clamp = ⟨e.inPlan, min 15 e.column, e.directed, e.kinds⟩ := by
  simp [PortCfg.clamp, clampTo_zero]

theorem ZoneCfg.clamp_eq (e : ZoneCfg) : e.clamp = ⟨e.enabled, min 63 e.manifold, e.channel⟩ := by
  simp [ZoneCfg.clamp, clampTo_zero]

theorem ClassCfg.clamp_eq (e : ClassCfg) : e.clamp = ⟨e.rate, min 4095 e.credit⟩ := by
  simp [ClassCfg.clamp, clampTo_zero]

/-! ### Writing -/

/-- What a write of one entry of a sparse table leaves. -/
theorem Store.setD_entry {α : Type} [DecidableEq α] {d : α} {m : Store α} (h : Store.rising m = true) (i : Nat) (v : α) :
    Store.getD d (Store.setD d m i v) i = v ∧ ∀ k, k ≠ i → Store.getD d (Store.setD d m i v) k = Store.getD d m k := by
  refine ⟨?_, fun k hk => Store.getD_setD_of_ne d m v hk⟩
  unfold Store.setD Store.getD
  split
  · rename_i hv
    rw [Store.find_erase_self h, hv]
    rfl
  · rw [Store.find_put_self]
    rfl

theorem Shadow.write_slotMap {t : Store SlotCfg} {i : Nat} {b : List Byte} (h : Store.rising t = true) :
    ∃ t' w, (∀ k < 4, w.getLsbD k = bitAt b 0 k) ∧
      (Shadow.slotMap t).write i b = some (.slotMap t', SlotCfg.encode ⟨bitAt b 0 7, min 4095 (field b 1 2), w⟩,
        decide (4095 < field b 1 2)) ∧
      Store.getD SlotCfg.default t' i = ⟨bitAt b 0 7, min 4095 (field b 1 2), w⟩ ∧
      ∀ k, k ≠ i → Store.getD SlotCfg.default t' k = Store.getD SlotCfg.default t k := by
  refine ⟨_, BitVec.ofNat 4 (field b 0 1), fun k hk => kindBits b hk, ?_, Store.setD_entry h i _⟩
  unfold Shadow.write
  dsimp only
  rw [SlotCfg.clamp_eq]
  refine congrArg some (Prod.ext rfl (Prod.ext rfl (decide_eq_decide.2 ?_)))
  simp [SlotCfg.decode]

theorem Shadow.write_port {t : Store PortCfg} {i : Nat} {b : List Byte} (h : Store.rising t = true) :
    ∃ t' w, (∀ k < 4, w.getLsbD k = bitAt b 0 k) ∧
      (Shadow.port t).write i b = some (.port t',
        PortCfg.encode ⟨bitAt b 0 7, min 15 (field b 1 1), bitAt b 0 6, w⟩, decide (15 < field b 1 1)) ∧
      Store.getD PortCfg.default t' i = ⟨bitAt b 0 7, min 15 (field b 1 1), bitAt b 0 6, w⟩ ∧
      ∀ k, k ≠ i → Store.getD PortCfg.default t' k = Store.getD PortCfg.default t k := by
  refine ⟨_, BitVec.ofNat 4 (field b 0 1), fun k hk => kindBits b hk, ?_, Store.setD_entry h i _⟩
  unfold Shadow.write
  dsimp only
  rw [PortCfg.clamp_eq]
  refine congrArg some (Prod.ext rfl (Prod.ext rfl (decide_eq_decide.2 ?_)))
  simp [PortCfg.decode]

theorem Shadow.write_zone {t : ZoneTable} {i : Nat} {b : List Byte} (h : Store.rising t.zones = true) (hi : i < 16) :
    ∃ t', (Shadow.zone t).write i b = some (.zone { t with zones := t' },
        ZoneCfg.encode ⟨bitAt b 0 0, min 63 (field b 1 1), field b 2 1 % 4⟩, decide (63 < field b 1 1)) ∧
      Store.getD ZoneCfg.default t' i = ⟨bitAt b 0 0, min 63 (field b 1 1), field b 2 1 % 4⟩ ∧
      ∀ k, k ≠ i → Store.getD ZoneCfg.default t' k = Store.getD ZoneCfg.default t.zones k := by
  refine ⟨_, ?_, Store.setD_entry h i _⟩
  unfold Shadow.write
  dsimp only
  rw [if_neg (by omega), ZoneCfg.clamp_eq]
  refine congrArg some (Prod.ext rfl (Prod.ext rfl (decide_eq_decide.2 ?_)))
  simp [ZoneCfg.decode]

theorem Shadow.write_sched {t : ZoneTable} {b : List Byte} : (Shadow.zone t).write 16 b =
    some (.zone { t with sched := ⟨max 1 (field b 0 1), max 10 (min 900 (field b 1 2)), max 1 (min 4 (field b 3 1))⟩ },
      SchedCfg.encode ⟨max 1 (field b 0 1), max 10 (min 900 (field b 1 2)), max 1 (min 4 (field b 3 1))⟩,
      decide (field b 0 1 = 0 ∨ field b 1 2 < 10 ∨ 900 < field b 1 2 ∨ field b 3 1 = 0 ∨ 4 < field b 3 1)) := by
  have hbyte := field_lt b 0 1
  have hmin : min 255 (field b 0 1) = field b 0 1 := by omega
  have hclamp : (SchedCfg.decode b).clamp =
      ⟨max 1 (field b 0 1), max 10 (min 900 (field b 1 2)), max 1 (min 4 (field b 3 1))⟩ := by
    simp [SchedCfg.clamp, SchedCfg.decode, clampTo, hmin]
  unfold Shadow.write
  dsimp only
  rw [if_pos rfl, hclamp]
  refine congrArg some (Prod.ext rfl (Prod.ext rfl (decide_eq_decide.2 ?_)))
  simp only [SchedCfg.decode, ne_eq, SchedCfg.mk.injEq]
  omega

theorem Shadow.write_cls {t : List ClassCfg} {i : Nat} {b : List Byte} : (Shadow.cls t).write i b =
    some (.cls (t.set i ⟨field b 0 1, min 4095 (field b 1 2)⟩), ClassCfg.encode ⟨field b 0 1, min 4095 (field b 1 2)⟩,
      decide (4095 < field b 1 2)) := by
  unfold Shadow.write
  dsimp only
  rw [ClassCfg.clamp_eq]
  refine congrArg some (Prod.ext rfl (Prod.ext rfl (decide_eq_decide.2 ?_)))
  simp [ClassCfg.decode]

theorem Shadow.write_limits {t t' : Limits} {i x : Nat} {b : List Byte} (h : t.write i (field b 0 2) = some (t', x)) :
    (Shadow.limits t).write i b = some (.limits t', toBytes 2 x, decide (x ≠ field b 0 2)) := by
  unfold Shadow.write
  dsimp only
  rw [h]
  rfl

/-- The assignment a plan entry stores for a kind (R149). -/
def assignmentKept (k : NodeKind) (v : Nat) : Nat :=
  match k with
  | .robot => v % 2
  | .port => min 7 v
  | .shelf => min 15 v
  | .manifold | .none => 0

theorem PlanEntry.clamp_field (k : NodeKind) (n v : Nat) :
    PlanEntry.clamp ⟨k, n, assignmentField k v⟩ = ⟨k, n, assignmentKept k v⟩ := by
  cases k <;> simp [PlanEntry.clamp, assignmentField, assignmentKept, clampTo_zero]

theorem kindOfCode_kindCode (k : NodeKind) : kindOfCode (kindCode k) = some k := by
  cases k <;> rfl

theorem kindOfCode_above {n : Nat} (h : 4 < n) : kindOfCode n = none := by
  match n, h with
  | _ + 5, _ => rfl

theorem Shadow.write_plan {t : Store PlanEntry} {i : Nat} {b : List Byte} (h : Store.rising t = true) {k : NodeKind}
    (hk : field b 0 1 = kindCode k) :
    ∃ t', (Shadow.plan t).write i b = some (.plan t',
        PlanEntry.encode ⟨k, field b 1 2, assignmentKept k (field b 3 1)⟩,
        decide ((k = .port ∧ 7 < field b 3 1) ∨ (k = .shelf ∧ 15 < field b 3 1))) ∧
      Store.getD PlanEntry.default t' i = ⟨k, field b 1 2, assignmentKept k (field b 3 1)⟩ ∧
      ∀ a, a ≠ i → Store.getD PlanEntry.default t' a = Store.getD PlanEntry.default t a := by
  refine ⟨_, ?_, Store.setD_entry h i _⟩
  have hdecode : PlanEntry.decode b = some ⟨k, field b 1 2, assignmentField k (field b 3 1)⟩ := by
    unfold PlanEntry.decode
    rw [hk, kindOfCode_kindCode]
    rfl
  unfold Shadow.write
  dsimp only
  rw [hdecode, Option.map_some, PlanEntry.clamp_field]
  refine congrArg some (Prod.ext rfl (Prod.ext rfl (decide_eq_decide.2 ?_)))
  cases k <;> simp [assignmentField, assignmentKept]

theorem Shadow.write_plan_code {t : Store PlanEntry} {i : Nat} {b : List Byte} (h : 4 < field b 0 1) :
    (Shadow.plan t).write i b = none := by
  unfold Shadow.write PlanEntry.decode
  dsimp only
  rw [kindOfCode_above h]
  rfl

end Sys2Proof.Machine
end

section
/-! SUPPORT. The validation of a shadow finds the lowest offending index (R4, R54, R61, R116, R150, R175). -/

namespace Sys2Proof.Machine

/-! ### The lowest offending index -/

/-- The answer of a check: the lowest index that offends, and none where no index does. -/
def Finds (r : Option Nat) (bad : Nat → Prop) : Prop :=
  (r = none ↔ ∀ i, ¬bad i) ∧ ∀ i, r = some i ↔ bad i ∧ ∀ k < i, ¬bad k

theorem Finds.of_cases {r : Option Nat} {bad : Nat → Prop} (hnone : r = none → ∀ i, ¬bad i)
    (hsome : ∀ i, r = some i → bad i ∧ ∀ k < i, ¬bad k) : Finds r bad := by
  cases r with
  | none => exact ⟨⟨hnone, fun _ => rfl⟩, fun i => ⟨nofun, fun h => absurd h.1 (hnone rfl i)⟩⟩
  | some j =>
    obtain ⟨hbad, hlow⟩ := hsome j rfl
    refine ⟨⟨nofun, fun h => absurd hbad (h j)⟩, fun i => ⟨hsome i, fun ⟨hi, hk⟩ => congrArg some ?_⟩⟩
    have hij : ¬i < j := fun h => hlow i h hi
    have hji : ¬j < i := fun h => hk j h hbad
    omega

theorem Finds.congr {r : Option Nat} {bad bad' : Nat → Prop} (h : Finds r bad) (hb : ∀ i, bad i ↔ bad' i) :
    Finds r bad' := by
  rwa [show bad' = bad from funext fun i => propext (hb i).symm]

theorem Finds.none_of : Finds none fun _ => False :=
  .of_cases (fun _ _ h => h) nofun

/-- A check put before others that look at higher indices only. -/
theorem Finds.ite {r : Option Nat} {bad : Nat → Prop} (h : Finds r bad) {n : Nat} (habove : ∀ i, bad i → n < i) (q : Prop)
    [Decidable q] : Finds (if q then some n else r) fun i => (i = n ∧ q) ∨ bad i := by
  split
  · rename_i hq
    refine .of_cases nofun fun i hi => ?_
    obtain rfl := Option.some.inj hi
    refine ⟨.inl ⟨rfl, hq⟩, fun k hk hbad => ?_⟩
    rcases hbad with ⟨rfl, _⟩ | hbad
    · exact Nat.lt_irrefl _ hk
    · exact Nat.lt_asymm hk (habove k hbad)
  · rename_i hq
    exact h.congr fun i => ⟨.inr, fun hi => hi.resolve_left fun hn => hq hn.2⟩

/-- A check put after others that look at lower indices only. -/
theorem Finds.orElse_ite {r : Option Nat} {bad : Nat → Prop} (h : Finds r bad) {n : Nat} (hbelow : ∀ i, bad i → i < n)
    (q : Prop) [Decidable q] : Finds (r <|> if q then some n else none) fun i => bad i ∨ (i = n ∧ q) := by
  cases r with
  | none =>
    have hgood : ∀ i, ¬bad i := h.1.1 rfl
    exact (Finds.none_of.ite (n := n) nofun q).congr fun i => ⟨fun hi => .inr (hi.resolve_right id),
      fun hi => .inl (hi.resolve_left (hgood i))⟩
  | some j =>
    obtain ⟨hbad, hlow⟩ := (h.2 j).1 rfl
    refine .of_cases nofun fun i hi => ?_
    obtain rfl := Option.some.inj hi
    refine ⟨.inl hbad, fun k hk hn => ?_⟩
    rcases hn with hn | ⟨rfl, _⟩
    · exact hlow k hk hn
    · exact Nat.lt_asymm hk (hbelow j hbad)

/-- A search through entries of rising index. -/
theorem finds_find {α : Type} (f : α → Nat) (p : α → Bool) {l : List α} (h : (l.map f).Pairwise (· < ·)) :
    Finds ((l.find? p).map f) fun i => ∃ x ∈ l, f x = i ∧ p x = true := by
  induction l with
  | nil => exact Finds.none_of.congr fun i => by simp
  | cons x l ih =>
    obtain ⟨hx, hl⟩ := List.pairwise_cons.1 h
    have habove : ∀ i, (∃ y ∈ l, f y = i ∧ p y = true) → f x < i := by
      rintro i ⟨y, hy, rfl, _⟩
      exact hx _ (List.mem_map_of_mem hy)
    have hfind : ((x :: l).find? p).map f = if p x = true then some (f x) else (l.find? p).map f := by
      cases hp : p x <;> simp [hp]
    rw [hfind]
    refine ((ih hl).ite habove (p x = true)).congr fun i => ?_
    simp only [List.exists_mem_cons_iff]
    exact or_congr_left (and_congr_left' eq_comm)

theorem finds_range (n : Nat) (p : Nat → Bool) : Finds ((List.range n).find? p) fun i => i < n ∧ p i = true := by
  have h := finds_find id p (l := List.range n) (by simpa using List.pairwise_lt_range)
  rw [Option.map_id_fun, id] at h
  exact h.congr fun i => by simp

theorem finds_addresses (p : Nat → Bool) :
    Finds (((List.range 64).drop 1).find? p) fun a => (1 ≤ a ∧ a ≤ 63) ∧ p a = true := by
  have hrise : ((List.range 64).drop 1).Pairwise (· < ·) := List.pairwise_lt_range.drop
  have hmem : ∀ a, a ∈ (List.range 64).drop 1 ↔ 1 ≤ a ∧ a ≤ 63 := by
    intro a
    rw [show (List.range 64).drop 1 = List.range' 1 63 by decide, List.mem_range'_1]
    omega
  have h := finds_find id p (l := (List.range 64).drop 1) (by simpa using hrise)
  rw [Option.map_id_fun, id] at h
  exact h.congr fun i => by simp [← hmem]

/-- A search through the listed entries of a sparse table, for a fault that the default has nowhere. -/
theorem finds_store {α : Type} {d : α} {t : Store α} (h : Store.rising t = true) (p : Nat × α → Bool)
    (hd : ∀ i, p (i, d) = false) : Finds ((t.find? p).map (·.1)) fun i => p (i, Store.getD d t i) = true := by
  refine (finds_find Prod.fst p ((Store.rising_iff t).1 h)).congr fun i => ⟨?_, fun hp => ?_⟩
  · rintro ⟨⟨_, v⟩, hmem, rfl, hp⟩
    rwa [Store.getD, Store.find_of_mem h hmem]
  · cases hf : Store.find t i with
    | none =>
      rw [Store.getD, hf, Option.getD_none, hd] at hp
      exact nomatch hp
    | some v =>
      rw [Store.getD, hf] at hp
      exact ⟨(i, v), Store.mem_of_find hf, rfl, hp⟩

/-! ### Slot map and port table (R4) -/

variable (c : Part)

theorem Occ.names_eq_some {o : Occ} {n : Nat} :
    o.names = some n ↔ (∃ v, o = .occupied n v ∨ o = .outbound n v) ∨ o = .inbound n := by
  cases o <;> simp [Occ.names]

theorem accepts_default {w : BitVec 4} {k : Nat} (h : accepts w k = true) : accepts SlotCfg.default.kinds k = true := by
  have hk : k < 4 := BitVec.lt_of_getLsbD h
  unfold accepts SlotCfg.default
  interval_cases k <;> rfl

theorem finds_badSlotMap {t : Store SlotCfg} (h : Store.rising t = true) : Finds (c.badSlotMap t) fun l =>
    ((c.slotCfg l).enabled = true ∧ (Store.getD SlotCfg.default t l).enabled = false ∧ c.occ l ≠ .vacant) ∨
    ∃ n r, ((∃ v, c.occ l = .occupied n v ∨ c.occ l = .outbound n v) ∨ c.occ l = .inbound n) ∧ c.rec? n = some r ∧
      accepts (c.slotCfg l).kinds r.kind = true ∧ accepts (Store.getD SlotCfg.default t l).kinds r.kind = false := by
  refine (finds_store (d := SlotCfg.default) h _ fun i => ?_).congr fun l => ?_
  · dsimp only
    rw [Bool.or_eq_false_iff]
    refine ⟨by simp [SlotCfg.default], ?_⟩
    split
    · rename_i r _
      rw [Bool.and_eq_false_iff, or_iff_not_imp_left]
      intro ha
      simp [accepts_default (by simpa using ha)]
    · rfl
  · dsimp only
    rw [Bool.or_eq_true]
    refine or_congr (by simp [and_assoc]) ?_
    simp only [← Occ.names_eq_some]
    cases hn : (c.occ l).names with
    | none => simp
    | some n =>
      cases hr : c.rec? n with
      | none => simp [hr]
      | some r => simp [hr]

theorem finds_badPorts (t : Store PortCfg) : Finds (c.badPorts t) fun p =>
    p < 8 ∧ (((c.port p).active ≠ none ∧ (c.portCfg p).column ≠ (Store.getD PortCfg.default t p).column) ∨
      ((c.portCfg p).inPlan = true ∧ (Store.getD PortCfg.default t p).inPlan = false ∧
        ((c.port p).active ≠ none ∨ (c.port p).queue ≠ [] ∨ c.occ (960 + p) ≠ .vacant))) := by
  refine (finds_range 8 _).congr fun p => and_congr_right fun _ => ?_
  simp only [posOf, Bool.or_eq_true, Bool.and_eq_true, Bool.not_eq_true', Option.isSome_iff_ne_none, bne_iff_ne,
    List.isEmpty_eq_false_iff, ne_eq, and_assoc, or_assoc]

/-! ### Zone table and limits (R54, R61, R116) -/

theorem finds_badZones (t : ZoneTable) : Finds (c.badZones t) fun z =>
    (z < 16 ∧ (c.zone z).pass ≠ none ∧ Store.getD ZoneCfg.default t.zones z ≠ c.zoneCfg z) ∨
    (z = 16 ∧ t.sched.concurrency < ((List.range 16).filter fun y => (c.zone y).pass.isSome).length) := by
  refine Finds.orElse_ite ((finds_range 16 _).congr fun z => and_congr_right fun _ => ?_) (fun i hi => hi.1) _
  simp [Option.isSome_iff_ne_none]

theorem Robot.engaged_iff (r : Robot) : r.engaged = true ↔ r.state = .busy ∨ r.state = .yielding := by
  simp [Robot.engaged]

theorem Part.tooClose_iff (gap : Nat) : c.tooClose gap = true ↔
    ∃ j k, (c.robot .a).held = some j ∧ (c.robot .b).held = some k ∧ j ≠ (0, 0) ∧ k ≠ (17, 17) ∧
      k.1 < j.2 + gap + 1 := by
  unfold Part.tooClose Part.parked
  rw [show c.mv.robotA = c.robot .a from rfl, show c.mv.robotB = c.robot .b from rfl]
  cases hj : (c.robot .a).held with
  | none => simp
  | some j =>
    cases hk : (c.robot .b).held with
    | none => simp
    | some k => simp [keepsClear, Side.park, and_assoc]

theorem finds_badLimits (t : Limits) : Finds (c.badLimits t) fun i =>
    (i = 0 ∧ t.eHold ≤ t.eWarn) ∨
    (i = 3 ∧ t.disableA = true ∧ c.limits.disableA = false ∧ ((c.robot .a).state = .busy ∨ (c.robot .a).state = .yielding)) ∨
    (i = 4 ∧ t.disableB = true ∧ c.limits.disableB = false ∧ ((c.robot .b).state = .busy ∨ (c.robot .b).state = .yielding)) ∨
    (i = 5 ∧ ∃ j k, (c.robot .a).held = some j ∧ (c.robot .b).held = some k ∧ j ≠ (0, 0) ∧ k ≠ (17, 17) ∧
      k.1 < j.2 + t.clearSpans + 1) := by
  have h5 := Finds.none_of.ite (n := 5) nofun (c.tooClose t.clearSpans = true)
  have h4 := h5.ite (n := 4) (by grind) ((t.disableB && !c.limits.disableB && c.mv.robotB.engaged) = true)
  have h3 := h4.ite (n := 3) (by grind) ((t.disableA && !c.limits.disableA && c.mv.robotA.engaged) = true)
  refine (h3.ite (n := 0) (by grind) (t.eHold ≤ t.eWarn)).congr fun i => or_congr_right ?_
  simp only [Bool.and_eq_true, Bool.not_eq_true', Robot.engaged_iff, Part.tooClose_iff, or_false, and_assoc]
  rfl

/-! ### Node plan (R150) -/

theorem PlanEntry.listed {t : Store PlanEntry} {y : Nat} (h : (Store.getD PlanEntry.default t y).kind ≠ .none) :
    (y, Store.getD PlanEntry.default t y) ∈ t := by
  unfold Store.getD at h ⊢
  cases hf : Store.find t y with
  | none => rw [hf] at h; exact absurd rfl h
  | some v => exact Store.mem_of_find hf

theorem Store.getD_of_mem {α : Type} {d : α} {t : Store α} (h : Store.rising t = true) {y : Nat} {v : α} (hv : (y, v) ∈ t) :
    Store.getD d t y = v := by
  rw [Store.getD, Store.find_of_mem h hv]
  rfl

theorem planTwin_iff {t : Store PlanEntry} (h : Store.rising t = true) (a : Nat) (e : PlanEntry) :
    planTwin t a e = true ↔ (e.kind = .robot ∨ e.kind = .port ∨ e.kind = .shelf) ∧
      ∃ y, y ≠ a ∧ (Store.getD PlanEntry.default t y).kind = e.kind ∧
        (Store.getD PlanEntry.default t y).assignment = e.assignment := by
  unfold planTwin
  simp only [Bool.and_eq_true, Bool.or_eq_true, beq_iff_eq, bne_iff_ne, List.any_eq_true, or_assoc, and_assoc]
  refine and_congr_right fun hkind => ⟨?_, ?_⟩
  · rintro ⟨⟨y, f⟩, hmem, hne, hk, ha⟩
    refine ⟨y, hne, ?_⟩
    rw [Store.getD_of_mem h hmem]
    exact ⟨hk, ha⟩
  · rintro ⟨y, hne, hk, ha⟩
    refine ⟨_, PlanEntry.listed ?_, hne, hk, ha⟩
    rw [hk]
    rcases hkind with h | h | h <;> rw [h] <;> decide

/-- The manifolds below an address, counted in the listed entries and counted by address. -/
theorem manifoldsBelow_length {t : Store PlanEntry} (h : Store.rising t = true) (a : Nat) :
    (t.filter fun f => f.2.kind == .manifold && f.1 < a).length =
      ((List.range a).filter fun y => (Store.getD PlanEntry.default t y).kind = .manifold).length := by
  have hkeys : (t.map Prod.fst).Nodup := ((Store.rising_iff t).1 h).imp Nat.ne_of_lt
  rw [← List.length_map (f := Prod.fst)]
  refine List.Perm.length_eq ((List.perm_ext_iff_of_nodup (hkeys.sublist (List.filter_sublist.map _))
    (List.nodup_range.filter _)).2 fun y => ?_)
  simp only [List.mem_map, List.mem_filter, Bool.and_eq_true, beq_iff_eq, decide_eq_true_eq, List.mem_range]
  constructor
  · rintro ⟨⟨_, e⟩, ⟨hmem, hk, ha⟩, rfl⟩
    exact ⟨ha, by rw [Store.getD_of_mem h hmem]; exact hk⟩
  · rintro ⟨ha, hk⟩
    exact ⟨_, ⟨PlanEntry.listed (by rw [hk]; decide), hk, ha⟩, rfl⟩

theorem planExcess_iff {t : Store PlanEntry} (h : Store.rising t = true) (a : Nat) (e : PlanEntry) :
    planExcess t a e = true ↔ e.kind = .manifold ∧
      8 ≤ ((List.range a).filter fun y => (Store.getD PlanEntry.default t y).kind = .manifold).length := by
  unfold planExcess
  rw [manifoldsBelow_length h]
  simp

theorem sideOf_eq_some {n : Nat} {x : Side} : sideOf n = some x ↔ n = x.index := by
  unfold sideOf
  cases x
  · simp [Side.index]
  · by_cases h0 : n = 0 <;> simp [Side.index, h0]

theorem Part.nodeInUse_iff (a : Nat) : c.nodeInUse a = true ↔
    (∃ x : Side, (c.planOf a).kind = .robot ∧ (c.planOf a).assignment = x.index ∧
      ((c.robot x).state = .busy ∨ (c.robot x).state = .yielding)) ∨
    ((c.planOf a).kind = .manifold ∧ ∃ z < 16, (c.zoneCfg z).manifold = a ∧ (c.zone z).pass ≠ none) := by
  unfold Part.nodeInUse
  simp only [← sideOf_eq_some, ← Robot.engaged_iff]
  cases (c.planOf a).kind with
  | robot => cases sideOf (c.planOf a).assignment <;> simp
  | manifold => simp [Option.isSome_iff_ne_none]
  | port => simp
  | shelf => simp
  | none => simp

theorem finds_badPlan {t : Store PlanEntry} (h : Store.rising t = true) : Finds (c.badPlan t) fun a =>
    let at_ := Store.getD PlanEntry.default t
    let old := c.planOf a
    1 ≤ a ∧ a ≤ 63 ∧
    ((((at_ a).kind = .robot ∨ (at_ a).kind = .port ∨ (at_ a).kind = .shelf) ∧
        ∃ y, y ≠ a ∧ (at_ y).kind = (at_ a).kind ∧ (at_ y).assignment = (at_ a).assignment) ∨
      ((at_ a).kind = .manifold ∧ 8 ≤ ((List.range a).filter fun y => (at_ y).kind = .manifold).length) ∨
      (at_ a ≠ old ∧
        ((∃ x : Side, old.kind = .robot ∧ old.assignment = x.index ∧
            ((c.robot x).state = .busy ∨ (c.robot x).state = .yielding)) ∨
          (old.kind = .manifold ∧ ∃ z < 16, (c.zoneCfg z).manifold = a ∧ (c.zone z).pass ≠ none)))) := by
  refine (finds_addresses _).congr fun a => and_assoc.trans (and_congr_right fun _ => and_congr_right fun _ => ?_)
  dsimp only
  rw [Bool.or_eq_true, Bool.or_eq_true, Bool.and_eq_true, or_assoc]
  exact or_congr (planTwin_iff h a _) (or_congr (planExcess_iff h a _) (and_congr bne_iff_ne (c.nodeInUse_iff a)))

end Sys2Proof.Machine
end

section
/-! SUPPORT. What LOAD_ENTRY refuses (R173, R193). -/

namespace Sys2Proof.Machine

section
variable {s : State} {tag code i : Nat} {t : TableId} {b : List Byte}

/-- The window of the named table, and none where the window is closed or open for another table. -/
theorem Part.windowFor_eq_none {c : Part} : c.windowFor t = none ↔ ∀ w, c.window = some w → w.shadow.table ≠ t := by
  unfold Part.windowFor
  cases c.window <;> simp

theorem Part.windowFor_eq_some {c : Part} {w : Window} (hw : c.window = some w) (ht : w.shadow.table = t) :
    c.windowFor t = some w := by
  simp [Part.windowFor, hw, ht]

theorem State.windowMode_opens (hf : s.mode = .failSafe → t.opensInFailSafe = true) (k : State × Rsp) :
    s.windowMode t k = k := by
  unfold State.windowMode State.need
  by_cases h : s.mode = .failSafe
  · simp [hf h]
  · simp [h]

/-- A LOAD_ENTRY that fits its table and that the mode lets through turns on the window alone. -/
theorem exec_loadEntry_refused (hl : s.listens = true) (hm : s.mode ≠ .start) (ht : tableOfCode code = some t)
    (hf : s.mode = .failSafe → t.opensInFailSafe = true) (hb : b.length = entryLength t i) {r : Result}
    (h : (s.part.windowFor t = none ∧ r = .noWindow) ∨ ∃ w, s.part.windowFor t = some w ∧
      ((indexOk t i = false ∧ r = .badIndex) ∨ (indexOk t i = true ∧ w.shadow.write i b = none ∧ r = .badRequest))) :
    exec (.loadEntry tag code i b) s = .next (s.refuses 0x61 tag r) := by
  have hfits : entryMisfits code i b = false := by simp [entryMisfits, ht, hb]
  have hpart : s.heard.part.windowFor t = s.part.windowFor t := rfl
  refine State.request_refused hl ?_
  simp only [State.need, hfits, Bool.not_false, if_true, State.notInStart, State.heard_mode, hm, if_false,
    State.tableNamed, ht, State.windowMode_opens (s := s.heard) hf, hpart]
  rcases h with ⟨hw, rfl⟩ | ⟨w, hw, ⟨hi, rfl⟩ | ⟨hi, hwrite, rfl⟩⟩
  · simp [hw]
  · simp [hw, hi]
  · simp [hw, hi, hwrite]

end

end Sys2Proof.Machine
end

section
/-! SUPPORT. A limits entry by its index (R54, R116, R174). -/

namespace Sys2Proof.Machine

/-- What an entry of the limits table gives, stored as `x`. -/
theorem Shadow.write_limits_all (t : Limits) (i : Nat) (b : List Byte) :
    let v := field b 0 2
    let gives : Limits → Nat → Prop := fun t' x =>
      (Shadow.limits t).write i b = some (.limits t', toBytes 2 x, decide (x ≠ v))
    (i = 0 → gives { t with eWarn := v } v) ∧ (i = 1 → gives { t with eHold := v } v) ∧
    (i = 2 → (v < 8 → gives { t with manualPort := some v } v) ∧ (v = 255 → gives { t with manualPort := none } v) ∧
      (8 ≤ v → v ≠ 255 → (Shadow.limits t).write i b = none)) ∧
    (i = 3 → gives { t with disableA := decide (v ≠ 0) } (min 1 v)) ∧
    (i = 4 → gives { t with disableB := decide (v ≠ 0) } (min 1 v)) ∧
    (i = 5 → gives { t with clearSpans := min 2 v } (min 2 v)) ∧
    (i = 6 → gives { t with moveTimeout := max 10 (min 600 v) } (max 10 (min 600 v))) ∧
    (i = 7 → gives { t with stepWaitMax := min 3600 v } (min 3600 v)) ∧
    (i = 8 → gives { t with rollRetry := max 2 (min 60 v) } (max 2 (min 60 v))) ∧
    (i = 9 → gives { t with linkSilence := max 5 (min 255 v) } (max 5 (min 255 v))) ∧
    (i = 10 → gives { t with standaloneOnSilence := decide (v ≠ 0) } (min 1 v)) := by
  intro v gives
  have hflag : decide (v ≠ 0) = (v != 0) := by simp [bne, beq_eq_decide]
  have hzero (hi : Nat) : min hi v = clampTo 0 hi v := (clampTo_zero hi v).symm
  rw [hflag]
  simp only [hzero]
  refine ⟨?_, ?_, ?_, ?_, ?_, ?_, ?_, ?_, ?_, ?_, ?_⟩ <;> rintro rfl
  case refine_3 =>
    refine ⟨fun h => Shadow.write_limits (if_pos h), fun h => Shadow.write_limits ?_, fun h h' => ?_⟩
    · exact (if_neg (by omega : ¬v < 8)).trans (if_pos h)
    · have hnone : t.write 2 v = none := (if_neg (by omega : ¬v < 8)).trans (if_neg h')
      exact congrArg (Option.map _) hnone
  all_goals exact Shadow.write_limits rfl

end Sys2Proof.Machine
end

section
open Sys2Proof Sys2Proof.Machine

/-- Settles O33: what a write does table by table; the refusals of LOAD_ENTRY in their order; and each validation as a
search for the lowest offending index. -/
theorem shadowEntries : Obligations.ShadowEntries := by
  unfold Obligations.ShadowEntries
  refine ⟨fun b i => ⟨fun t => Shadow.write_slotMap, fun t => Shadow.write_port,
    fun t h => ⟨Shadow.write_zone h, fun hi => hi ▸ Shadow.write_sched⟩, fun t => Shadow.write_cls,
    fun t => Shadow.write_limits_all t i b, fun t h => ⟨Shadow.write_plan_code, fun k hk => ?_⟩, fun t => rfl⟩, ?_, ?_⟩
  · have hcode : field b 0 1 = kindCode k := by
      simp only [List.mem_cons, Prod.mk.injEq, List.not_mem_nil, or_false] at hk
      rcases hk with ⟨hf, rfl⟩ | ⟨hf, rfl⟩ | ⟨hf, rfl⟩ | ⟨hf, rfl⟩ | ⟨hf, rfl⟩ <;> exact hf
    cases k <;> exact Shadow.write_plan h hcode
  · intro s tag code i t b hl hm ht hf hb refused inTable
    have hindex : indexOk t i = true ↔ inTable := by
      cases t <;> simp [indexOk, inTable]
    have hrefused := fun r => exec_loadEntry_refused (r := r) (tag := tag) hl hm ht hf hb
    refine ⟨fun h => hrefused _ (.inl ⟨Part.windowFor_eq_none.2 h, rfl⟩), fun w hw hwt => ?_⟩
    have hfor := Part.windowFor_eq_some hw hwt
    refine ⟨fun h => hrefused _ (.inr ⟨w, hfor, .inl ⟨?_, rfl⟩⟩), fun h hwrite => hrefused _ (.inr ⟨w, hfor, .inr ?_⟩)⟩
    · exact Bool.eq_false_iff.2 fun hi => h (hindex.1 hi)
    · exact ⟨hindex.2 h, hwrite, rfl⟩
  · exact fun c => ⟨fun t h => finds_badSlotMap c h, finds_badPorts c, finds_badZones c, fun t => rfl, fun t => rfl,
      finds_badLimits c, fun t h => finds_badPlan c h⟩

end

section
open Sys2Proof Sys2Proof.Machine

/-- Settles O5: soundness of the tables is kept by every write of the blocks (`kept_sound`), a cold start gives it, and so
every step keeps it. -/
theorem soundKept : Obligations.SoundKept :=
  fun _ _ hs he => kept_sound.step (fun image e p => (Part.coldStart_accords image e p).1) hs he
end

section
/-! SUPPORT. QUERY_RETICLE: the record each form of its operand finds (R43). -/

namespace Sys2Proof.Machine

variable {c : Part}

/-- A key that is not found is not listed. -/
theorem Store.not_mem_of_find_none {α : Type} {m : Store α} {k : Nat} (h : Store.find m k = none) (v : α) :
    (k, v) ∉ m := by
  fun_induction Store.find m k <;> grind

/-- The search for the next record finds the lowest number from `n` up that is in use. -/
theorem Part.find_next (h : c.sound) {n k : Nat} (hk : n ≤ k) (hfree : ∀ i, n ≤ i → i < k → c.rec? i = none)
    (huse : c.rec? k ≠ none) : ∃ r, c.inv.recs.find? (fun e => n ≤ e.1) = some (k, r) := by
  obtain ⟨r, hr⟩ := Option.ne_none_iff_exists'.1 huse
  obtain ⟨older, newer, hlist⟩ := List.append_of_mem (Store.mem_of_find hr)
  refine ⟨r, List.find?_eq_some_iff_append.2 ⟨decide_eq_true hk, older, newer, hlist, fun e he => ?_⟩⟩
  have hlt : e.1 < k := by
    have hrise := (Store.rising_iff _).1 h.recs.1
    rw [hlist, List.map_append] at hrise
    exact (List.pairwise_append.1 hrise).2.2 e.1 (List.mem_map_of_mem he) k (by simp)
  have hlow : ¬n ≤ e.1 := fun hle => by
    refine Store.not_mem_of_find_none (hfree e.1 hle hlt) e.2 ?_
    rw [hlist]
    exact List.mem_append_left _ he
  simpa using hlow

variable {s : State} {sel : RetSel}

/-- A record that QUERY_RETICLE finds is settled, and the answer carries it as it then stands. -/
theorem exec_queryReticle_found {tag n : Nat} {r : Rec} (hl : s.listens = true) (hsel : s.part.selectReticle sel = .ok n)
    (hr : (s.part.settle n).rec? n = some r) : exec (.queryReticle tag sel) s = .next
      (s.concludes (s.part.settle n) 0 0x03 tag (Rsp.ok (.reticle n r ((s.part.settle n).verified n)))) := by
  refine State.request_accepted hl ?_
  dsimp only [State.heard_part]
  rw [hsel]
  dsimp only
  rw [hr]

theorem exec_queryReticle_refused {tag : Nat} {x : Result} (hl : s.listens = true)
    (hsel : s.part.selectReticle sel = .error x) :
    exec (.queryReticle tag sel) s = .next (s.refuses 0x03 tag x) := by
  refine State.request_refused hl ?_
  dsimp only [State.heard_part]
  rw [hsel]

end Sys2Proof.Machine
end

section
open Sys2Proof Sys2Proof.Machine

/-- Settles O19: what each form of the queries finds decides the answer. -/
theorem queryEffects : Obligations.QueryEffects := by
  intro s tag n hl
  obtain ⟨hdeaf, hfull⟩ := State.listens_iff.1 hl
  refine ⟨⟨_, rfl, ?_⟩, fun r r' hn hr hr' => exec_queryReticle_found hl ?_ hr', fun hn hr => exec_queryReticle_refused hl ?_,
    fun hn => exec_queryReticle_refused hl ?_, fun x => ⟨fun hx => exec_queryReticle_refused hl ?_,
      fun hx hf => exec_queryReticle_refused hl ?_, fun k r r' hx hf hr' => exec_queryReticle_found hl ?_ hr'⟩,
    fun hn => exec_queryReticle_refused hl ?_, fun hn hfree => exec_queryReticle_refused hl ?_,
    fun k r' hs hn hk hfree huse hr' => exec_queryReticle_found hl ?_ hr', fun older m newer hmoves hm holder => ?_⟩
  · simp only [hdeaf, hfull, Bool.false_eq_true, if_false]
    refine ⟨?_, by simp [State.clearFlags], by simp [State.clearFlags], by simp [State.clearFlags], ?_⟩
    · rw [State.owed_transmit]
      simp [State.owed, State.clearFlags]
    · rw [State.noticed_transmit]
      rfl
  · simp [Part.selectReticle, hr, Nat.not_lt.2 (Nat.le_of_lt_succ hn)]
  · simp [Part.selectReticle, hr, Nat.not_lt.2 (Nat.le_of_lt_succ hn)]
  · exact if_pos hn
  · simp [Part.selectReticle, hx]
  · simp [Part.selectReticle, hx, hf]
  · simp [Part.selectReticle, hx, hf]
  · exact if_pos hn
  · have hnone : s.part.inv.recs.find? (fun e => n ≤ e.1) = none := List.find?_eq_none.2 fun e he hle =>
      Store.not_mem_of_find_none (hfree e.1 (by simpa using hle)) e.2 he
    simp [Part.selectReticle, hnone, Nat.not_lt.2 (Nat.le_of_lt_succ hn)]
  · obtain ⟨r, hfind⟩ := Part.find_next hs hk hfree huse
    simp [Part.selectReticle, hfind, Nat.not_lt.2 (Nat.le_of_lt_succ hn)]
  · have hfind : s.part.mv.moves.find? (fun k => n < k.seq) = some m := List.find?_eq_some_iff_append.2
      ⟨decide_eq_true hm, older, newer, hmoves, fun k hk => by simpa using holder k hk⟩
    refine congrArg Host.Outcome.next ((State.query_listens hl).trans ?_)
    simp [Part.moveRsp, hfind]
end

section
/-! SUPPORT. What the end of a step, of a job, of a port's return and of a move writes: the end of a step leaves every port's
return alone, the end of a return leaves every job alone, and none of them is about a location, a record or a robot. -/

namespace Sys2Proof.Machine

/-! ### The writes of the Job Engine -/

/-- `R` is kept by every write that the end of a step or of a job makes. -/
structure StepSide (R : Part → Prop) : Prop where
  say : ∀ {c : Part} {n}, R c → R (c.say n)
  signal : ∀ {c : Part} {g}, R c → R (c.signal g)
  watch : ∀ {c : Part} {w}, R c → R { c with watch := w }
  jobStore : ∀ {c : Part} {j}, R c → R { c with jobs := { c.jobs with jobs := j } }
  roster : ∀ {c : Part} {r}, R c → R { c with bus := { c.bus with roster := r } }
  sameReturn : ∀ {c : Part} {p r}, r.ret = (c.port p).ret → R c → R (c.putPort p r)

/-- `R` is kept by every write that the end of a port's return makes. -/
structure PortSide (R : Part → Prop) : Prop where
  signal : ∀ {c : Part} {g}, R c → R (c.signal g)
  putPort : ∀ {c : Part} {p r}, R c → R (c.putPort p r)

section StepSide

variable {R : Part → Prop} (K : StepSide R) {c : Part}
include K

theorem StepSide.setStep {j k : Nat} {f : Step → Step} (h : R c) : R (c.setStep j k f) := by
  unfold Part.setStep Part.updJob
  split
  · exact h
  · exact K.jobStore h

theorem StepSide.portOrder {p : Nat} {o : Order} (h : R c) : R (c.portOrder p o) := by
  unfold Part.portOrder Part.order Part.queueOrder Part.putNode
  repeat' split
  all_goals first | exact h | exact K.roster h

theorem StepSide.markStep {j k : Nat} {res : StepResult} {n : Option Nat} (h : R c) : R (c.markStep j k res n) := by
  unfold Part.markStep
  repeat' split
  all_goals first | exact h | exact K.say (K.setStep h)

theorem StepSide.markSteps {j : Nat} {sel : StepState → Bool} {res : StepResult} (h : R c) :
    R (c.markSteps j sel res) := by
  unfold Part.markSteps
  split
  · exact h
  · refine Kept0.each h fun d k hd => ?_
    repeat' split
    all_goals first | exact hd | exact K.markStep hd

theorem StepSide.sendIdle {j : Nat} (h : R c) : R (c.sendIdle j) := by
  unfold Part.sendIdle
  split
  · exact h
  · rename_i b _
    split
    · exact h
    · refine K.sameReturn ?_ (K.portOrder h)
      have hjobs : (c.portOrder b.port (.portJob false j b.kind)).jobs = c.jobs := (Part.queueOrder_same _ _).2.2.2.1
      unfold Part.port
      rw [hjobs]

theorem StepSide.followChain {j p q : Nat} (h : R c) : R (c.followChain j p q) := by
  unfold Part.followChain
  repeat' split
  all_goals first | exact K.sameReturn rfl h | exact K.say h

theorem StepSide.endJob {j : Nat} {out : JobOutcome} (h : R c) : R (c.endJob j out) := by
  unfold Part.endJob
  split
  · exact h
  · rename_i b _
    dsimp only
    have hmarked : R (c.markSteps j (· ≠ .ended) .cancelled) := K.markSteps h
    have hidle : R (if b.active = true then (c.markSteps j (· ≠ .ended) .cancelled).sendIdle j
        else c.markSteps j (· ≠ .ended) .cancelled) := by
      split
      · exact K.sendIdle hmarked
      · exact hmarked
    have hfreed : ∀ (d : Part) s, R d → R (((d.say s).unbindWatch j).dropJob j) := fun d s hd =>
      K.jobStore (K.watch (K.say hd))
    have hends := fun s (r : Port) hr => K.sameReturn (p := b.port) (r := r) hr (hfreed _ s hidle)
    split
    · split
      · exact hends _ _ rfl
      · exact K.followChain (hends _ _ rfl)
    · exact hends _ _ rfl

theorem StepSide.afterStep {j : Nat} {failed : Bool} (h : R c) : R (c.afterStep j failed) := by
  unfold Part.afterStep
  repeat' split
  all_goals first | exact h | exact K.endJob h | exact K.signal h

theorem StepSide.endStep {j k : Nat} {res : StepResult} {n : Option Nat} {failed : Bool} (h : R c) :
    R (c.endStep j k res n failed) := K.afterStep (K.markStep h)

theorem StepSide.restoreReady {p : Nat} {time : Option Nat} (h : R c) : R (c.restoreReady p time) := by
  unfold Part.restoreReady
  dsimp only
  repeat' split
  all_goals first | exact h | exact K.signal (K.sameReturn rfl h)

theorem StepSide.serveReturn {p : Nat} (h : R c) : R (c.serveReturn p) := by
  unfold Part.serveReturn
  dsimp only
  split
  · exact K.signal (K.sameReturn rfl h)
  · exact h

theorem StepSide.signalReturnOf {n : Nat} {r : Rec} (h : R c) : R (c.signalReturnOf n r) := by
  unfold Part.signalReturnOf
  repeat' split
  all_goals first | exact h | exact K.signal h

end StepSide

section PortSide

variable {R : Part → Prop} (K : PortSide R) {c : Part}
include K

theorem PortSide.restoreReady {p : Nat} {time : Option Nat} (h : R c) : R (c.restoreReady p time) := by
  unfold Part.restoreReady
  dsimp only
  repeat' split
  all_goals first | exact h | exact K.signal (K.putPort h)

theorem PortSide.serveReturn {p : Nat} (h : R c) : R (c.serveReturn p) := by
  unfold Part.serveReturn
  dsimp only
  split
  · exact K.signal (K.putPort h)
  · exact h

theorem PortSide.endReturn {p : Nat} (h : R c) : R (c.endReturn p) := by
  unfold Part.endReturn
  split
  · exact h
  · exact K.serveReturn (K.putPort h)

theorem PortSide.newReturn {p : Nat} {pod : Pod} {forced : Bool} (h : R c) : R (c.newReturn p pod forced) :=
  K.signal (K.putPort h)

theorem PortSide.endReturnOf {n l : Nat} (h : R c) : R (c.endReturnOf n l) := by
  unfold Part.endReturnOf
  repeat' split
  all_goals first | exact h | exact K.endReturn h

theorem PortSide.endForeignReturn {l : Nat} (h : R c) : R (c.endForeignReturn l) := by
  unfold Part.endForeignReturn
  repeat' split
  all_goals first | exact h | exact K.endReturn h

theorem PortSide.leavePort {l : Nat} (h : R c) : R (c.leavePort l) := by
  unfold Part.leavePort
  split
  · exact K.endReturn h
  · exact h

theorem PortSide.returnMoveEnd {m : Move} {res : MoveResult} (h : R c) : R (c.returnMoveEnd m res) := by
  unfold Part.returnMoveEnd
  dsimp only
  repeat' split
  all_goals first
    | exact h | exact K.signal (K.putPort h) | exact K.endReturn h | exact K.newReturn h
    | exact K.newReturn (K.endReturn h)

end PortSide

/-- What the end of a job's move does to the job and to the port's return (R97, R100, R105). -/
theorem StepSide.stepMoveEnd {R : Part → Prop} (K : StepSide R) (P : PortSide R) {c : Part} {m : Move} {j k : Nat}
    {res : MoveResult} (h : R c) : R (c.stepMoveEnd m j k res) := by
  unfold Part.stepMoveEnd
  dsimp only
  repeat' split
  all_goals first
    | exact h | exact K.endStep (P.returnMoveEnd (P.restoreReady h)) | exact K.endStep (P.restoreReady h)
    | exact K.endStep (K.sendIdle (P.returnMoveEnd h)) | exact K.endStep (P.returnMoveEnd h)

/-! ### What they leave as it was -/

/-- `d` differs from `c` in what was signalled alone. -/
def Part.Signalled (c d : Part) : Prop := ∃ w, d = { c with work := w }

/-- `d` differs from `c` in the ports' records and in what was signalled alone. -/
def Part.PortOnly (c d : Part) : Prop := ∃ q w, d = { c with jobs := { c.jobs with ports := q }, work := w }

/-- `d` differs from `c` in the writes of the Job Engine alone, and what it said stands behind what was said before. -/
def Part.JobOnly (c d : Part) : Prop := ∃ j u w v o,
  d = { c with jobs := j, bus := { c.bus with roster := u }, work := w, watch := v, out := c.out ++ o }

variable {c d e : Part}

theorem Part.signal_signalled (g : Sig) : c.Signalled (c.signal g) := by
  unfold Part.signal
  split <;> exact ⟨_, rfl⟩

theorem Part.PortOnly.refl (c : Part) : c.PortOnly c := ⟨_, _, rfl⟩

theorem portSide_portOnly (c : Part) : PortSide c.PortOnly where
  signal {d g} h := by
    obtain ⟨q, w, rfl⟩ := h
    obtain ⟨w', hw⟩ := Part.signal_signalled (c := { c with jobs := { c.jobs with ports := q }, work := w }) g
    exact ⟨q, w', hw⟩
  putPort h := by
    obtain ⟨q, w, rfl⟩ := h
    exact ⟨_, _, rfl⟩

theorem Part.JobOnly.refl (c : Part) : c.JobOnly c := ⟨_, _, _, _, [], by rw [List.append_nil]⟩

theorem Part.JobOnly.trans (h : c.JobOnly d) (h' : d.JobOnly e) : c.JobOnly e := by
  obtain ⟨j, u, w, v, o, rfl⟩ := h
  obtain ⟨j', u', w', v', o', rfl⟩ := h'
  exact ⟨j', u', w', v', o ++ o', by rw [List.append_assoc]⟩

theorem Part.PortOnly.jobOnly (h : c.PortOnly d) : c.JobOnly d := by
  obtain ⟨q, w, rfl⟩ := h
  exact ⟨_, _, _, _, [], by rw [List.append_nil]⟩

theorem stepSide_jobOnly (c : Part) : StepSide c.JobOnly where
  say h := h.trans ⟨_, _, _, _, [_], rfl⟩
  signal {d g} h := by
    obtain ⟨w, hw⟩ := Part.signal_signalled (c := d) g
    exact h.trans ⟨_, _, _, _, [], by rw [hw, List.append_nil]⟩
  watch h := h.trans ⟨_, _, _, _, [], by rw [List.append_nil]⟩
  jobStore h := h.trans ⟨_, _, _, _, [], by rw [List.append_nil]⟩
  roster h := h.trans ⟨_, _, _, _, [], by rw [List.append_nil]⟩
  sameReturn _ h := h.trans ⟨_, _, _, _, [], by rw [Part.putPort, List.append_nil]⟩

theorem portSide_jobOnly (c : Part) : PortSide c.JobOnly where
  signal := (stepSide_jobOnly c).signal
  putPort {d _ _} h := h.trans ((portSide_portOnly d).putPort (.refl d)).jobOnly

theorem Part.stepMoveEnd_jobOnly (m : Move) (j k : Nat) (res : MoveResult) : c.JobOnly (c.stepMoveEnd m j k res) :=
  (stepSide_jobOnly c).stepMoveEnd (portSide_jobOnly c) (.refl c)

theorem Part.returnMoveEnd_portOnly (m : Move) (res : MoveResult) : c.PortOnly (c.returnMoveEnd m res) :=
  (portSide_portOnly c).returnMoveEnd (.refl c)

theorem Part.endStep_jobOnly (j k : Nat) (res : StepResult) (n : Option Nat) (failed : Bool) :
    c.JobOnly (c.endStep j k res n failed) := (stepSide_jobOnly c).endStep (.refl c)

/-! ### The ports -/

/-- A port's record that is not the one of a cold start reads back as it was written. -/
theorem Part.putPort_port_ne_cold {p : Nat} {r : Port} (h : r ≠ Port.cold) : (c.putPort p r).port p = r := by
  unfold Part.port Part.putPort Store.setD Store.getD
  dsimp only
  rw [if_neg h, Store.find_put_self]
  rfl

theorem Part.putPort_port_other {p q : Nat} (r : Port) (h : q ≠ p) : (c.putPort p r).port q = c.port q :=
  Store.getD_setD_of_ne _ _ _ h

theorem Part.putPort_port (h : Store.wf Port.cold c.jobs.ports = true) (p : Nat) (r : Port) :
    (c.putPort p r).port p = r := Store.getD_setD_self h p r

/-- A return that stands is not the one of a cold start, so that it reads back in any table. -/
theorem stepSide_return (p : Nat) (t : PortReturn) : StepSide fun d => (d.port p).ret = some t where
  say h := h
  signal {c g} h := by simpa [Part.port] using h
  watch h := h
  jobStore h := h
  roster h := h
  sameReturn {c q r} hr h := by
    by_cases hq : p = q
    · subst hq
      have hsome : r.ret = some t := hr.trans h
      rw [Part.putPort_port_ne_cold fun e => by simp [e, Port.cold] at hsome]
      exact hsome
    · rw [Part.putPort_port_other r hq]
      exact h

theorem Part.mem_signal (g : Sig) : g ∈ (c.signal g).work := by
  unfold Part.signal
  split
  · assumption
  · simp

/-- A signal once given stands until it is served. -/
theorem stepSide_signal (g : Sig) : StepSide fun d => g ∈ d.work where
  say h := h
  signal {c g'} h := by
    unfold Part.signal
    split
    · exact h
    · exact List.mem_append_left _ h
  watch h := h
  jobStore h := h
  roster h := h
  sameReturn _ h := h

theorem Part.newReturn_ret (p : Nat) (pod : Pod) (forced : Bool) :
    ((c.newReturn p pod forced).port p).ret = some ⟨pod, forced, none, false, false⟩ := by
  refine (stepSide_return p _).signal ?_
  rw [Part.putPort_port_ne_cold fun e => by simp [Port.cold] at e]

/-- A port keeps no RETURN_WAITING entry that has been served. -/
theorem Part.serveReturn_port (h : Store.wf Port.cold c.jobs.ports = true) (p : Nat) :
    (c.serveReturn p).port p = { c.port p with window := (c.port p).window.filter fun w => !w.isReturn } := by
  unfold Part.serveReturn
  dsimp only
  split
  · have hport : ∀ (d : Part) g, (d.signal g).port p = d.port p := fun d g => by simp [Part.port]
    rw [hport, Part.putPort_port h]
  · rename_i hno
    have hkeep : (c.port p).window.filter (fun w => !w.isReturn) = (c.port p).window :=
      List.filter_eq_self.2 fun w hw => by
        simpa using fun hw' => hno (List.any_eq_true.2 ⟨w, hw, hw'⟩)
    rw [hkeep]

/-! ### The end of a step -/

/-- What a step that has ended is (R86). -/
def Step.endedAs (st : Step) (res : StepResult) : Step :=
  { st with state := .ended, result := some res, expiry := none, since := none, move := none }

theorem Part.markStep_eq {j k : Nat} {b : Job} {st : Step} (res : StepResult) (n : Option Nat) (hb : c.job? j = some b)
    (hst : b.steps[k]? = some st) (hopen : st.state ≠ .ended) : c.markStep j k res n =
      (c.setStep j k fun st => st.endedAs res).say (.stepResult j (k + 1) res (n <|> c.stepReticle st.work)) := by
  unfold Part.markStep
  rw [hb]
  dsimp only [Option.bind_some]
  rw [hst]
  dsimp only
  rw [if_neg hopen]
  rfl

/-- STEP_RESULT is the first notice of a step's end (R86). -/
theorem Part.endStep_out {j k : Nat} {b : Job} {st : Step} (res : StepResult) (n : Option Nat) (failed : Bool)
    (hb : c.job? j = some b) (hst : b.steps[k]? = some st) (hopen : st.state ≠ .ended) :
    ∃ a : List Subject, (c.endStep j k res n failed).out =
      c.out ++ Subject.stepResult j (k + 1) res (n <|> c.stepReticle st.work) :: a := by
  have hafter : (c.markStep j k res n).JobOnly (c.endStep j k res n failed) := (stepSide_jobOnly _).afterStep (.refl _)
  obtain ⟨_, _, _, _, o, ho⟩ := hafter
  refine ⟨o, ?_⟩
  rw [ho]
  dsimp only
  rw [Part.markStep_eq res n hb hst hopen]
  simp [(Part.setStep_same j k _).2.2.2.2]

/-- A job with a step still open goes on after the end of a step that ON_LIMIT does not decide. -/
theorem Part.afterStep_unfinished {j : Nat} {b : Job} (hb : c.job? j = some b) (hopen : b.finished = false) :
    (c.afterStep j false).job? j = some b := by
  have hsig : ∀ g, (c.signal g).job? j = some b := fun g => by simpa [Part.job?] using hb
  unfold Part.afterStep
  rw [hb]
  simp only [hopen, Bool.false_eq_true, false_and, if_false]
  repeat' split
  all_goals first | exact hb | exact hsig _

/-- A step's end that leaves another step open leaves the job, and the step ended in it. -/
theorem Part.endStep_job {j k i : Nat} {b : Job} {st y : Step} (res : StepResult) (n : Option Nat)
    (hb : c.job? j = some b) (hst : b.steps[k]? = some st) (hopen : st.state ≠ .ended) (hi : i ≠ k)
    (hy : b.steps[i]? = some y) (hyopen : y.state ≠ .ended) :
    ∃ b', (c.endStep j k res n false).job? j = some b' ∧ b'.steps[k]? = some (st.endedAs res) := by
  have hmark : (c.markStep j k res n).job? j = some { b with steps := b.steps.set k (st.endedAs res) } := by
    rw [Part.markStep_eq res n hb hst hopen]
    unfold Part.setStep Part.updJob
    rw [hb]
    dsimp only
    rw [hst]
    exact Store.find_put_self _ _ _
  have hunfinished : ({ b with steps := b.steps.set k (st.endedAs res) } : Job).finished = false := by
    refine List.all_eq_false.2 ⟨y, ?_, by simpa using hyopen⟩
    refine List.mem_of_getElem? (i := i) ?_
    rw [List.getElem?_set_ne (Ne.symm hi)]
    exact hy
  exact ⟨_, Part.afterStep_unfinished hmark hunfinished,
    List.getElem?_set_self (List.getElem?_eq_some_iff.1 hst).1⟩

/-! ### The end of a move -/

/-- A job's step that its move's end ends: STEP_RESULT is the first notice (R92, R97). -/
theorem Part.stepMoveEnd_out {m : Move} {j k : Nat} {b : Job} {st : Step} {res : MoveResult} (hres : res ≠ .completed)
    (hb : c.job? j = some b) (hst : b.steps[k]? = some st) (hopen : st.state ≠ .ended) :
    ∃ a : List Subject, (c.stepMoveEnd m j k res).out =
      c.out ++ Subject.stepResult j (k + 1) res.forStep (m.reticle <|> c.stepReticle st.work) :: a := by
  have hends : ∀ d, c.PortOnly d → ∃ a : List Subject, (d.endStep j k res.forStep m.reticle res.failsStep).out =
      c.out ++ Subject.stepResult j (k + 1) res.forStep (m.reticle <|> c.stepReticle st.work) :: a := by
    rintro d ⟨q, w, rfl⟩
    exact Part.endStep_out _ _ _ hb hst hopen
  have P := portSide_portOnly c
  unfold Part.stepMoveEnd
  rw [hb]
  dsimp only
  cases b.kind with
  | deliver =>
    dsimp only
    rw [if_neg hres]
    split
    · exact hends _ (P.returnMoveEnd (P.restoreReady (.refl c)))
    · exact hends _ (P.restoreReady (.refl c))
  | ret =>
    dsimp only
    rw [if_neg fun h => hres h.1]
    exact hends _ (P.returnMoveEnd (.refl c))

/-- A move taken out of the list: what was signalled apart, nothing else changes. -/
theorem Part.removeMove_eq (m : Move) :
    { c with mv := { c.mv with moves := c.mv.moves.filter (·.num ≠ m.num) } }.Signalled (c.removeMove m) := by
  have S : ∀ (d e : Part) g, d.Signalled e → d.Signalled (e.signal g) := by
    rintro d _ g ⟨w, rfl⟩
    obtain ⟨w', hw'⟩ := Part.signal_signalled (c := { d with work := w }) g
    exact ⟨w', hw'⟩
  unfold Part.removeMove
  dsimp only
  cases m.reticle <;> dsimp only <;> split
  all_goals first
    | exact S _ _ _ (S _ _ _ (S _ _ _ ⟨_, rfl⟩)) | exact S _ _ _ (S _ _ _ ⟨_, rfl⟩) | exact S _ _ _ ⟨_, rfl⟩

/-- A move's end takes it out of the list; besides, only a scan that ended without a result puts its location back. -/
theorem Part.endMove_jobOnly {m : Move} {res : MoveResult} (h : res ≠ .timedOut) (h' : res ≠ .interrupted) :
    { c with mv := { c.mv with moves := c.mv.moves.filter (·.num ≠ m.num) } }.JobOnly (c.endMove m res) := by
  obtain ⟨w, hw⟩ := Part.removeMove_eq (c := c) m
  have hrem : { c with mv := { c.mv with moves := c.mv.moves.filter (·.num ≠ m.num) } }.JobOnly (c.removeMove m) :=
    ⟨_, _, _, _, [], by rw [hw, List.append_nil]⟩
  refine hrem.trans ?_
  unfold Part.endMove
  dsimp only
  split
  · exact Part.stepMoveEnd_jobOnly _ _ _ _
  · exact (Part.returnMoveEnd_portOnly _ _).jobOnly
  · rw [if_neg (not_or.2 ⟨h, h'⟩)]
    exact .refl _
  · exact .refl _
  · exact (stepSide_jobOnly _).say (.refl _)
  · exact (stepSide_jobOnly _).say (.refl _)

end Sys2Proof.Machine
end

section
/-! SUPPORT. What the write of a location or of a record changes, and the holds and accounts of a record that no hold takes
out of a commitment (R38, R46, R52). -/

namespace Sys2Proof.Machine

variable {c d e : Part}

/-! ### Locations -/

theorem Part.setOcc_signalled (l : Nat) (o : Occ) : (c.putOcc l o).Signalled (c.setOcc l o) := by
  unfold Part.setOcc
  dsimp only
  repeat' split
  all_goals first | exact Part.signal_signalled _ | exact ⟨_, rfl⟩

theorem portOf_posOf {p : Nat} (hp : p < 8) : portOf (960 + p) = some p := by
  rw [portOf_position (by omega) (by omega), Nat.add_sub_cancel_left]

theorem Part.vacate_at {n l : Nat} {r : Rec} (o : Occ) (hr : c.rec? n = some r) (hp : r.place = .loc l) :
    c.vacate n o = c.setOcc l o := by
  unfold Part.vacate
  rw [hr]
  dsimp only
  rw [hp]

theorem Part.vacate_nowhere {n : Nat} {r : Rec} (o : Occ) (hr : c.rec? n = some r) (hp : ∀ l, r.place ≠ .loc l) :
    c.vacate n o = c := by
  unfold Part.vacate
  rw [hr]
  cases h : r.place with
  | loc l => exact absurd h (hp l)
  | _ => simp only

/-- A record found by its ID is the one of its number. -/
theorem Part.rec_of_findId (h : c.sound) {x : RetId} {n : Nat} {r : Rec} (hf : c.findId x = some (n, r)) :
    c.rec? n = some r ∧ r.id = x :=
  ⟨Store.find_of_mem h.recs.1 (List.mem_of_find?_eq_some hf), by simpa using List.find?_some hf⟩

/-! ### Records -/

/-- `d` differs from `c` in record `n`, which is `r` now, in what was signalled, and in the notices `o`. -/
structure Part.RecOnly (c d : Part) (n : Nat) (r : Rec) (o : List Subject) : Prop where
  eq : ∃ w q, d = { c with work := w, out := c.out ++ o, inv := { c.inv with recs := q } }
  self : d.rec? n = some r
  others : ∀ k, k ≠ n → d.rec? k = c.rec? k

variable {n : Nat} {r r' : Rec} {o o' : List Subject}

theorem Part.RecOnly.refl (h : c.rec? n = some r) : c.RecOnly c n r [] :=
  ⟨⟨_, _, by rw [List.append_nil]⟩, h, fun _ _ => rfl⟩

theorem Part.RecOnly.trans (h : c.RecOnly d n r o) (h' : d.RecOnly e n r' o') : c.RecOnly e n r' (o ++ o') := by
  obtain ⟨⟨w, q, rfl⟩, -, hothers⟩ := h
  obtain ⟨⟨w', q', rfl⟩, hself', hothers'⟩ := h'
  exact ⟨⟨w', q', by rw [List.append_assoc]⟩, hself', fun k hk => (hothers' k hk).trans (hothers k hk)⟩

theorem Part.RecOnly.say (h : c.RecOnly d n r o) (s : Subject) : c.RecOnly (d.say s) n r (o ++ [s]) := by
  obtain ⟨⟨w, q, rfl⟩, hself, hothers⟩ := h
  exact ⟨⟨w, q, by rw [Part.say, List.append_assoc]⟩, hself, hothers⟩

theorem Part.RecOnly.signal (h : c.RecOnly d n r o) (g : Sig) : c.RecOnly (d.signal g) n r o := by
  obtain ⟨w, hw⟩ := Part.signal_signalled (c := d) g
  obtain ⟨⟨w', q, rfl⟩, hself, hothers⟩ := h
  rw [hw]
  exact ⟨⟨w, q, rfl⟩, hself, hothers⟩

theorem Part.updRec_only (f : Rec → Rec) (h : c.rec? n = some r) : c.RecOnly (c.updRec n f) n (f r) [] := by
  have hput : c.RecOnly (c.putRec n (f r)) n (f r) [] :=
    ⟨⟨_, _, by rw [Part.putRec, List.append_nil]⟩, by rw [Part.putRec_rec, if_pos rfl], fun k hk => by
      rw [Part.putRec_rec, if_neg hk]⟩
  unfold Part.updRec
  rw [h]
  dsimp only
  split
  · exact hput
  · exact hput.signal _

theorem Part.RecOnly.updRec (h : c.RecOnly d n r o) (f : Rec → Rec) : c.RecOnly (d.updRec n f) n (f r) o := by
  simpa using h.trans (Part.updRec_only f h.self)

theorem Part.RecOnly.occ_eq (h : c.RecOnly d n r o) (l : Nat) : d.occ l = c.occ l := by
  obtain ⟨⟨w, q, rfl⟩, -, -⟩ := h
  rfl

theorem Part.RecOnly.mv_eq (h : c.RecOnly d n r o) : d.mv = c.mv := by
  obtain ⟨⟨w, q, rfl⟩, -, -⟩ := h
  rfl

theorem Part.RecOnly.out_eq (h : c.RecOnly d n r o) : d.out = c.out ++ o := by
  obtain ⟨⟨w, q, rfl⟩, -, -⟩ := h
  rfl

/-! ### Holds -/

/-- No hold takes the record out of a commitment: it is neither RESERVED nor PRESENTED (R39, R41). -/
def Rec.uncommitted (r : Rec) : Prop := r.state ≠ .reserved ∧ r.state ≠ .presented

theorem Rec.heldState_uncommitted (h : r.uncommitted) : r.heldState = r.state := by
  obtain ⟨h1, h2⟩ := h
  unfold Rec.heldState
  cases hs : r.state <;> simp_all

theorem Part.holdActs_uncommitted (h : r.uncommitted) : c.holdActs n r = c := by
  obtain ⟨h1, h2⟩ := h
  unfold Part.holdActs
  cases hs : r.state <;> simp_all

theorem Part.signalReturnOf_signalled (n : Nat) (r : Rec) : c.Signalled (c.signalReturnOf n r) := by
  unfold Part.signalReturnOf
  repeat' split
  all_goals first | exact Part.signal_signalled _ | exact ⟨_, rfl⟩

theorem Part.RecOnly.signalReturnOf (h : c.RecOnly d n r o) (k : Nat) (q : Rec) :
    c.RecOnly (d.signalReturnOf k q) n r o := by
  unfold Part.signalReturnOf
  repeat' split
  all_goals first | exact h.signal _ | exact h

/-- What HOLD_CHANGED says of a hold that is set (R38). -/
def heldNotice (n : Nat) (b : HoldReason) (t : RState) : List Subject :=
  if b = .operator then [] else [Subject.holdChanged n b true t]

/-- The blocks with a record's first hold set and told, before its commitments are looked at. -/
def Part.firstHold (c : Part) (n : Nat) (b : HoldReason) (r : Rec) : Part :=
  let c1 := c.updRec n fun q => { q.setHold b true with
    state := r.heldState, job := if r.state = .reserved then none else r.job }
  if b = .operator then c1 else c1.say (.holdChanged n b true r.heldState)

theorem Part.firstHold_only (b : HoldReason) (h : c.rec? n = some r) : c.RecOnly (c.firstHold n b r) n
    { r.setHold b true with state := r.heldState, job := if r.state = .reserved then none else r.job }
    (heldNotice n b r.heldState) := by
  unfold Part.firstHold heldNotice
  dsimp only
  split
  · exact Part.updRec_only _ h
  · exact (Part.updRec_only _ h).say _

theorem Rec.not_holds (h : r.held = false) (b : HoldReason) : r.holds b = false := by
  unfold Rec.held at h
  simp only [Bool.or_eq_false_iff] at h
  cases b
  exacts [h.1.1, h.1.2, h.2]

theorem Part.addHold_first (b : HoldReason) (h : c.rec? n = some r) (hheld : r.held = false) :
    c.addHold n b = ((c.firstHold n b r).holdActs n r).signalReturnOf n r := by
  unfold Part.addHold Part.firstHold
  rw [h]
  simp [Rec.not_holds hheld b, hheld]

theorem Rec.setHold_self {b : HoldReason} (h : r.holds b = true) : r.setHold b true = r := by
  cases r
  cases b <;> simp_all [Rec.holds, Rec.setHold]

/-- A hold on a record with no commitment changes that reason alone. -/
theorem Part.addHold_uncommitted (b : HoldReason) (h : c.rec? n = some r) (hu : r.uncommitted) :
    ∃ o, c.RecOnly (c.addHold n b) n (r.setHold b true) o ∧ (b = .operator → o = []) := by
  unfold Part.addHold
  rw [h]
  dsimp only
  split
  · rename_i hb
    exact ⟨[], by rw [Rec.setHold_self hb]; exact .refl h, fun _ => rfl⟩
  · have hkeep : { r.setHold b true with
        state := if (!r.held) = true then r.heldState else r.state
        job := if (!r.held) = true ∧ r.state = .reserved then none else r.job } = r.setHold b true := by
      simp only [Rec.heldState_uncommitted hu, hu.1, and_false, if_false, ite_self]
      cases b <;> rfl
    have hset : c.RecOnly (c.updRec n fun q => { q.setHold b true with
        state := if (!r.held) = true then r.heldState else r.state
        job := if (!r.held) = true ∧ r.state = .reserved then none else r.job }) n (r.setHold b true) [] := by
      conv => arg 4; rw [← hkeep]
      exact Part.updRec_only (fun q => { q.setHold b true with
        state := if (!r.held) = true then r.heldState else r.state
        job := if (!r.held) = true ∧ r.state = .reserved then none else r.job }) h
    rw [Part.holdActs_uncommitted hu, ite_self]
    split
    · exact ⟨[], hset.signalReturnOf n r, fun _ => rfl⟩
    · exact ⟨_, (hset.say _).signalReturnOf n r, fun e => absurd e ‹_›⟩

theorem Rec.setHold_clear_self {b : HoldReason} (h : r.holds b = false) : r.setHold b false = r := by
  cases r
  cases b <;> simp_all [Rec.holds, Rec.setHold]

/-- A hold that a request clears is all that changes. -/
theorem Part.clearHold_only (b : HoldReason) (h : c.rec? n = some r) :
    c.RecOnly (c.clearHold n b false) n (r.setHold b false) [] := by
  unfold Part.clearHold
  rw [h]
  dsimp only
  split
  · exact (Part.updRec_only _ h).signalReturnOf n r
  · rw [Rec.setHold_clear_self (by simpa using ‹¬r.holds b = true›)]
    exact .refl h

/-! ### Accounts -/

/-- `r'` differs from `r` in its account and in the hold that the account gives alone. -/
def Rec.SameButAccount (r r' : Rec) : Prop :=
  r' = { r with e := r'.e, frac := r'.frac, stamp := r'.stamp, exposure := r'.exposure }

/-- The threshold rule upward (R52): EXPOSURE is set where E has reached E_HOLD, and nothing else changes. -/
theorem Part.threshold_uncommitted (h : c.rec? n = some r) (hu : r.uncommitted) :
    ∃ o, c.RecOnly (c.threshold n false) n { r with exposure := r.exposure || decide (c.limits.eHold ≤ r.e) } o := by
  unfold Part.threshold
  rw [h]
  dsimp only
  split
  · rename_i hhold
    obtain ⟨o, ho, -⟩ := Part.addHold_uncommitted .exposure h hu
    refine ⟨o, ?_⟩
    simpa [Rec.setHold, hhold.1] using ho
  · rename_i hhold
    rw [if_neg (by simp)]
    refine ⟨[], ?_⟩
    have hsame : (r.exposure || decide (c.limits.eHold ≤ r.e)) = r.exposure := by
      cases hx : r.exposure with
      | true => rfl
      | false => simpa [hx] using hhold
    rw [hsame]
    exact .refl h

theorem Rec.accrue_account (r : Rec) (now rate : Nat) : r.SameButAccount (r.accrue now rate) := by
  unfold Rec.SameButAccount Rec.accrue
  dsimp only
  repeat' split
  all_goals rfl

theorem Rec.SameButAccount.keeps (h : r.SameButAccount r') : r'.id = r.id ∧ r'.cls = r.cls ∧ r'.kind = r.kind ∧
    r'.place = r.place ∧ r'.state = r.state ∧ r'.operator = r.operator ∧ r'.mismatch = r.mismatch ∧ r'.job = r.job := by
  unfold Rec.SameButAccount at h
  rw [h]
  exact ⟨rfl, rfl, rfl, rfl, rfl, rfl, rfl, rfl⟩

theorem Rec.SameButAccount.uncommitted (h : r.SameButAccount r') (hu : r.uncommitted) : r'.uncommitted := by
  have hstate : r'.state = r.state := h.keeps.2.2.2.2.1
  exact ⟨hstate ▸ hu.1, hstate ▸ hu.2⟩

/-- A settled account (R49), in whichever way the record came by it. -/
theorem Part.settled_uncommitted {f : Rec → Rec} (h : c.rec? n = some r) (hf : r.SameButAccount (f r))
    (hu : r.uncommitted) : ∃ r' o, c.RecOnly ((c.updRec n f).threshold n false) n r' o ∧ r.SameButAccount r' := by
  have hset := Part.updRec_only f h
  obtain ⟨o, ho⟩ := Part.threshold_uncommitted hset.self (hf.uncommitted hu)
  exact ⟨_, _, hset.trans ho, by unfold Rec.SameButAccount at *; rw [hf]⟩

/-- The account of a record with no commitment follows its protection (R46). -/
theorem Part.fixProtection_uncommitted (h : c.rec? n = some r) (hu : r.uncommitted) :
    ∃ r' o, c.RecOnly (c.fixProtection n) n r' o ∧ r.SameButAccount r' := by
  unfold Part.fixProtection
  rw [h]
  dsimp only
  split
  · have hacc := Part.updRec_only (fun r => r.accrue c.now (c.rateOf r)) h
    have hstamp := hacc.updRec fun r => { r with stamp := none }
    have hsame := r.accrue_account c.now (c.rateOf r)
    obtain ⟨o, ho⟩ := Part.threshold_uncommitted hstamp.self (r := { r.accrue c.now (c.rateOf r) with stamp := none })
      (hsame.uncommitted hu)
    exact ⟨_, _, hstamp.trans ho, by unfold Rec.SameButAccount at *; rw [hsame]⟩
  · exact ⟨_, _, Part.updRec_only _ h, rfl⟩
  · exact ⟨r, _, .refl h, rfl⟩

/-- An unprotected record is stamped, where it is not, with the part time, and its account runs on (R46). -/
theorem Part.fixProtection_exposed (h : c.rec? n = some r) (hs : c.sheltered n r = false) :
    c.RecOnly (c.fixProtection n) n { r with stamp := some (r.stamp.getD c.now) } [] := by
  unfold Part.fixProtection
  rw [h]
  dsimp only
  rw [hs]
  cases ht : r.stamp with
  | none => exact Part.updRec_only (fun r => { r with stamp := some c.now }) h
  | some t =>
    dsimp only [Option.getD_some]
    rw [← ht]
    exact .refl h

/-- The account of a record in limbo is settled or opened (R24, R46). -/
theorem Part.limboAccount_uncommitted (h : c.rec? n = some r) (hu : r.uncommitted) :
    ∃ r' o, c.RecOnly (c.limboAccount n) n r' o ∧ r.SameButAccount r' := by
  unfold Part.limboAccount
  rw [h]
  dsimp only
  split
  · exact Part.settled_uncommitted h (r.accrue_account _ _) hu
  · exact ⟨_, _, Part.updRec_only _ h, rfl⟩

end Sys2Proof.Machine
end

section
/-! SUPPORT. What a hold does to a RESERVED and to a PRESENTED record (R39, R41), and the port's return whose move it ends
(R105). -/

namespace Sys2Proof.Machine

variable {c : Part}

/-- The return whose move is cancelled stays, without it, and is handled again; that of a CROSS is forced (R105, R106). -/
theorem Part.returnMoveEnd_cancelled {m : Move} {p : Nat} {t : PortReturn} (cause : CancelCause)
    (hsrc : m.src = some (960 + p)) (hp : p < 8) (ht : (c.port p).ret = some t) (hm : t.move = some m.num) :
    ((c.returnMoveEnd m (.cancelled cause)).port p).ret =
        some { t with move := none, forced := t.forced || decide (m.kind = .cross) } ∧
      Sig.handle p ∈ (c.returnMoveEnd m (.cancelled cause)).work := by
  have heq : c.returnMoveEnd m (.cancelled cause) = (c.putPort p { c.port p with
      ret := some { t with move := none, forced := t.forced || decide (m.kind = .cross) } }).signal (.handle p) := by
    unfold Part.returnMoveEnd
    rw [hsrc, Option.bind_some, portOf_posOf hp]
    dsimp only
    rw [ht]
    dsimp only
    rw [if_pos hm]
  rw [heq]
  refine ⟨(stepSide_return p _).signal ?_, Part.mem_signal _⟩
  rw [Part.putPort_port_ne_cold fun e => by simp [Port.cold] at e]

/-- What the cancellation of a CROSS leaves of its step and of the return it carried. -/
theorem Part.stepMoveEnd_cross {m : Move} {j k p : Nat} {b : Job} {t : PortReturn} (cause : CancelCause)
    (hb : c.job? j = some b) (hkind : b.kind = .deliver) (hcross : m.kind = .cross) (hsrc : m.src = some (960 + p))
    (hp : p < 8) (ht : (c.port p).ret = some t) (hm : t.move = some m.num) :
    ((c.stepMoveEnd m j k (.cancelled cause)).port p).ret = some { t with move := none, forced := true } ∧
      Sig.handle p ∈ (c.stepMoveEnd m j k (.cancelled cause)).work := by
  have ht' : ((c.restoreReady b.port m.ready).port p).ret = some t := (stepSide_return p t).restoreReady ht
  obtain ⟨hret, hwork⟩ := Part.returnMoveEnd_cancelled cause hsrc hp ht' hm
  unfold Part.stepMoveEnd
  rw [hb]
  dsimp only
  rw [hkind]
  dsimp only
  rw [if_neg nofun, if_pos hcross]
  refine ⟨(stepSide_return p _).endStep ?_, (stepSide_signal _).endStep hwork⟩
  simpa [hcross] using hret

/-- The move of a record that a hold may end is the one that names it and has not been granted. -/
theorem Part.find_pending {n : Nat} {m : Move} (hm : m ∈ c.mv.moves) (hn : m.reticle = some n) (hg : m.granted = false)
    (huniq : ∀ x ∈ c.mv.moves, x.reticle = some n → x = m) :
    c.mv.moves.find? (fun x => x.reticle = some n ∧ ¬x.granted) = some m := by
  cases hf : c.mv.moves.find? (fun x => x.reticle = some n ∧ ¬x.granted) with
  | none => exact absurd (List.find?_eq_none.1 hf m hm) (by simp [hn, hg])
  | some x =>
    have hx := List.find?_some hf
    simp only [decide_eq_true_eq] at hx
    rw [huniq x (List.mem_of_find?_eq_some hf) hx.1]

variable {n l : Nat} {r : Rec} {h : HoldReason}

/-- A first hold on a RESERVED record (R39): the record stands where it is, and its pending move is looked at. -/
theorem Part.addHold_reserved {m : Move} (hr : c.rec? n = some r) (hheld : r.held = false) (hs : r.state = .reserved)
    (hm : m ∈ c.mv.moves) (hn : m.reticle = some n) (hg : m.granted = false)
    (huniq : ∀ x ∈ c.mv.moves, x.reticle = some n → x = m) :
    c.addHold n h = (if m.kind = .relocate then c.firstHold n h r
      else (c.firstHold n h r).endMove m (.cancelled .hold)).signalReturnOf n r := by
  have hmv := (Part.firstHold_only h hr).mv_eq
  have hfind := Part.find_pending (c := c.firstHold n h r) (hmv ▸ hm) hn hg (hmv ▸ huniq)
  rw [Part.addHold_first h hr hheld]
  unfold Part.holdActs
  rw [hs]
  dsimp only
  rw [hfind]

/-- The step of a RESERVED record ends SKIPPED_HOLD with its DELIVER or CROSS (R39), and the return that a CROSS carried is
handled again as a forced one. -/
theorem Part.addHold_reserved_step {m : Move} {j k : Nat} {b : Job} {st : Step} (hr : c.rec? n = some r)
    (hheld : r.held = false) (hs : r.state = .reserved) (hm : m ∈ c.mv.moves) (hn : m.reticle = some n)
    (hg : m.granted = false) (huniq : ∀ x ∈ c.mv.moves, x.reticle = some n → x = m)
    (hkind : m.kind = .deliver ∨ m.kind = .cross) (howner : m.owner = .step j k) (hb : c.job? j = some b)
    (hdeliver : b.kind = .deliver) (hst : b.steps[k]? = some st) (hopen : st.state ≠ .ended) :
    (c.addHold n h).mv.moves = c.mv.moves.filter (fun x => x.num ≠ m.num) ∧
    (∃ a : List Subject, (c.addHold n h).out =
      c.out ++ heldNotice n h r.heldState ++ Subject.stepResult j (k + 1) .skippedHold (some n) :: a) ∧
    (∀ p t, m.kind = .cross → m.src = some (960 + p) → p < 8 → (c.port p).ret = some t → t.move = some m.num →
      ((c.addHold n h).port p).ret = some { t with move := none, forced := true } ∧ Sig.handle p ∈ (c.addHold n h).work) := by
  have honly := Part.firstHold_only h hr
  obtain ⟨w, q, heq⟩ := honly.eq
  obtain ⟨w', hrem⟩ := Part.removeMove_eq (c := c.firstHold n h r) m
  have hend : (c.firstHold n h r).endMove m (.cancelled .hold) =
      ((c.firstHold n h r).removeMove m).stepMoveEnd m j k (.cancelled .hold) := by
    unfold Part.endMove
    rw [howner]
  have hjob : ((c.firstHold n h r).removeMove m).job? j = some b := by
    rw [hrem, heq]
    exact hb
  obtain ⟨w'', hsig⟩ := Part.signalReturnOf_signalled (c := (c.firstHold n h r).endMove m (.cancelled .hold)) n r
  rw [Part.addHold_reserved hr hheld hs hm hn hg huniq, if_neg (by rcases hkind with e | e <;> rw [e] <;> nofun)]
  refine ⟨?_, ?_, fun p t hcross hsrc hp ht hmove => ?_⟩
  · obtain ⟨_, _, _, _, _, hjobs⟩ := Part.endMove_jobOnly (c := c.firstHold n h r) (m := m) (res := .cancelled .hold)
      nofun nofun
    rw [hsig, hjobs, heq]
  · obtain ⟨a, ha⟩ := Part.stepMoveEnd_out (m := m) (res := .cancelled .hold) nofun hjob hst hopen
    refine ⟨a, ?_⟩
    rw [hsig, hend]
    refine ha.trans ?_
    rw [hrem, heq, hn]
    rfl
  · have hret : (((c.firstHold n h r).removeMove m).port p).ret = some t := by
      rw [hrem, heq]
      exact ht
    obtain ⟨h1, h2⟩ := Part.stepMoveEnd_cross (j := j) (k := k) .hold hjob hdeliver hcross hsrc hp hret hmove
    rw [← hend] at h1 h2
    exact ⟨(stepSide_return p _).signalReturnOf h1, (stepSide_signal _).signalReturnOf h2⟩

/-- A first hold on a PRESENTED record begins its withdrawal (R41). -/
theorem Part.addHold_presented {p : Nat} (hr : c.rec? n = some r) (hheld : r.held = false) (hs : r.state = .presented)
    (hplace : r.place = .loc (960 + p)) (hp : p < 8) :
    c.addHold n h = ((c.firstHold n h r).portOrder p (.withdraw r.id)).signalReturnOf n r := by
  rw [Part.addHold_first h hr hheld]
  unfold Part.holdActs
  rw [hs, hplace]
  dsimp only
  rw [portOf_posOf hp]

theorem Part.portOrder_node {p a : Nat} {q : Node} (o : Order) (ha : c.portAddr p = some a)
    (hplan : (c.planOf a).kind ≠ .none) (hq : c.node? a = some q) :
    (c.portOrder p o).node? a = some { q with queue := q.queue ++ [⟨o, none⟩] } := by
  unfold Part.portOrder Part.order
  rw [ha]
  exact Part.queueOrder_node _ hplan hq

end Sys2Proof.Machine
end

section
open Sys2Proof Sys2Proof.Machine

/-- Settles O22: the requests are `addHold` and `clearHold` behind their tests; a record with no commitment changes alone
(`RecOnly`), and a RESERVED and a PRESENTED one end their commitments first. -/
theorem holdRequests : Obligations.HoldRequests := by
  refine ⟨fun s tag n id r hl hm hid hf => ⟨?_, ?_, rfl, ?_, ?_, fun v hv => ?_, ?_⟩, fun c n r hr hs hs' => ?_,
    ?_⟩
  · exact State.request_accepted hl (by simp [State.notInStart, State.named, hm, hid, hf])
  · exact State.request_accepted hl (by simp [State.notInStart, State.named, hm, hid, hf, unheldReason])
  · exact State.request_accepted hl (by simp [State.notInStart, State.named, hm, hid, hf, unheldReason])
  · exact State.request_refused hl (by simp [State.notInStart, State.named, hm, hid, hf, unheldReason])
  · have hnone : unheldReason (.given v) = none := by
      unfold unheldReason
      split <;> simp_all
    exact State.request_refused hl (by simp [State.notInStart, State.named, hm, hid, hf, hnone])
  · exact State.request_refused hl (by simp [State.notInStart, State.named, hm, hid, hf, unheldReason])
  · obtain ⟨o, hadd, ho⟩ := Part.addHold_uncommitted .operator hr ⟨hs, hs'⟩
    rw [ho rfl] at hadd
    have hclear := Part.clearHold_only .operator hr
    exact ⟨hadd.self, hclear.self, (Part.clearHold_only .mismatch hr).self, fun k hk => ⟨hadd.others k hk, hclear.others k hk⟩,
      fun l => ⟨hadd.occ_eq l, hclear.occ_eq l⟩, hadd.mv_eq, hclear.mv_eq, by simpa using hadd.out_eq,
      by simpa using hclear.out_eq⟩
  intro c n l r h hr hheld hplace hl d told
  refine ⟨fun hs m hm hn hg huniq => ?_, fun p hs hp => ?_⟩
  · intro now
    have hstate : r.heldState = now := by simp [Rec.heldState, hs, hplace, isSlot, now]
    refine ⟨?_, fun hk => ?_, fun j k b st hk ho hb hkind hst hopen => ?_⟩
    · have hrec := Part.addHold_rec h hr
      rw [Rec.withHold, if_neg (by simp [Rec.not_holds hheld h]), if_neg (by simp [hheld]), if_pos ⟨hheld, hs⟩,
        hstate] at hrec
      exact hrec
    · have hd : d = (c.firstHold n h r).signalReturnOf n r := by
        refine (Part.addHold_reserved hr hheld hs hm hn hg huniq).trans ?_
        rw [if_pos hk]
      have honly := (Part.firstHold_only h hr).signalReturnOf n r
      rw [hd]
      exact ⟨honly.mv_eq, honly.out_eq.trans (by rw [hstate]; rfl)⟩
    · have hends := Part.addHold_reserved_step (h := h) hr hheld hs hm hn hg huniq hk ho hb hkind hst hopen
      rw [hstate] at hends
      exact hends
  · subst hp
    have hp8 : p < 8 := by omega
    have hstate : r.heldState = .withdrawing := by simp [Rec.heldState, hs]
    obtain ⟨w, q, heq⟩ := (Part.firstHold_only h hr).eq
    have hd : d = ((c.firstHold n h r).portOrder p (.withdraw r.id)).signalReturnOf n r :=
      Part.addHold_presented hr hheld hs hplace hp8
    obtain ⟨w', hsig⟩ := Part.signalReturnOf_signalled
      (c := (c.firstHold n h r).portOrder p (.withdraw r.id)) n r
    obtain ⟨qinv, qmv, -, -, qout⟩ := Part.queueOrder_same (c := c.firstHold n h r)
      ((c.firstHold n h r).portAddr p) ⟨.withdraw r.id, none⟩
    have hrec := Part.addHold_rec h hr
    rw [Rec.withHold, if_neg (by simp [Rec.not_holds hheld h]), if_neg (by simp [hheld]),
      if_neg (by simp [hs]), hstate] at hrec
    refine ⟨?_, ?_, ?_, ?_, fun a k ha hplan hk => ?_⟩
    · refine hrec.trans ?_
      cases h <;> rfl
    · rw [hd, hsig]
      exact qmv.trans (by rw [heq])
    · rw [hd, hsig]
      refine Eq.trans (b := (c.firstHold n h r).occ (960 + p)) ?_ (by rw [heq]; rfl)
      exact congrArg (fun i : Inventory => Store.getD Occ.unknown i.occ (960 + p)) qinv
    · rw [hd, hsig]
      refine qout.trans ?_
      rw [heq, hstate]
      rfl
    · rw [hd, hsig]
      refine Part.portOrder_node (c := c.firstHold n h r) _ ?_ ?_ ?_ <;> rw [heq] <;> assumption
end

section
/-! SUPPORT. What RETIRE leaves at the manual port (R27), and what a DECLARE leaves (R25, R46, R52). -/

namespace Sys2Proof.Machine

variable {c : Part}

/-! ### RETIRE -/

theorem Part.endReturn_ret (h : Store.wf Port.cold c.jobs.ports = true) (p : Nat) : ((c.endReturn p).port p).ret = none := by
  unfold Part.endReturn
  split
  · assumption
  · rw [Part.serveReturn_port (Store.wf_setD h _ _), Part.putPort_port h]

/-- A record that RETIRE takes at the manual port: its moves, its return and its window entry end, and its position is
VACANT (R27). -/
theorem Part.retire_manual (hs : c.sound) {n p : Nat} {r : Rec} (hr : c.rec? n = some r) (hstate : r.state = .returned)
    (hmanual : c.limits.manualPort = some p) (hplace : r.place = .loc (960 + p)) :
    (c.retire n r).rec? n = none ∧ (c.retire n r).occ (960 + p) = .vacant ∧ ((c.retire n r).port p).ret = none ∧
      (∀ w ∈ ((c.retire n r).port p).window, ∀ x k, w.kind ≠ .returnWaiting x k) ∧
      (∀ m ∈ (c.retire n r).mv.moves, m.reticle = some n → m.granted = true) := by
  let d := ((c.endPendingOf n .retired).endReturn p).serveReturn p
  have hpending : (c.endPendingOf n .retired).sound := kept_sound.endPendingOf hs
  have hended : ((c.endPendingOf n .retired).endReturn p).sound := kept_sound.endReturn hpending
  have hd : d.sound := kept_sound.serveReturn hended
  have hports : (c.endPendingOf n .retired).PortOnly d :=
    (portSide_portOnly _).serveReturn ((portSide_portOnly _).endReturn (.refl _))
  obtain ⟨q, w, hdeq⟩ := hports
  have hdr : d.rec? n = some r := by
    rw [hdeq]
    exact (Part.endPendingOf_rec ..).trans hr
  have heq : c.retire n r = (d.setOcc (960 + p) .vacant).dropRec n := by
    have hman : c.manualAt r = some p := by
      unfold Part.manualAt
      rw [hmanual]
      exact if_pos ⟨hstate, hplace⟩
    unfold Part.retire
    rw [hman]
    dsimp only
    rw [Part.vacate_at _ hdr hplace]
  obtain ⟨w', hset⟩ := Part.setOcc_signalled (c := d) (960 + p) .vacant
  have hport : (c.retire n r).port p = d.port p := by
    rw [heq, hset]
    rfl
  have hdport : d.port p = { ((c.endPendingOf n .retired).endReturn p).port p with
      window := (((c.endPendingOf n .retired).endReturn p).port p).window.filter fun w => !w.isReturn } :=
    Part.serveReturn_port hended.ports p
  refine ⟨?_, ?_, ?_, fun x hx y k hk => ?_, fun m hm hn => ?_⟩
  · rw [heq]
    refine Store.find_erase_self ?_ n
    rw [hset]
    exact hd.recs.1
  · rw [heq]
    exact Part.setOcc_occ_self (c := d) nofun
  · rw [hport, hdport]
    exact Part.endReturn_ret hpending.ports p
  · rw [hport, hdport] at hx
    have hnot := (List.mem_filter.1 hx).2
    simp [WinEntry.isReturn, hk] at hnot
  · refine Part.endPendingOf_moves (c := c) (cause := .retired) ?_ hn
    rw [heq, hset] at hm
    have hmoves : m ∈ d.mv.moves := hm
    rw [hdeq] at hmoves
    exact hmoves

/-! ### DECLARE -/

/-- The record that a DECLARE to a scanner leaves, and all else as it was. -/
theorem Part.declare_scanner {n p : Nat} {r : Rec} (hplace : r.place = .scanner p) (hstate : r.state = .out)
    (hexp : r.exposure = false) (hstamp : r.stamp = none) :
    let d := c.declare n r
    d.rec? n = some { r with stamp := some c.now, exposure := decide (c.limits.eHold ≤ r.e) } ∧
      (∀ k, k ≠ n → d.rec? k = c.rec? k) ∧ ∀ l, d.occ l = c.occ l := by
  have hfix := Part.fixProtection_exposed (c := (c.putRec n r).signal (.reticle n)) (n := n) (r := r)
    (by simp [Part.rec?]) (by simp [Part.sheltered, hplace])
  obtain ⟨w, hw⟩ := Part.signal_signalled (c := c.putRec n r) (.reticle n)
  have hnow : ((c.putRec n r).signal (.reticle n)).now = c.now := by rw [hw]; rfl
  rw [hstamp, Option.getD_none, hnow] at hfix
  obtain ⟨o, hhold⟩ := Part.threshold_uncommitted hfix.self ⟨by simp [hstate], by simp [hstate]⟩
  have hlimits : (((c.putRec n r).signal (.reticle n)).fixProtection n).limits = c.limits := by
    obtain ⟨_, _, heq⟩ := hfix.eq
    rw [heq, hw]
    rfl
  have heq : c.declare n r = (((c.putRec n r).signal (.reticle n)).fixProtection n).threshold n false := by
    unfold Part.declare
    dsimp only
    rw [hplace]
  have hall := hfix.trans hhold
  intro d
  refine ⟨?_, fun k hk => ?_, fun l => ?_⟩
  · rw [show d = _ from heq, hall.self, hlimits, hexp, Bool.false_or]
  · rw [show d = _ from heq, hall.others k hk, hw]
    exact (Part.putRec_rec ..).trans (if_neg hk)
  · rw [show d = _ from heq, hall.occ_eq, hw]
    rfl

/-- The record that a DECLARE to a slot leaves: its account open, or none where it stands protected. -/
theorem Part.declare_slot {n l : Nat} {r : Rec} (hplace : r.place = .loc l) (hl : l < 960) (hstate : r.state = .idle)
    (hexp : r.exposure = false) (hstamp : r.stamp = none) :
    (c.declare n r).occ l = .occupied n false ∧
      (c.declare n r).rec? n = some { r with
        stamp := if (c.flagsOf l).sealed = false ∧ c.protective (l / 60) = true then none else some c.now
        exposure := decide (c.limits.eHold ≤ r.e) } := by
  obtain ⟨w, hw⟩ := Part.signal_signalled (c := c.putRec n r) (.reticle n)
  obtain ⟨w', hw'⟩ := Part.setOcc_signalled (c := (c.putRec n r).signal (.reticle n)) l (.occupied n false)
  -- the blocks with the record in its slot, before its account is looked at
  let b := ((c.putRec n r).signal (.reticle n)).setOcc l (.occupied n false)
  have hbeq : b = { (c.putRec n r).putOcc l (.occupied n false) with work := w' } := by
    show Part.setOcc _ _ _ = _
    rw [hw', hw]
    rfl
  have hbrec : b.rec? n = some r := by
    rw [hbeq]
    exact (Part.putRec_rec ..).trans (if_pos rfl)
  have hbocc : b.occ l = .occupied n false := Part.setOcc_occ_self nofun
  have hshelter : b.sheltered n r = decide ((c.flagsOf l).sealed = false ∧ c.protective (l / 60) = true) := by
    have hflags : b.flagsOf l = c.flagsOf l := by rw [hbeq]; rfl
    have hprot : b.protective (columnOf l) = c.protective (l / 60) := by rw [hbeq]; rfl
    simp only [Part.sheltered, hplace, hbocc, hflags, hprot]
    simp [isSlot, hl, Occ.resident]
  have hfix : ∃ o, b.RecOnly (b.fixProtection n) n { r with
      stamp := if (c.flagsOf l).sealed = false ∧ c.protective (l / 60) = true then none else some c.now } o := by
    by_cases hprot : (c.flagsOf l).sealed = false ∧ c.protective (l / 60) = true
    · have hkeep : b.fixProtection n = b := by
        unfold Part.fixProtection
        rw [hbrec]
        dsimp only
        rw [hshelter, hstamp, decide_eq_true hprot]
      rw [if_pos hprot, hkeep, ← hstamp]
      exact ⟨[], .refl hbrec⟩
    · have hopen := Part.fixProtection_exposed hbrec (hshelter.trans (decide_eq_false hprot))
      have hnow : b.now = c.now := by rw [hbeq]; rfl
      rw [hstamp, Option.getD_none, hnow] at hopen
      rw [if_neg hprot]
      exact ⟨[], hopen⟩
  obtain ⟨o, hfix⟩ := hfix
  obtain ⟨o', hhold⟩ := Part.threshold_uncommitted hfix.self ⟨by simp [hstate], by simp [hstate]⟩
  have hlimits : (b.fixProtection n).limits = c.limits := by
    obtain ⟨_, _, heq⟩ := hfix.eq
    rw [heq, hbeq]
    rfl
  have heq : c.declare n r = (b.fixProtection n).threshold n false := by
    unfold Part.declare
    dsimp only
    rw [hplace]
  have hall := hfix.trans hhold
  rw [heq]
  refine ⟨(hall.occ_eq l).trans hbocc, ?_⟩
  rw [hall.self, hlimits, hexp, Bool.false_or]

/-- A slot is a destination that some move has reserved, a SCAN's apart (R25). -/
theorem reservedFor_iff {l : Nat} : (c.mv.moves.any fun m => m.kind != .scan && m.dst == some l) = true ↔
    ∃ m ∈ c.mv.moves, m.kind ≠ .scan ∧ m.dst = some l := by
  simp

end Sys2Proof.Machine
end

section
open Sys2Proof Sys2Proof.Machine

/-- Settles O21: the test decides, and `retire_manual` says what is left at the manual port. -/
theorem retireAccepted : Obligations.RetireAccepted := by
  intro s tag n id r hl hm hid hs hf hrid
  obtain ⟨hr, -⟩ := Part.rec_of_findId hs hf
  have hok : s.part.retirable r = true →
      exec (.retire tag id) s = .next (s.concludes (s.part.retire n r) 0 0x11 tag (Rsp.ok .none)) := fun h =>
    State.request_accepted hl (by simp [State.inService, State.named, State.need, hm, hid, hf, h])
  refine ⟨fun hnames hstate hplace => ?_, fun p hnames hstate hmanual hplace => ⟨s.part.retire n r, hok ?_,
    Part.retire_manual hs hr hstate hmanual hplace⟩, fun h => ?_⟩
  · have hman : s.part.manualAt r = none := by
      unfold Part.manualAt
      rcases hstate with e | e <;> split <;> simp [e]
    rw [hok (by rcases hstate with e | e <;> simp [Part.retirable, hrid, hnames, e]), Part.retire, hman]
    dsimp only
    rw [Part.vacate_nowhere _ hr hplace]
  · simp [Part.retirable, hrid, hnames, Part.manualAt, hmanual, hstate, hplace, posOf]
  · have hno : s.part.retirable r = false := by
      rcases h with h | ⟨h1, h2, h3⟩
      · simp [Part.retirable, hrid, h]
      · have hman : s.part.manualAt r = none := by
          unfold Part.manualAt
          split
          · rename_i p hp
            exact if_neg fun e => h3 e.1 p hp e.2
          · rfl
        simp [Part.retirable, h1, h2, hman]
    exact State.request_refused hl (by simp [State.inService, State.named, State.need, hm, hid, hf, hno])

/-- Settles O20: the checks in their order, then what a declared record is, at a scanner and in a slot. -/
theorem declareAccepted : Obligations.DeclareAccepted := by
  refine ⟨fun s tag cls kind loc v id e hl hm hid hcls hfree hnum he => ?_,
    fun s tag cls kind loc id e hl hm => ?_, fun c n p r hn hplace hstate _ hexp _ hstamp =>
      Part.declare_scanner hplace hstate hexp hstamp, fun c n l r hn hx hplace hl hstate _ hexp _ hstamp => ?_⟩
  · intro n r
    have hrec : s.part.freeRec = some n := if_pos hnum
    have hgiven : declaredE e = some v := by rcases he with ⟨rfl, rfl⟩ | rfl <;> rfl
    refine ⟨fun hloc hocc hmoves => ?_, fun p hp hplan => ?_⟩
    · have hbar : s.part.declareBar (.loc loc) = none :=
        if_pos ⟨hocc, fun h => by
          obtain ⟨m, hmem, hkind, hdst⟩ := reservedFor_iff.1 h
          exact hmoves m hmem hkind hdst⟩
      have hplace : declaredPlace loc = some (.loc loc) := if_pos hloc
      exact State.request_accepted hl (by
        simp [State.inService, State.need, hm, hid, hcls, hgiven, hfree, hrec, hplace, hbar, kindField, Place.declared, r])
    · have hbar : s.part.declareBar (.scanner p) = none := if_pos hplan
      have hplace : declaredPlace (1000 + p) = some (.scanner p) := by
        unfold declaredPlace
        rw [if_neg (by omega), if_pos (by omega), Nat.add_sub_cancel_left]
      exact State.request_accepted hl (by
        simp [State.inService, State.need, hm, hid, hcls, hgiven, hfree, hrec, hplace, hbar, kindField, Place.declared, r])
  · intro refused formed free
    have hgood : formed → (idOk id && decide (cls < 4) && (declaredE e).isSome) = true := fun ⟨h1, h2, h3⟩ => by
      cases e <;> simp_all [declaredE]
    refine ⟨fun h => State.request_refused hl ?_, fun h hdup => State.request_refused hl ?_,
      fun h hnew => ⟨fun hfull => State.request_refused hl ?_, fun hfree => ?_⟩⟩
    · have hbad : (idOk id && decide (cls < 4) && (declaredE e).isSome) = false := by
        refine Bool.eq_false_iff.2 fun hall => h ?_
        simp only [Bool.and_eq_true, decide_eq_true_eq] at hall
        exact ⟨hall.1.1, hall.1.2, fun he => by simp [he, declaredE] at hall⟩
      simp [State.inService, State.need, hm, hbad]
    · have hsome : (s.part.findId id).isNone = false :=
        Option.isNone_eq_false_iff.2 (Option.isSome_iff_ne_none.2 hdup)
      simp [State.inService, State.need, hm, hgood h, hsome]
    · have hrec : s.part.freeRec = none := if_neg (Nat.not_lt.2 hfull)
      simp [State.inService, State.need, hm, hgood h, hnew, hrec]
    · have hrec : s.part.freeRec = some free := if_pos hfree
      have hplaced : ∀ {p x}, declaredPlace loc = some p → s.part.declareBar p = some x → refused x := fun hp hx =>
        State.request_refused hl (by simp [State.inService, State.need, hm, hgood h, hnew, hrec, hp, hx])
      refine ⟨fun h1 h2 => ?_, fun p hp hloc hplan => ?_, fun hloc hbar => hplaced (if_pos hloc) (if_neg ?_)⟩
      · have hplace : declaredPlace loc = none := by
          unfold declaredPlace
          rw [if_neg (by omega), if_neg (by omega)]
        exact State.request_refused hl (by simp [State.inService, State.need, hm, hgood h, hnew, hrec, hplace])
      · subst hloc
        refine hplaced (p := .scanner p) ?_ (if_neg (by simp [hplan]))
        unfold declaredPlace
        rw [if_neg (by omega), if_pos (by omega), Nat.add_sub_cancel_left]
      · rintro ⟨hocc, hmoves⟩
        rcases hbar with ⟨h1, h2⟩ | h
        · exact hocc.elim h1 h2
        · exact hmoves (reservedFor_iff.2 h)
  · obtain ⟨hocc, hrec⟩ := Part.declare_slot (c := c) (n := n) hplace hl hstate hexp hstamp
    refine ⟨hocc, _, hrec, rfl, rfl, rfl, hplace, hstate, rfl, ‹_›, ‹_›, decide_eq_true_iff, ?_, fun t ht => ?_⟩
    · dsimp only
      split <;> simp_all
    · dsimp only at ht
      split at ht
      · cases ht
      · exact (Option.some.inj ht).symm
end

section
/-! SUPPORT. The ends of an offer (R41, R98). -/

namespace Sys2Proof.Machine

variable {c : Part} {p n : Nat} {x : RetId} {r : Rec}

/-- The record `n` of ID `x` stands in an offer at port `p`. -/
def Part.offersAt (c : Part) (p : Nat) (x : RetId) (n : Nat) (r : Rec) : Prop :=
  c.findId x = some (n, r) ∧ r.place = .loc (960 + p) ∧ (r.state = .presented ∨ r.state = .withdrawing)

theorem Part.offerOf_some (hid : idOk x = true) (h : c.offersAt p x n r) : c.offerOf p x = some (n, r) := by
  obtain ⟨hf, hplace, hstate⟩ := h
  unfold Part.offerOf cleanId
  rw [if_pos hid, hf]
  exact if_pos ⟨hplace, hstate⟩

theorem Part.offerOf_none (h : ∀ n r, ¬c.offersAt p (cleanId x) n r) : c.offerOf p x = none := by
  unfold Part.offerOf
  split
  · rename_i n r hf
    exact if_neg fun e => h n r ⟨hf, e⟩
  · rfl

/-- The blocks with a reticle taken from its offer, before its step ends. -/
def Part.offTaken (c : Part) (n p : Nat) : Part :=
  (c.vacate n .vacant).updRec n fun r => { r with state := .out, place := .scanner p, job := none }

/-- The blocks with a reticle withdrawn from its offer, before its step ends. -/
def Part.offWithdrawn (c : Part) (n p : Nat) : Part :=
  (c.updRec n fun r => { r with state := .returned, job := none }).newReturn p (.record n) true

theorem Part.taken_eq (h : c.offerOf p x = some (n, r)) : c.taken p x =
    if r.state = .withdrawing
    then ((c.offTaken n p).endOfferStep n r .done false).say (.heldReticleTaken n p r.operator r.exposure r.mismatch)
    else (c.offTaken n p).endOfferStep n r .done false := by
  unfold Part.taken
  rw [h]
  rfl

theorem Part.endOfferStep_none (res : StepResult) (failed : Bool) (h : r.job = none) :
    c.endOfferStep n r res failed = c := by
  unfold Part.endOfferStep
  rw [h]

theorem Part.endOfferStep_some {j k : Nat} (res : StepResult) (failed : Bool) (h : r.job = some (j, k)) :
    c.endOfferStep n r res failed = c.endStep j k res (some n) failed := by
  unfold Part.endOfferStep
  rw [h]

theorem Part.endOfferStep_jobOnly (res : StepResult) (failed : Bool) : c.JobOnly (c.endOfferStep n r res failed) := by
  unfold Part.endOfferStep
  split
  · exact Part.endStep_jobOnly _ _ _ _ _
  · exact .refl c

/-- The result of an offer that the port ended of itself (R98, R99). -/
def Part.declined (c : Part) (r : Rec) : StepResult :=
  if r.job.any fun j => (c.job? j.1).any fun b => b.early then .skippedEarlyEnd else .cancelled

/-- OFFER_DECLINED, where the record has a step (R98). -/
def declinedNotice (n : Nat) (r : Rec) : List Subject :=
  match r.job with
  | some (j, k) => [Subject.offerDeclined j (k + 1) n]
  | none => []

theorem Part.withdrawn_withdrawing (h : c.offerOf p x = some (n, r)) (hs : r.state = .withdrawing) :
    c.withdrawn p x = (c.offWithdrawn n p).endOfferStep n r .skippedHold true := by
  unfold Part.withdrawn
  rw [h]
  exact if_pos hs

theorem Part.withdrawn_presented (h : c.offerOf p x = some (n, r)) (hs : r.state = .presented) :
    c.withdrawn p x = { (c.offWithdrawn n p).endOfferStep n r (c.declined r) false with
      out := ((c.offWithdrawn n p).endOfferStep n r (c.declined r) false).out ++ declinedNotice n r } := by
  unfold Part.withdrawn
  rw [h]
  dsimp only
  rw [if_neg (by simp [hs])]
  cases hj : r.job with
  | none => simp [Part.declined, declinedNotice, hj, Part.offWithdrawn]
  | some jk =>
    obtain ⟨j, k⟩ := jk
    simp only [Part.declined, declinedNotice, hj, Option.any_some, Part.say, Part.offWithdrawn]

variable (hr : c.rec? n = some r)
include hr

/-- What a reticle's taking does to the tables before its step ends. -/
theorem Part.offTaken_spec (hplace : r.place = .loc (960 + p)) :
    (∃ i w, c.offTaken n p = { c with inv := i, work := w }) ∧
      (c.offTaken n p).rec? n = some { r with state := .out, place := .scanner p, job := none } ∧
      (c.offTaken n p).occ (960 + p) = .vacant := by
  obtain ⟨w, hw⟩ := Part.setOcc_signalled (c := c) (960 + p) .vacant
  have hvac : c.vacate n .vacant = c.setOcc (960 + p) .vacant := Part.vacate_at _ hr hplace
  have honly := Part.updRec_only (c := c.vacate n .vacant)
    (fun r => { r with state := .out, place := .scanner p, job := none }) ((Part.vacate_rec ..).trans hr)
  refine ⟨?_, honly.self, (honly.occ_eq _).trans ?_⟩
  · obtain ⟨w', q, heq⟩ := honly.eq
    refine ⟨{ (c.putOcc (960 + p) .vacant).inv with recs := q }, w', heq.trans ?_⟩
    rw [hvac, hw, List.append_nil]
    rfl
  · rw [hvac]
    exact Part.setOcc_occ_self nofun

/-- What a withdrawal does to the tables before its step ends. -/
theorem Part.offWithdrawn_spec :
    (∃ i q w, c.offWithdrawn n p = { c with inv := i, jobs := { c.jobs with ports := q }, work := w }) ∧
      (c.offWithdrawn n p).rec? n = some { r with state := .returned, job := none } ∧
      (∀ l, (c.offWithdrawn n p).occ l = c.occ l) ∧
      ((c.offWithdrawn n p).port p).ret = some ⟨.record n, true, none, false, false⟩ := by
  have honly := Part.updRec_only (fun r => { r with state := .returned, job := none }) hr
  obtain ⟨q, w, hports⟩ := (portSide_portOnly _).newReturn (p := p) (pod := .record n) (forced := true)
    (Part.PortOnly.refl (c.updRec n fun r => { r with state := .returned, job := none }))
  obtain ⟨w', q', heq⟩ := honly.eq
  refine ⟨⟨{ c.inv with recs := q' }, q, w, ?_⟩, ?_, fun l => ?_, Part.newReturn_ret _ _ _⟩
  · unfold Part.offWithdrawn
    rw [hports, heq, List.append_nil]
  · unfold Part.offWithdrawn
    rw [hports]
    exact honly.self
  · unfold Part.offWithdrawn
    rw [hports]
    exact honly.occ_eq l

end Sys2Proof.Machine
end

section
open Sys2Proof Sys2Proof.Machine

/-- Settles O51: the record and the position change first (`offTaken_spec`, `offWithdrawn_spec`), then the step of the offer
ends, which leaves both as they are (`JobOnly`). -/
theorem offersEnd : Obligations.OffersEnd := by
  intro c p x hs hp offer d w
  refine ⟨fun a hk ha => ?_, fun n r hid ho => ?_, fun hid hno => ?_, fun hid hno => ?_⟩
  · simp [Part.deliverReport, hk, ha, d, w]
  · have hof := Part.offerOf_some hid ho
    obtain ⟨hf, hplace, hstate⟩ := ho
    obtain ⟨hr, -⟩ := Part.rec_of_findId hs hf
    obtain ⟨⟨ti, tw, teq⟩, trec, tocc⟩ := Part.offTaken_spec hr hplace
    obtain ⟨⟨wi, wq, ww, weq⟩, wrec, wocc, wret⟩ := Part.offWithdrawn_spec (p := p) hr
    have hd : ∃ o, d = { (c.offTaken n p).endOfferStep n r .done false with
        out := ((c.offTaken n p).endOfferStep n r .done false).out ++ o } ∧
        o = if r.state = .withdrawing then [Subject.heldReticleTaken n p r.operator r.exposure r.mismatch] else [] := by
      refine ⟨_, (Part.taken_eq hof).trans ?_, rfl⟩
      split
      · rfl
      · rw [List.append_nil]
    obtain ⟨o, hd, ho⟩ := hd
    obtain ⟨dj, du, dw, dv, dout, hdj⟩ := (c.offTaken n p).endOfferStep_jobOnly (n := n) (r := r) .done false
    have hw : ∃ res failed o, w = { (c.offWithdrawn n p).endOfferStep n r res failed with
        out := ((c.offWithdrawn n p).endOfferStep n r res failed).out ++ o } ∧
        (r.job = none → o = []) ∧ (r.state = .withdrawing → res = .skippedHold ∧ o = []) ∧
        (r.state = .presented → res = c.declined r ∧ o = declinedNotice n r) := by
      rcases hstate with e | e
      · exact ⟨_, _, _, Part.withdrawn_presented hof e, fun h => by simp [declinedNotice, h], fun h => by simp [e] at h, fun _ => ⟨rfl, rfl⟩⟩
      · exact ⟨.skippedHold, true, [], (Part.withdrawn_withdrawing hof e).trans (by rw [List.append_nil]), fun _ => rfl,
          fun _ => ⟨rfl, rfl⟩, fun h => by simp [e] at h⟩
    obtain ⟨res, failed, o', hw, hnojob, hwithdrawing, hpresented⟩ := hw
    obtain ⟨_, _, _, _, wout, hwj⟩ := (c.offWithdrawn n p).endOfferStep_jobOnly (n := n) (r := r) res failed
    refine ⟨?_, ?_, ?_, ?_, ?_, fun hj => ⟨?_, ?_⟩, fun j k b st hj hb hst hopen => ⟨?_, fun hsw => ?_, fun hsp => ?_, ?_⟩⟩
    · rw [hd, hdj]
      exact trec
    · rw [hd, hdj]
      exact tocc
    · rw [hw, hwj]
      exact wrec
    · rw [hw, hwj]
      exact wocc _
    · rw [hw]
      unfold Part.endOfferStep
      split
      · exact (stepSide_return p _).endStep wret
      · exact wret
    · rw [hd, Part.endOfferStep_none _ _ hj, teq, ho]
    · rw [hw, Part.endOfferStep_none _ _ hj, weq, hnojob hj, List.append_nil]
    · obtain ⟨a, ha⟩ := Part.endStep_out (c := c.offTaken n p) (j := j) (k := k) .done (some n) false (by rw [teq]; exact hb)
        hst hopen
      refine ⟨a, ?_⟩
      rw [hd, Part.endOfferStep_some _ _ hj, ho]
      dsimp only
      rw [ha, teq]
      rfl
    · obtain ⟨rfl, rfl⟩ := hwithdrawing hsw
      obtain ⟨a, ha⟩ := Part.endStep_out (c := c.offWithdrawn n p) (j := j) (k := k) .skippedHold (some n) failed
        (by rw [weq]; exact hb) hst hopen
      refine ⟨a, ?_⟩
      rw [hw, Part.endOfferStep_some _ _ hj, List.append_nil, ha, weq]
      rfl
    · obtain ⟨rfl, rfl⟩ := hpresented hsp
      obtain ⟨a, ha⟩ := Part.endStep_out (c := c.offWithdrawn n p) (j := j) (k := k) (c.declined r) (some n) failed
        (by rw [weq]; exact hb) hst hopen
      have hres : c.declined r = if b.early then .skippedEarlyEnd else .cancelled := by simp [Part.declined, hj, hb]
      refine ⟨a, ?_⟩
      rw [hw, Part.endOfferStep_some _ _ hj]
      dsimp only
      rw [ha, weq, hres, declinedNotice, hj]
      rfl
    · rintro ⟨i, y, hi, hy, hyopen⟩
      obtain ⟨b', hb', hst'⟩ := Part.endStep_job (c := c.offTaken n p) .done (some n) (by rw [teq]; exact hb) hst hopen hi hy
        hyopen
      refine ⟨b', ?_, hst'⟩
      rw [hd, Part.endOfferStep_some _ _ hj]
      exact hb'
  · have hclean : cleanId x = x := if_pos hid
    have hnone : c.offerOf p x = none := Part.offerOf_none fun n r h => hno n r (by rwa [hclean] at h)
    simp only [d, w, Part.taken, Part.withdrawn, hnone, hclean, and_self]
  · have hclean : cleanId x = List.replicate 12 0#8 := if_neg (by simp [hid])
    have hnone : c.offerOf p x = none := Part.offerOf_none fun n r h => by
      rw [hclean] at h
      exact nomatch hno.symm.trans h.1
    simp only [d, w, Part.taken, Part.withdrawn, hnone, hclean, and_self]
end

section
/-! SUPPORT. How far a read reaches (R28 to R34): the Inventory, moves that no robot has been granted, and what the ends of
those moves and of the record's offer and return write; no table, no zone, no mode, and no robot. -/

namespace Sys2Proof.Machine

/-! ### The parts of the reader-result rule -/

/-- The record an identity read names. -/
def Part.namedBy (c : Part) : Read → Option Nat
  | .id x => (c.findId x).map (·.1)
  | _ => none

/-- Another move's claim sets the read aside (R28). -/
def Part.setsAside (c : Part) (l : Nat) (read : Read) (own : Option Nat) : Bool :=
  match c.claimedBy l own with
  | some k => !(k.isSome && k == c.namedBy read)
  | none => false

/-- The blocks after a read has been applied, its notices apart. -/
def Part.readTaken (c : Part) (l : Nat) (read : Read) (kind : Nat) (own : Option Nat) : Part :=
  ({ c.unrescan l with out := [] }.applyRead l read kind own).endForeignReturn l

/-- RECONCILED, where the read that led from `c` to `d` has changed what stands at the location (R28). -/
def Part.readNote (c d : Part) (l : Nat) (read : Read) : Option Subject :=
  let before := (c.namedBy read).bind fun m => (c.rec? m).map (·.place)
  let placed := (d.occ l).resident
  let moved := match placed, before with
    | some m, some p => c.namedBy read == some m && decide (p ≠ Place.loc l)
    | _, _ => false
  if moved || !(c.occ l).same (d.occ l) then
    some (.reconciled l read placed (if placed.isSome && placed == c.namedBy read then before else none)
      (if (c.occ l).resident == placed then none else (c.occ l).resident))
  else none

theorem Part.readAt_eq (c : Part) (l : Nat) (read : Read) (kind : Nat) (own : Option Nat) :
    c.readAt l read kind own =
      if c.setsAside l read.norm own then c.rescan l
      else { c.readTaken l read.norm kind own with
        out := c.out ++ orderNotices (c.readTaken l read.norm kind own).out
          (c.readNote (c.readTaken l read.norm kind own) l read.norm) } := by
  unfold Part.readAt Part.setsAside Part.readTaken Part.readNote Part.namedBy
  rfl

theorem Part.Signalled.jobOnly {c d : Part} (h : c.Signalled d) : c.JobOnly d := by
  obtain ⟨w, rfl⟩ := h
  exact ⟨_, _, _, _, [], by rw [List.append_nil]⟩

/-! ### How far a read reaches -/

/-- `R` is kept by every write of a cascade that a read starts. -/
structure Cascades (R : Part → Prop) : Prop where
  inv : ∀ {c : Part} (i), R c → R { c with inv := i }
  out : ∀ {c : Part} (o), R c → R { c with out := o }
  jobs : ∀ {c d : Part}, c.JobOnly d → R c → R d
  nums : ∀ {c : Part}, R c → (c.mv.moves.map Move.num).Nodup
  pending : ∀ {c : Part} {m : Move}, (∀ k ∈ c.mv.moves, k.num = m.num → k.granted = false) → R c →
    R { c with mv := { c.mv with moves := c.mv.moves.filter (·.num ≠ m.num) } }

section Cascades

variable {R : Part → Prop} (K : Cascades R) {c : Part}
include K

theorem Cascades.signal {g : Sig} (h : R c) : R (c.signal g) := K.jobs ((stepSide_jobOnly c).signal (.refl c)) h

theorem Cascades.say {n : Subject} (h : R c) : R (c.say n) := K.out _ h

theorem Cascades.setOcc {l : Nat} {o : Occ} (h : R c) : R (c.setOcc l o) := by
  have hput : R (c.putOcc l o) := K.inv _ h
  exact K.jobs (Part.setOcc_signalled l o).jobOnly hput

theorem Cascades.vacate {n : Nat} {o : Occ} (h : R c) : R (c.vacate n o) := by
  unfold Part.vacate
  repeat' split
  all_goals first | exact h | exact K.setOcc h

theorem Cascades.updRec {n : Nat} {f : Rec → Rec} (h : R c) : R (c.updRec n f) := by
  unfold Part.updRec
  split
  · exact h
  · dsimp only
    split
    · exact K.inv _ h
    · exact K.signal (K.inv _ h)

theorem Cascades.rescan {l : Nat} (h : R c) : R (c.rescan l) := by
  unfold Part.rescan
  split
  · exact K.inv _ h
  · exact h

theorem Cascades.raiseFlag {l : Nat} {f : SlotFlag} (h : R c) : R (c.raiseFlag l f) := by
  unfold Part.raiseFlag
  split
  · exact K.out _ (K.inv _ h)
  · exact h

/-- The end of a move that no robot has been granted. -/
theorem Cascades.endMove {m : Move} {cause : CancelCause}
    (hm : ∀ k ∈ c.mv.moves, k.num = m.num → k.granted = false) (h : R c) : R (c.endMove m (.cancelled cause)) :=
  K.jobs (Part.endMove_jobOnly nofun nofun) (K.pending hm h)

/-- A number names one move of the list, so that a move not granted has it to itself. -/
theorem Cascades.ungranted {m : Move} (h : R c) (hm : m ∈ c.mv.moves) (hg : m.granted = false) :
    ∀ k ∈ c.mv.moves, k.num = m.num → k.granted = false := fun k hk hnum => by
  rwa [List.inj_on_of_nodup_map (K.nums h) hk hm hnum]

theorem Cascades.endMoves {cause : CancelCause} (ms : List Move)
    (hms : ∀ m ∈ ms, ∀ k ∈ c.mv.moves, k.num = m.num → k.granted = false) (h : R c) :
    R (ms.foldl (fun c m => c.endMove m (.cancelled cause)) c) := by
  induction ms generalizing c with
  | nil => exact h
  | cons m ms ih =>
    have hsub : (c.endMove m (.cancelled cause)).mv.moves ⊆ c.mv.moves := by
      obtain ⟨_, _, _, _, _, hd⟩ := Part.endMove_jobOnly (c := c) (m := m) (res := .cancelled cause) nofun nofun
      rw [hd]
      exact List.filter_subset_self _
    exact ih (fun m' hm' k hk => hms m' (List.mem_cons_of_mem _ hm') k (hsub hk))
      (K.endMove (hms m List.mem_cons_self) h)

theorem Cascades.endPendingOf {n : Nat} {cause : CancelCause} (h : R c) : R (c.endPendingOf n cause) :=
  K.endMoves _ (fun m hm => K.ungranted h (List.mem_filter.1 hm).1 (by simpa using (of_decide_eq_true (List.mem_filter.1 hm).2).2)) h

theorem Cascades.holdActs {n : Nat} {r : Rec} (h : R c) : R (c.holdActs n r) := by
  unfold Part.holdActs
  split
  · split
    · rename_i m hm
      split
      · exact h
      · have hg := List.find?_some hm
        exact K.endMove (K.ungranted h (List.mem_of_find?_eq_some hm) (by simpa using (of_decide_eq_true hg).2)) h
    · exact h
  · repeat' split
    all_goals first | exact h | exact K.jobs ((stepSide_jobOnly c).portOrder (.refl c)) h
  · exact h

theorem Cascades.signalReturnOf {n : Nat} {r : Rec} (h : R c) : R (c.signalReturnOf n r) :=
  K.jobs ((stepSide_jobOnly c).signalReturnOf (.refl c)) h

theorem Cascades.addHold {n : Nat} {b : HoldReason} (h : R c) : R (c.addHold n b) := by
  unfold Part.addHold
  split
  · exact h
  · split
    · exact h
    · dsimp only
      refine K.signalReturnOf ?_
      repeat' first | exact K.updRec h | refine K.holdActs ?_ | refine K.say ?_ | split

theorem Cascades.clearHold {n : Nat} {b : HoldReason} {own : Bool} (h : R c) : R (c.clearHold n b own) := by
  unfold Part.clearHold
  repeat' split
  all_goals first | exact h | exact K.signalReturnOf (K.say (K.updRec h)) | exact K.signalReturnOf (K.updRec h)

theorem Cascades.threshold {n : Nat} {down : Bool} (h : R c) : R (c.threshold n down) := by
  unfold Part.threshold
  repeat' split
  all_goals first | exact h | exact K.addHold h | exact K.clearHold h

theorem Cascades.fixProtection {n : Nat} (h : R c) : R (c.fixProtection n) := by
  unfold Part.fixProtection
  repeat' split
  all_goals first | exact h | exact K.updRec h | exact K.threshold (K.updRec (K.updRec h))

theorem Cascades.limboAccount {n : Nat} (h : R c) : R (c.limboAccount n) := by
  unfold Part.limboAccount
  repeat' split
  all_goals first | exact h | exact K.updRec h | exact K.threshold (K.updRec h)

theorem Cascades.makeLost {n : Nat} {cause : LostCause} (h : R c) : R (c.makeLost n cause) := by
  unfold Part.makeLost
  split
  · exact h
  · exact K.limboAccount (K.say (K.updRec (K.vacate h)))

theorem Cascades.makeInDoubt {n : Nat} (h : R c) : R (c.makeInDoubt n) := K.limboAccount (K.updRec (K.vacate h))

theorem Cascades.endOffer {n : Nat} {res : StepResult} (h : R c) : R (c.endOffer n res) := by
  have S := stepSide_jobOnly c
  have h0 := Part.JobOnly.refl c
  refine K.jobs ?_ h
  unfold Part.endOffer
  dsimp only
  repeat' split
  all_goals first
    | exact h0 | exact S.portOrder h0 | exact S.endStep h0 | exact S.endStep (S.portOrder h0)

theorem Cascades.endReturnOf {n l : Nat} (h : R c) : R (c.endReturnOf n l) :=
  K.jobs ((portSide_jobOnly c).endReturnOf (.refl c)) h

theorem Cascades.endCommitments {n : Nat} {cause : CancelCause} (h : R c) : R (c.endCommitments n cause) := by
  unfold Part.endCommitments
  split
  · exact h
  · refine K.endOffer (K.endPendingOf ?_)
    split
    · exact K.endReturnOf h
    · exact h

theorem Cascades.displace {l : Nat} {cause : LostCause} (h : R c) : R (c.displace l cause) := by
  unfold Part.displace
  split
  · exact h
  · dsimp only
    split
    · exact K.raiseFlag (K.makeLost (K.endCommitments h))
    · exact K.makeLost (K.endCommitments h)

theorem Cascades.evict {l : Nat} {own : Option Nat} (h : R c) : R (c.evict l own) := by
  unfold Part.evict
  split
  · exact K.displace h
  · exact h

theorem Cascades.doubt {l : Nat} (h : R c) : R (c.doubt l) := by
  unfold Part.doubt
  split
  · exact K.makeInDoubt (K.endCommitments h)
  · exact h

theorem Cascades.clear {l : Nat} {own : Option Nat} {o : Occ} (h : R c) : R (c.clear l own o) := by
  unfold Part.clear
  split
  · exact h
  · exact K.setOcc (K.doubt h)

theorem Cascades.putPod {n l : Nat} {left : Occ} {f : Rec → Rec} (h : R c) : R (c.putPod n l left f) := by
  unfold Part.putPod
  split
  · exact K.updRec (K.setOcc (K.vacate h))
  · exact h

theorem Cascades.placedAccount {n l : Nat} (h : R c) : R (c.placedAccount n l) := by
  unfold Part.placedAccount
  split
  · exact K.limboAccount h
  · exact K.fixProtection h

theorem Cascades.readMoved {n l kind : Nat} {r : Rec} (h : R c) : R (c.readMoved n l kind r) := by
  unfold Part.readMoved
  dsimp only
  repeat' first
    | exact K.endCommitments h | refine K.addHold ?_ | refine K.placedAccount ?_ | refine K.putPod ?_ | refine K.evict ?_
    | refine K.raiseFlag ?_ | refine K.rescan ?_ | split

theorem Cascades.readContradicts {n l kind : Nat} (h : R c) : R (c.readContradicts n l kind) := by
  unfold Part.readContradicts
  dsimp only
  refine K.addHold (K.updRec ?_)
  split
  · exact K.raiseFlag (K.rescan (K.setOcc (K.displace h)))
  · exact K.rescan (K.setOcc (K.displace h))

theorem Cascades.readNew {x : RetId} {l kind : Nat} (h : R c) : R (c.readNew x l kind) := by
  unfold Part.readNew
  dsimp only
  split
  · exact K.say (K.setOcc (K.displace h))
  · exact K.threshold (K.fixProtection (K.signal (K.setOcc (K.inv _ (K.displace h)))))

theorem Cascades.ports {d : Part} (hd : c.PortOnly d) (h : R c) : R d := K.jobs hd.jobOnly h

theorem Cascades.endForeignReturn {l : Nat} (h : R c) : R (c.endForeignReturn l) :=
  K.ports ((portSide_portOnly c).endForeignReturn (.refl c)) h

theorem Cascades.readUnreadable {l kind : Nat} (h : R c) : R (c.readUnreadable l kind) := by
  have hclear : R (c.clear l none (.foreign kind)) := K.clear h
  have P := portSide_portOnly (c.clear l none (.foreign kind))
  unfold Part.readUnreadable
  dsimp only
  repeat' split
  all_goals first | exact hclear | exact K.ports (P.newReturn (P.endReturn (.refl _))) hclear

theorem Cascades.applyRead {l kind : Nat} {read : Read} {own : Option Nat} (h : R c) : R (c.applyRead l read kind own) := by
  unfold Part.applyRead
  split
  · exact K.setOcc (K.displace h)
  · exact K.readUnreadable h
  · split
    · exact K.readNew h
    · split
      · exact K.updRec (K.inv _ h)
      · split
        · exact K.readMoved h
        · split
          · exact K.updRec h
          · exact K.readContradicts h

theorem Cascades.readAt {l kind : Nat} {read : Read} {own : Option Nat} (h : R c) : R (c.readAt l read kind own) := by
  rw [Part.readAt_eq]
  split
  · exact K.rescan h
  · exact K.out _ (K.endForeignReturn (K.applyRead (K.out _ (K.inv _ h))))

end Cascades

/-- `d` differs from `c` in what a read's cascade writes alone; every move that a robot has been granted stays. -/
structure Part.Cascade (c d : Part) : Prop where
  eq : ∃ i ms j u w v o, d = { c with
    inv := i, mv := { c.mv with moves := ms }, jobs := j, bus := { c.bus with roster := u }, work := w, watch := v, out := o }
  sublist : d.mv.moves.Sublist c.mv.moves
  granted : ∀ m ∈ c.mv.moves, m.granted = true → m ∈ d.mv.moves

variable {c d e : Part}

theorem Part.Cascade.refl (c : Part) : c.Cascade c :=
  ⟨⟨_, _, _, _, _, _, _, rfl⟩, .refl _, fun _ hm _ => hm⟩

theorem Part.Cascade.trans (h : c.Cascade d) (h' : d.Cascade e) : c.Cascade e := by
  refine ⟨?_, h'.sublist.trans h.sublist, fun m hm hg => h'.granted m (h.granted m hm hg) hg⟩
  obtain ⟨_, _, _, _, _, _, _, rfl⟩ := h.eq
  obtain ⟨_, _, _, _, _, _, _, rfl⟩ := h'.eq
  exact ⟨_, _, _, _, _, _, _, rfl⟩

theorem cascades_cascade (hc : c.sound) : Cascades c.Cascade where
  inv i h := h.trans ⟨⟨_, _, _, _, _, _, _, rfl⟩, .refl _, fun _ hm _ => hm⟩
  out o h := h.trans ⟨⟨_, _, _, _, _, _, _, rfl⟩, .refl _, fun _ hm _ => hm⟩
  jobs hd h := by
    obtain ⟨_, _, _, _, _, rfl⟩ := hd
    exact h.trans ⟨⟨_, _, _, _, _, _, _, rfl⟩, .refl _, fun _ hm _ => hm⟩
  nums h := hc.moves.2.1.sublist (h.sublist.map _)
  pending {d m} hm h := h.trans ⟨⟨_, _, _, _, _, _, _, rfl⟩, List.filter_sublist, fun k hk hg =>
    List.mem_filter.2 ⟨hk, decide_eq_true fun hnum => by simp [hm k hk hnum] at hg⟩⟩

theorem Part.Cascade.robot_eq (h : c.Cascade d) (x : Side) : d.robot x = c.robot x := by
  obtain ⟨_, _, _, _, _, _, _, rfl⟩ := h.eq
  cases x <;> rfl

theorem Part.Cascade.tables_eq (h : c.Cascade d) : d.tables = c.tables := by
  obtain ⟨_, _, _, _, _, _, _, rfl⟩ := h.eq
  rfl

theorem Part.Cascade.ctl_eq (h : c.Cascade d) : d.ctl = c.ctl := by
  obtain ⟨_, _, _, _, _, _, _, rfl⟩ := h.eq
  rfl

theorem Part.Cascade.now_eq (h : c.Cascade d) : d.now = c.now := by
  obtain ⟨_, _, _, _, _, _, _, rfl⟩ := h.eq
  rfl

/-- The move of a number is the one of the list that carries it. -/
theorem Part.move_eq_some (hs : (c.mv.moves.map Move.num).Nodup) {num : Nat} {m : Move} :
    c.move? num = some m ↔ m ∈ c.mv.moves ∧ m.num = num := by
  constructor
  · intro h
    exact ⟨List.mem_of_find?_eq_some h, by simpa using List.find?_some h⟩
  · rintro ⟨hm, rfl⟩
    unfold Part.move?
    cases hf : c.mv.moves.find? (·.num = m.num) with
    | none => exact absurd (List.find?_eq_none.1 hf m hm) (by simp)
    | some k =>
      have hk : k.num = m.num := by simpa using List.find?_some hf
      rw [List.inj_on_of_nodup_map hs (List.mem_of_find?_eq_some hf) hm hk]

/-- A granted move is found in the list by its number. -/
theorem Part.Cascade.move_eq (h : c.Cascade d) (hc : c.sound) {num : Nat} {m : Move} (hm : c.move? num = some m)
    (hg : m.granted = true) : d.move? num = some m := by
  obtain ⟨hmem, hnum⟩ := (Part.move_eq_some hc.moves.2.1).1 hm
  exact (Part.move_eq_some (hc.moves.2.1.sublist (h.sublist.map Move.num))).2 ⟨h.granted m hmem hg, hnum⟩

end Sys2Proof.Machine
end

section
/-! SUPPORT. The removal of a move (R146), the answer to a HAND_SNAPSHOT (R132) and the requests that name a robot. -/

namespace Sys2Proof.Machine

variable {c d : Part}

/-! ### The removal of a move -/

theorem Part.updRec_eq (n : Nat) (f : Rec → Rec) :
    ∃ w q, c.updRec n f = { c with work := w, inv := { c.inv with recs := q } } := by
  cases hr : c.rec? n with
  | none => exact ⟨_, _, by rw [Part.updRec, hr]⟩
  | some r =>
    obtain ⟨w, q, h⟩ := (Part.updRec_only f hr).eq
    exact ⟨w, q, by rw [h, List.append_nil]⟩

/-- The blocks with the reticle of a move released, before the move ends. -/
def Part.released (c : Part) (m : Move) : Part :=
  match m.reticle with
  | some n => c.release n
  | none => c

theorem Part.released_eq (c : Part) (m : Move) :
    ∃ w q, c.released m = { c with work := w, inv := { c.inv with recs := q } } := by
  unfold Part.released
  split
  · exact Part.updRec_eq _ _
  · exact ⟨_, _, rfl⟩

/-- A reserved record released is IDLE in its slot or RETURNED at its position (R146). -/
theorem Part.released_rec {m : Move} {n l : Nat} {r : Rec} (hn : m.reticle = some n) (hr : c.rec? n = some r)
    (hs : r.state = .reserved) (hp : r.place = .loc l) :
    (c.released m).rec? n = some { r with state := if l < 960 then .idle else .returned, job := none } := by
  unfold Part.released Part.release
  rw [hn]
  dsimp only
  rw [Part.updRec_rec, if_pos rfl, hr, Option.map_some, if_pos hs, hp]
  simp [isSlot]

/-- The removal of a move: the move leaves the list, and no record changes but that of its reticle. -/
theorem Part.cancelMove_spec (m : Move) (cause : CancelCause) :
    (c.cancelMove m cause).mv.moves = c.mv.moves.filter (fun k => k.num ≠ m.num) ∧
      ∀ n, (c.cancelMove m cause).rec? n = (c.released m).rec? n := by
  obtain ⟨w, q, hrel⟩ := c.released_eq m
  obtain ⟨_, _, _, _, _, hend⟩ := Part.endMove_jobOnly (c := c.released m) (m := m) (res := .cancelled cause) nofun nofun
  have heq : c.cancelMove m cause = (c.released m).endMove m (.cancelled cause) := rfl
  rw [heq, hend]
  refine ⟨?_, fun n => rfl⟩
  rw [hrel]

/-- The owner of a step is told first of all (R97, R146). -/
theorem Part.cancelMove_step {m : Move} {j k : Nat} {b : Job} {st : Step} (cause : CancelCause) (ho : m.owner = .step j k)
    (hb : c.job? j = some b) (hst : b.steps[k]? = some st) (hopen : st.state ≠ .ended) :
    ∃ a : List Subject, (c.cancelMove m cause).out = c.out ++
      Subject.stepResult j (k + 1) (MoveResult.cancelled cause).forStep (m.reticle <|> c.stepReticle st.work) :: a := by
  obtain ⟨w, q, hrel⟩ := c.released_eq m
  obtain ⟨v, hrem⟩ := Part.removeMove_eq (c := c.released m) m
  have heq : c.cancelMove m cause = ((c.released m).removeMove m).stepMoveEnd m j k (.cancelled cause) := by
    have h : c.cancelMove m cause = (c.released m).endMove m (.cancelled cause) := rfl
    rw [h]
    unfold Part.endMove
    rw [ho]
  obtain ⟨a, ha⟩ := Part.stepMoveEnd_out (c := (c.released m).removeMove m) (m := m) (j := j) (k := k)
    (res := .cancelled cause) nofun (b := b) (by rw [hrem, hrel]; exact hb) hst hopen
  refine ⟨a, ?_⟩
  rw [heq, ha]
  cases hn : m.reticle with
  | none =>
    have hsame : c.released m = c := by rw [Part.released, hn]
    rw [hrem, hsame]
    rfl
  | some n =>
    rw [hrem, hrel]
    rfl

theorem Part.cancelMove_relocate {m : Move} (cause : CancelCause) (ho : m.owner = .relocate) : (c.cancelMove m cause).out =
    c.out ++ [Subject.relocateDone m.num m.reticle m.src m.dst (.cancelled cause)] := by
  obtain ⟨w, q, hrel⟩ := c.released_eq m
  have h : c.cancelMove m cause = (c.released m).endMove m (.cancelled cause) := rfl
  rw [h]
  unfold Part.endMove
  rw [ho]
  simp [Part.say, (Part.removeMove_moves m).2.1, hrel]

theorem Part.cancelMove_pass {m : Move} {tag : Nat} (cause : CancelCause) (ho : m.owner = .pass tag) :
    (c.cancelMove m cause).out = c.out ++ [Subject.passMove tag m.num (.cancelled cause)] := by
  obtain ⟨w, q, hrel⟩ := c.released_eq m
  have h : c.cancelMove m cause = (c.released m).endMove m (.cancelled cause) := rfl
  rw [h]
  unfold Part.endMove
  rw [ho]
  simp [Part.say, (Part.removeMove_moves m).2.1, hrel]

theorem Part.cancelMove_return {m : Move} {p q : Nat} {t : PortReturn} (cause : CancelCause) (ho : m.owner = .portReturn q)
    (hsrc : m.src = some (960 + p)) (hp : p < 8) (ht : (c.port p).ret = some t) (hm : t.move = some m.num) :
    ((c.cancelMove m cause).port p).ret = some { t with move := none, forced := t.forced || decide (m.kind = .cross) } ∧
      Sig.handle p ∈ (c.cancelMove m cause).work := by
  obtain ⟨w, recs, hrel⟩ := c.released_eq m
  obtain ⟨v, hrem⟩ := Part.removeMove_eq (c := c.released m) m
  have heq : c.cancelMove m cause = ((c.released m).removeMove m).returnMoveEnd m (.cancelled cause) := by
    have h : c.cancelMove m cause = (c.released m).endMove m (.cancelled cause) := rfl
    rw [h]
    unfold Part.endMove
    rw [ho]
  rw [heq]
  exact Part.returnMoveEnd_cancelled cause hsrc hp (by rw [hrem, hrel]; exact ht) hm

/-! ### Recovery -/

theorem sideOf_index (x : Side) : sideOf x.index = some x := by cases x <;> rfl

theorem spanField_of_lt {p : Nat} (h : p < 18) : spanField p = p := Nat.min_eq_left (by omega)

/-- An admission adds one move, and no robot's record changes. -/
theorem Part.admitAsk_robots {q : Ask} {m : Move} (h : c.admitAsk q = .ok (d, m)) :
    (∀ x, d.robot x = c.robot x) ∧ d.mv.moves = c.mv.moves ++ [m] := by
  rw [Part.admitAsk_eq] at h
  repeat' split at h
  iterate 5 exact nomatch h
  obtain ⟨rfl, rfl⟩ := Prod.mk.inj (Except.ok.inj h)
  rw [Part.admitted_mv]
  exact ⟨fun x => by cases x <;> simp [Part.robot, Part.admitted_mv], rfl⟩

/-- A recovery scan, admitted or not, leaves the moves of the list and the robots, but for the locations still to scan. -/
theorem Part.recoveryScan_keeps (x : Side) (h : c.recoveryScan x = some d) :
    (∃ l, d.robot x = { c.robot x with recovery := l }) ∧ c.mv.moves ⊆ d.mv.moves := by
  unfold Part.recoveryScan at h
  dsimp only at h
  split at h
  · exact nomatch h
  · split at h
    · split at h
      · obtain rfl := Option.some.inj h
        exact ⟨⟨_, Part.putRobot_robot ..⟩, by rw [Part.putRobot_mv_moves]; exact List.Subset.refl _⟩
      · split at h
        · rename_i c1 m hok
          obtain ⟨hrob, hmoves⟩ := Part.admitAsk_robots hok
          obtain rfl := Option.some.inj h
          refine ⟨⟨_, by rw [Part.putRobot_robot, hrob]⟩, ?_⟩
          rw [Part.putRobot_mv_moves, hmoves]
          exact List.subset_append_left _ _
        · exact nomatch h
    · exact nomatch h

theorem Part.recoveryScan_getD (x : Side) : (∃ l, ((c.recoveryScan x).getD c).robot x = { c.robot x with recovery := l }) ∧
    c.mv.moves ⊆ ((c.recoveryScan x).getD c).mv.moves := by
  cases h : c.recoveryScan x with
  | none => exact ⟨⟨_, rfl⟩, List.Subset.refl _⟩
  | some d => exact Part.recoveryScan_keeps x h

/-- The ask for a recovery scan (R132). -/
def recoveryAsk (l : Nat) (x : Side) : Ask := ⟨.scan, none, some l, 0, 0, .robot x, none, false, none, false⟩

/-- With an available robot and room in the list, a scan of the first recovery location is admitted (R132). -/
theorem Part.recoveryScan_admits {x : Side} {l : Nat} {rest : List Nat} (hrec : (c.robot x).recovery = l :: rest)
    (hx : (c.robot x).available = true) (hl : l < 968) (hplan : 960 ≤ l → (c.portCfg (l - 960)).inPlan = true)
    (hmode : c.ctl.mode.admits = true) (hlen : c.mv.moves.length < 16) :
    ∃ m ∈ ((c.recoveryScan x).getD c).mv.moves, m.kind = .scan ∧ m.dst = some l ∧ m.owner = .robot x ∧
      m.granted = false := by
  obtain ⟨y, hy⟩ : ∃ y, c.assign none (c.askSpan (recoveryAsk l x)) = some y :=
    Option.ne_none_iff_exists'.1 fun e => by
      obtain ⟨ha, hb⟩ := (Part.assign_none _).1 e
      cases x <;> simp_all
  have hfits : c.locationsFit (recoveryAsk l x) = some none :=
    (Part.locationsFit_scan _ none rfl).2 ⟨rfl, rfl, l, rfl, hl, hplan⟩
  have hroom : c.hasRoom (recoveryAsk l x).kind = true := (Part.hasRoom_iff .scan).2 hlen
  obtain ⟨e, he⟩ : ∃ e, c.admitAsk (recoveryAsk l x) = .ok (e, c.admitted (recoveryAsk l x) y none l) := by
    have hy' : c.assign (recoveryAsk l x).robot (c.askSpan (recoveryAsk l x)) = some y := hy
    rw [Part.admitAsk_eq, if_neg (by simp [hmode]), if_neg (by simp [hroom]), hy']
    dsimp only
    rw [hfits]
    exact ⟨_, rfl⟩
  refine ⟨c.admitted (recoveryAsk l x) y none l, ?_, rfl, rfl, rfl, ?_⟩
  · have hscan : c.recoveryScan x = some (e.putRobot x { e.robot x with recovery := rest }) := by
      unfold Part.recoveryScan
      dsimp only
      rw [hrec]
      dsimp only
      rw [if_pos hx, if_neg (by simp [(Part.inPlanAt_iff hl).2 hplan]), ← recoveryAsk, he]
    rw [hscan, Option.getD_some, Part.putRobot_mv_moves, (Part.admitAsk_robots he).2]
    exact List.mem_append_right _ List.mem_cons_self
  · unfold Part.admitted Move.granted
    dsimp only
    split <;> rfl

/-- A robot's span is known to be good: where it stands from then on (R132). -/
def Part.recoveredStand (c : Part) (x : Side) (s : Nat) : Part :=
  if (c.robot x).held.isSome ∨ c.clearFor x (s, s) then
    c.setRobot x { c.robot x with state := .idle, span := some s, held := some (s, s) }
  else (c.setRobot x { c.robot x with span := some s }).yieldAway x

/-- A recovery ends with ROBOT_RECOVERED, with two recovery scans tried before it (R132). -/
theorem Part.recovered_spec (x : Side) (s : Nat) :
    (∃ l, (c.recovered x s).robot x = { (c.recoveredStand x s).robot x with recovery := l }) ∧
      (((c.recoveredStand x s).recoveryScan x).getD (c.recoveredStand x s)).mv.moves ⊆ (c.recovered x s).mv.moves ∧
      (c.recovered x s).out.getLast? = some (.robotRecovered x) := by
  have heq : c.recovered x s = (((((c.recoveredStand x s).recoveryScan x).getD (c.recoveredStand x s)).recoveryScan x).getD
      (((c.recoveredStand x s).recoveryScan x).getD (c.recoveredStand x s))).say (.robotRecovered x) := rfl
  obtain ⟨⟨l, h1⟩, -⟩ := Part.recoveryScan_getD (c := c.recoveredStand x s) x
  obtain ⟨⟨l', h2⟩, hsub⟩ := Part.recoveryScan_getD (c := ((c.recoveredStand x s).recoveryScan x).getD (c.recoveredStand x s)) x
  rw [heq]
  exact ⟨⟨l', h2.trans (by rw [h1])⟩, hsub, by simp [Part.say]⟩

theorem Part.recoveredStand_idle {x : Side} {s : Nat} (h : (c.robot x).held.isSome ∨ c.clearFor x (s, s)) :
    c.recoveredStand x s = c.setRobot x { c.robot x with state := .idle, span := some s, held := some (s, s) } := if_pos h

theorem Part.setRobot_ctl (x : Side) (r : Robot) : (c.setRobot x r).ctl = c.ctl := by
  unfold Part.setRobot
  dsimp only
  split <;> simp

/-- A robot recovered to IDLE has its first recovery scan in the list, where there is room (R132). -/
theorem Part.recovered_scans {x : Side} {s l : Nat} {rest : List Nat}
    (h : (c.robot x).held.isSome ∨ c.clearFor x (s, s)) (hrec : (c.robot x).recovery = l :: rest) (hl : l < 968)
    (hplan : 960 ≤ l → (c.portCfg (l - 960)).inPlan = true) (hmode : c.ctl.mode.admits = true)
    (hlen : c.mv.moves.length < 16) :
    ∃ m ∈ (c.recovered x s).mv.moves, m.kind = .scan ∧ m.dst = some l ∧ m.owner = .robot x ∧ m.granted = false := by
  obtain ⟨-, hsub, -⟩ := Part.recovered_spec (c := c) x s
  rw [Part.recoveredStand_idle h] at hsub
  obtain ⟨-, -, htables, -, -, -, hmoves⟩ := Part.setRobot_same (c := c) x
    { c.robot x with state := .idle, span := some s, held := some (s, s) }
  obtain ⟨m, hm, hscan⟩ := Part.recoveryScan_admits (c := c.setRobot x
      { c.robot x with state := .idle, span := some s, held := some (s, s) })
    (by rw [Part.setRobot_robot, if_pos rfl]; exact hrec) (by rw [Part.setRobot_robot, if_pos rfl]; rfl) hl
    (by unfold Part.portCfg; rw [htables]; exact hplan) (by rw [Part.setRobot_ctl]; exact hmode) (by rw [hmoves]; exact hlen)
  exact ⟨m, hsub hm, hscan⟩

/-- A robot that holds no interval and is not clear of the other is sent away from it (R132, R137). -/
theorem Part.recoveredStand_yields {x : Side} {s t : Nat} (hheld : (c.robot x).held = none)
    (hclear : c.clearFor x (s, s) = false) (ht : (c.robot x.other).span = some t) :
    ((c.recoveredStand x s).robot x).state = .yielding ∧ ((c.recoveredStand x s).robot x).span = some s ∧
      ((c.recoveredStand x s).robot x).held = none := by
  have hother : x.other ≠ x := by cases x <;> simp [Side.other]
  have horder : ∀ (d : Part) o, (d.robotOrder x o).robot x = d.robot x := fun d o => by
    have hmv : (d.robotOrder x o).mv = d.mv := (Part.queueOrder_same _ _).2.1
    cases x <;> simp [Part.robot, hmv]
  unfold Part.recoveredStand
  rw [if_neg (by simp [hheld, hclear])]
  unfold Part.yieldAway
  rw [Part.setRobot_robot, if_neg hother, ht]
  dsimp only
  rw [horder, Part.setRobot_robot, if_pos rfl, Part.setRobot_robot, if_pos rfl]
  exact ⟨rfl, rfl, rfl⟩

/-! ### POSITION -/

theorem Part.say_robot (c : Part) (n : Subject) (x : Side) : (c.say n).robot x = c.robot x := by cases x <;> rfl

theorem Part.positioned_late {x : Side} {p : Nat} (h : (c.robot x).yieldTo = none) :
    c.positioned x p = c.lateReport x none .position := by
  unfold Part.positioned
  simp [h]

/-- Where a robot that was travelling with an interval stands after its POSITION report (R116, R120). -/
theorem Part.positioned_eq {x : Side} {p : Nat} {t i : Nat × Nat} (hp : p < 18) (hy : (c.robot x).yieldTo = some t)
    (hi : (c.robot x).held = some i) : c.positioned x p =
      if within i p then c.setRobot x { c.robot x with
        state := if (c.robot x).state = .disabled then .disabled else .idle
        span := some p, held := some (p, p), yieldTo := none }
      else (c.setRobot x { c.robot x with
        state := if (c.robot x).state = .disabled then .disabled else .suspect, yieldTo := none }).say
        (.moveFault x none none .position) := by
  unfold Part.positioned
  rw [spanField_of_lt hp]
  dsimp only
  rw [if_neg (by simp [hy]), hi]

/-! ### The answer to a HAND_SNAPSHOT -/

/-- The blocks with the hand read and the robot's answer come (R132). -/
def Part.handRead (c : Part) (x : Side) (read : Read) (kind : Nat) : Part :=
  let e := c.readAt (handOf x) read (kindField kind) none
  e.putRobot x { e.robot x with awaited := false }

/-- The span lies in the interval the robot holds; `absent` says what holds of one that holds none. -/
def Robot.spans (r : Robot) (p : Nat) (absent : Bool) : Bool :=
  match r.held with
  | some i => within i p
  | none => absent

theorem Robot.spans_iff (r : Robot) (p : Nat) (absent : Bool) : r.spans p absent = true ↔
    (∃ i, r.held = some i ∧ i.1 ≤ p ∧ p ≤ i.2) ∨ (r.held = none ∧ absent = true) := by
  unfold Robot.spans
  cases r.held <;> simp [within]

theorem Part.handAnswer_eq {x : Side} {p : Nat} (read : Read) (kind : Nat) (hp : p < 18) : c.handAnswer x p read kind =
    let e := c.handRead x read kind
    match (e.robot x).state with
    | .suspect =>
      if !(e.robot x).spans p true then e.say (.moveFault x none none .position)
      else if e.occ (handOf x) = .vacant then e.recovered x p
      else e.say (.moveFault x none none .handOccupied)
    | .idle =>
      if (e.robot x).spans p false = true ∧ e.occ (handOf x) = .vacant then e
      else (e.setRobot x { e.robot x with state := .suspect }).say
        (.moveFault x none none (if (e.robot x).spans p false then .handOccupied else .position))
    | _ => e := by
  unfold Part.handAnswer
  rw [spanField_of_lt hp]
  simp only [Bool.and_eq_true, decide_eq_true_eq]
  rfl

/-- What the read of a hand leaves of the robots and the list. -/
theorem Part.handRead_spec (hs : c.sound) (x : Side) (read : Read) (kind : Nat) :
    (c.handRead x read kind).robot x = { c.robot x with awaited := false } ∧
      (c.handRead x read kind).robot x.other = c.robot x.other ∧
      (c.handRead x read kind).out = (c.readAt (handOf x) read (kind % 4) none).out ∧
      (c.handRead x read kind).inv = (c.readAt (handOf x) read (kind % 4) none).inv ∧
      (c.handRead x read kind).mv.moves.length ≤ c.mv.moves.length ∧ (c.handRead x read kind).ctl = c.ctl ∧
      (c.handRead x read kind).tables = c.tables := by
  have hread : c.Cascade (c.readAt (handOf x) read (kind % 4) none) := (cascades_cascade hs).readAt (.refl c)
  unfold Part.handRead kindField
  dsimp only
  refine ⟨?_, ?_, ?_, ?_, ?_, ?_, ?_⟩
  · rw [Part.putRobot_robot, hread.robot_eq]
  · rw [Part.putRobot_robot_other, hread.robot_eq]
  · exact Part.putRobot_out ..
  · exact Part.putRobot_inv ..
  · rw [Part.putRobot_mv_moves]
    exact hread.sublist.length_le
  · rw [Part.putRobot_ctl, hread.ctl_eq]
  · rw [Part.putRobot_tables, hread.tables_eq]

theorem Part.clearFor_congr {x : Side} (h : c.robot x.other = d.robot x.other) (ht : c.tables = d.tables)
    (i : Nat × Nat) : c.clearFor x i = d.clearFor x i := by
  rw [Bool.eq_iff_iff, Part.clearFor_iff, Part.clearFor_iff, h, Part.limits, Part.limits, ht]

end Sys2Proof.Machine
end

section
open Sys2Proof Sys2Proof.Machine

/-- Settles O29: the removal of a move by `cancelMove_spec` and its owner's lemma; a hand's answer by what its read leaves of
the robots (`handRead_spec`) and what a recovery does with them (`recovered_spec`). -/
theorem robotAndMoveRequests : Obligations.RobotAndMoveRequests := by
  refine ⟨fun s tag x hl hm => ⟨fun hx hp ha => ?_, fun hx hp ha => ?_, fun hx => ?_, fun n hn => ?_⟩,
    fun s tag n hl hm => ⟨fun m hn hmove => ⟨fun hst => ?_, fun hst => ?_, fun hst => ?_, fun hst => ?_⟩,
      fun hn hmove => ⟨?_, ?_⟩, fun hn => ⟨?_, ?_⟩⟩,
    fun c m hs hmove hg => ?_, fun c x a p hs hp hkind hside => ?_, fun c x a p kind read hs hp hkind hside => ?_⟩
  · exact State.request_accepted hl (by simp [State.inService, State.need, hm, sideOf_index, hx, hp, ha, Part.askHand])
  · exact State.request_refused hl (by simp [State.inService, State.need, hm, sideOf_index, hx, hp, ha])
  · have hno : ¬((s.part.robot x).state = .suspect ∧ s.part.robotPresent x = true) := fun h => by
      rcases hx with hx | hx
      · exact hx h.1
      · simp [hx] at h
    exact State.request_refused hl (by simp [State.inService, State.need, hm, sideOf_index, hno])
  · have hside : sideOf n = none := by
      unfold sideOf
      rw [if_neg (by omega), if_neg (by omega)]
    exact State.request_refused hl (by simp [State.inService, hm, hside])
  · exact State.request_accepted hl (by simp [State.inService, State.need, hm, hn, hmove, hst])
  · exact State.request_refused hl (by simp [State.inService, State.need, hm, hn, hmove, hst])
  · have hg : m.granted = false := by rcases hst with h | h <;> simp [Move.granted, h]
    exact State.request_accepted hl (by simp [State.inService, State.need, hm, hn, hmove, hg])
  · have hg : m.granted = true := by rcases hst with h | h | h <;> simp [Move.granted, h]
    exact State.request_refused hl (by simp [State.inService, State.need, hm, hn, hmove, hg])
  · exact State.request_refused hl (by simp [State.inService, State.need, hm, hn, hmove])
  · exact State.request_refused hl (by simp [State.inService, State.need, hm, hn, hmove])
  · exact State.request_refused hl (by simp [State.inService, State.need, hm, Nat.not_lt.2 hn])
  · exact State.request_refused hl (by simp [State.inService, State.need, hm, Nat.not_lt.2 hn])
  · intro d
    obtain ⟨hmoves, hrec⟩ := Part.cancelMove_spec (c := c) m .cancelMove
    refine ⟨hmoves, fun n r l hn hr hst hp => ?_, Part.cancelMove_relocate _, fun tag => Part.cancelMove_pass _,
      fun j k r st ho hb hst hopen => Part.cancelMove_step _ ho hb hst hopen, fun p r ho hsrc hp hk ht hnum => ?_⟩
    · exact (hrec n).trans (Part.released_rec hn hr hst hp)
    · obtain ⟨hret, hwork⟩ := Part.cancelMove_return .cancelMove ho hsrc hp ht hnum
      exact ⟨by simpa [hk] using hret, hwork⟩
  · intro r d ends
    have hd : d = c.positioned x p := by simp [d, Part.deliverReport, hkind, hside, sideOf_index]
    refine ⟨fun hy => ?_, fun t i hy hi => ⟨fun h1 h2 => ?_, fun hout => ?_⟩⟩
    · rw [hd, Part.positioned_late hy]
      exact ⟨Part.say_robot .., rfl⟩
    · rw [hd, Part.positioned_eq hp hy hi, if_pos (by simp [within, h1, h2])]
      exact ⟨(Part.setRobot_same ..).2.2.2.2.1, (Part.setRobot_robot ..).trans (if_pos rfl)⟩
    · have hin : ¬within i p = true := by
        simp only [within, Bool.and_eq_true, decide_eq_true_eq]
        omega
      rw [hd, Part.positioned_eq hp hy hi, if_neg hin, Part.say_robot, Part.setRobot_robot, if_pos rfl]
      exact ⟨congrArg (· ++ [_]) (Part.setRobot_same ..).2.2.2.2.1, rfl⟩
  · intro r e d inside free told
    obtain ⟨hrob, hother, hout, hinv, hlen, hctl, htables⟩ := Part.handRead_spec hs x read kind
    have hd : d = c.handAnswer x p read kind := by simp [d, Part.orderData, hkind, hside, sideOf_index]
    have hfree : (c.handRead x read kind).occ (handOf x) = .vacant ↔ free := by
      unfold Part.occ
      rw [hinv]
      exact Iff.rfl
    have hspans : ∀ absent, ((c.handRead x read kind).robot x).spans p absent = true ↔
        inside ∨ (r.held = none ∧ absent = true) := fun absent => by
      rw [hrob]
      exact Robot.spans_iff _ _ _
    have hclear : (c.handRead x read kind).clearFor x (p, p) = e.clearFor x (p, p) := by
      have hread : c.Cascade e := (cascades_cascade hs).readAt (.refl c)
      exact Part.clearFor_congr (by rw [hother, hread.robot_eq]) (by rw [htables, hread.tables_eq]) _
    have hinside : inside → r.held ≠ none := fun ⟨i, hi, _⟩ h => nomatch hi.symm.trans h
    rw [Part.handAnswer_eq read kind hp] at hd
    dsimp only at hd
    refine ⟨fun hst => ?_, fun hst hheld => ?_⟩
    · have hstate : ((c.handRead x read kind).robot x).state = .suspect := by rw [hrob]; exact hst
      have htold : ∀ k, d = (c.handRead x read kind).say (.moveFault x none none k) → told .suspect k := fun k hk => by
        have hsame : { r with state := .suspect, awaited := false } = { r with awaited := false } := by rw [← hst]
        dsimp only [told]
        rw [hk]
        exact ⟨(Part.say_robot ..).trans (hrob.trans hsame.symm), congrArg (· ++ [_]) hout⟩
      rw [hstate] at hd
      dsimp only at hd
      refine ⟨fun hheld hin => htold _ ?_, fun hin hfr => htold _ ?_, fun hfr hin => ?_, fun s hfr hheld hno hsp => ?_⟩
      · rw [hd, if_pos]
        simpa [hheld, hin] using hspans true
      · rw [hd, if_neg, if_neg (mt hfree.1 hfr)]
        simpa using (hspans true).2 (hin.symm.imp_right fun h => ⟨h, rfl⟩)
      · have hin' : ((c.handRead x read kind).robot x).spans p true = true :=
          (hspans true).2 (hin.imp_right fun h => ⟨h.1, rfl⟩)
        have hstand : ((c.handRead x read kind).robot x).held.isSome ∨
            (c.handRead x read kind).clearFor x (p, p) = true := by
          rw [hrob, hclear]
          exact hin.imp (fun h => Option.isSome_iff_ne_none.2 (hinside h)) And.right
        rw [if_neg (by simp [hin']), if_pos (hfree.2 hfr)] at hd
        obtain ⟨⟨l, hl⟩, -, hlast⟩ := Part.recovered_spec (c := c.handRead x read kind) x p
        rw [Part.recoveredStand_idle hstand] at hl
        rw [Part.setRobot_robot, if_pos rfl, hrob] at hl
        rw [hd]
        exact ⟨⟨l, hl⟩, hlast, fun l rest hrec hlt hplan hmode hroom => Part.recovered_scans hstand (by rw [hrob]; exact hrec)
          hlt (by unfold Part.portCfg; rw [htables]; exact hplan) (by rw [hctl]; exact hmode) (Nat.lt_of_le_of_lt hlen hroom)⟩
      · have hin' : ((c.handRead x read kind).robot x).spans p true = true := (hspans true).2 (.inr ⟨hheld, rfl⟩)
        rw [if_neg (by simp [hin']), if_pos (hfree.2 hfr)] at hd
        obtain ⟨⟨l, hl⟩, -, hlast⟩ := Part.recovered_spec (c := c.handRead x read kind) x p
        obtain ⟨h1, h2, h3⟩ := Part.recoveredStand_yields (c := c.handRead x read kind) (x := x) (s := p) (t := s)
          (by rw [hrob]; exact hheld) (hclear.trans hno) (by rw [hother]; exact hsp)
        rw [hd, hl]
        exact ⟨h1, h2, h3, hlast⟩
    · have hstate : ((c.handRead x read kind).robot x).state = .idle := by rw [hrob]; exact hst
      have hspans' : ((c.handRead x read kind).robot x).spans p false = true ↔ inside := by simpa using hspans false
      rw [hstate] at hd
      dsimp only at hd
      have htold : ∀ k, d = ((c.handRead x read kind).setRobot x { (c.handRead x read kind).robot x with
          state := .suspect }).say (.moveFault x none none k) → told .suspect k := fun k hk => by
        dsimp only [told]
        rw [hk]
        refine ⟨?_, congrArg (· ++ [_]) ((Part.setRobot_same ..).2.2.2.2.1.trans hout)⟩
        rw [Part.say_robot, Part.setRobot_robot, if_pos rfl, hrob]
      refine ⟨fun hin hfr => ?_, fun hin hfr => htold _ ?_, fun hin => htold _ ?_⟩
      · rw [hd, if_pos ⟨hspans'.2 hin, hfree.2 hfr⟩]
        exact ⟨hrob, hout⟩
      · rw [hd, if_neg fun h => hfr (hfree.1 h.2), if_pos (hspans'.2 hin)]
      · rw [hd, if_neg fun h => hin (hspans'.1 h.1), if_neg (mt hspans'.1 hin)]

end

section
/-! SUPPORT. A location given up: what becomes of the record it named, and of the rest of the tables (R24, R32 to R34); and a
pod put at a location. -/

namespace Sys2Proof.Machine

variable {c d e : Part}

/-! ### What the Inventory alone says -/

theorem Part.occ_of_inv (h : d.inv = c.inv) (l : Nat) : d.occ l = c.occ l :=
  congrArg (fun i : Inventory => Store.getD Occ.unknown i.occ l) h

theorem Part.rec_of_inv (h : d.inv = c.inv) (n : Nat) : d.rec? n = c.rec? n := congrArg (fun i : Inventory => Store.find i.recs n) h

theorem Part.flags_of_inv (h : d.inv = c.inv) (l : Nat) : d.flagsOf l = c.flagsOf l :=
  congrArg (fun i : Inventory => Store.getD SlotFlags.clear i.flags l) h

/-! ### The ends of a record's commitments -/

/-- `d` differs from `c` in the move list and in the writes of the Job Engine alone. -/
def Part.MoveOnly (c d : Part) : Prop := ∃ ms, { c with mv := { c.mv with moves := ms } }.JobOnly d

theorem Part.MoveOnly.refl (c : Part) : c.MoveOnly c := ⟨c.mv.moves, .refl c⟩

theorem Part.JobOnly.moveOnly (h : c.JobOnly d) : c.MoveOnly d := ⟨c.mv.moves, h⟩

theorem Part.MoveOnly.trans (h : c.MoveOnly d) (h' : d.MoveOnly e) : c.MoveOnly e := by
  obtain ⟨ms, _, _, _, _, o, rfl⟩ := h
  obtain ⟨ms', _, _, _, _, o', rfl⟩ := h'
  exact ⟨ms', _, _, _, _, o ++ o', by rw [List.append_assoc]⟩

theorem Part.MoveOnly.inv_eq (h : c.MoveOnly d) : d.inv = c.inv := by
  obtain ⟨ms, _, _, _, _, o, rfl⟩ := h
  rfl

theorem Part.MoveOnly.out_prefix (h : c.MoveOnly d) : c.out <+: d.out := by
  obtain ⟨ms, _, _, _, _, o, rfl⟩ := h
  exact List.prefix_append _ _

theorem Part.endPendingOf_moveOnly (n : Nat) (cause : CancelCause) : c.MoveOnly (c.endPendingOf n cause) :=
  Kept0.foldl (R := c.MoveOnly) (f := fun c m => c.endMove m (.cancelled cause)) (.refl c)
    (fun _ _ hd => hd.trans ⟨_, Part.endMove_jobOnly nofun nofun⟩) _

theorem Part.endOffer_jobOnly (n : Nat) (res : StepResult) : c.JobOnly (c.endOffer n res) := by
  have S := stepSide_jobOnly c
  have h0 := Part.JobOnly.refl c
  unfold Part.endOffer
  dsimp only
  repeat' split
  all_goals first
    | exact h0 | exact S.portOrder h0 | exact S.endStep h0 | exact S.endStep (S.portOrder h0)

theorem Part.endCommitments_moveOnly (n : Nat) (cause : CancelCause) : c.MoveOnly (c.endCommitments n cause) := by
  unfold Part.endCommitments
  split
  · exact .refl c
  · refine (Part.MoveOnly.trans ?_ (Part.endPendingOf_moveOnly n cause)).trans (Part.endOffer_jobOnly n _).moveOnly
    split
    · exact ((portSide_portOnly c).endReturnOf (.refl c)).jobOnly.moveOnly
    · exact .refl c

/-! ### Flags -/

theorem Part.raiseFlag_eq (l : Nat) (f : SlotFlag) :
    ∃ v o, c.raiseFlag l f = { c with inv := { c.inv with flags := v }, out := c.out ++ o } := by
  unfold Part.raiseFlag
  split
  · exact ⟨_, _, rfl⟩
  · exact ⟨_, [], by rw [List.append_nil]⟩

theorem Part.raiseFlag_flags_ne {l a : Nat} (f : SlotFlag) (h : a ≠ l) : (c.raiseFlag l f).flagsOf a = c.flagsOf a := by
  unfold Part.raiseFlag
  split
  · exact Store.getD_setD_of_ne _ _ _ h
  · rfl

theorem SlotFlags.set_get (v : SlotFlags) (f : SlotFlag) : (v.set f).get f = true := by cases f <;> rfl

theorem Part.raiseFlag_get (h : c.sound) {l : Nat} (f : SlotFlag) (hl : l < 960) :
    ((c.raiseFlag l f).flagsOf l).get f = true := by
  unfold Part.raiseFlag
  split
  · have hset : (((c.putFlags l ((c.flagsOf l).set f)).say (.slotFlag l f)).flagsOf l) = (c.flagsOf l).set f :=
      Store.getD_setD_self h.flags _ _
    rw [hset, SlotFlags.set_get]
  · rename_i hno
    have hslot : isSlot l = true := decide_eq_true hl
    simpa [hslot] using hno

/-- A raised flag stands, whatever flag is raised. -/
theorem Part.raiseFlag_conflict_stays {l a : Nat} (f : SlotFlag) (h : c.sound) (hc : (c.flagsOf a).conflict = true) :
    ((c.raiseFlag l f).flagsOf a).conflict = true := by
  by_cases hal : a = l
  · subst hal
    unfold Part.raiseFlag
    split
    · have hset : (((c.putFlags a ((c.flagsOf a).set f)).say (.slotFlag a f)).flagsOf a) = (c.flagsOf a).set f :=
        Store.getD_setD_self h.flags _ _
      rw [hset]
      cases f <;> simp [SlotFlags.set, hc]
    · exact hc
  · rwa [Part.raiseFlag_flags_ne f hal]

/-! ### A record that leaves its place for none -/

theorem Part.RecOnly.flags_eq {n : Nat} {r : Rec} {o : List Subject} (h : c.RecOnly d n r o) : d.inv.flags = c.inv.flags := by
  obtain ⟨⟨w, q, rfl⟩, -, -⟩ := h
  rfl

theorem Part.RecOnly.rescan_eq {n : Nat} {r : Rec} {o : List Subject} (h : c.RecOnly d n r o) : d.inv.rescan = c.inv.rescan := by
  obtain ⟨⟨w, q, rfl⟩, -, -⟩ := h
  rfl

/-- What remains of a record that has been given up: its ID, with the state `s`, at no place and for no job (R24). -/
def Rec.gone (q r : Rec) (s : RState) : Prop := q.id = r.id ∧ q.state = s ∧ q.place = .none ∧ q.job = none

theorem Rec.SameButAccount.gone {q q' r : Rec} {s : RState} (h : q.SameButAccount q') (hq : q.gone r s) : q'.gone r s := by
  obtain ⟨hid, -, -, hplace, hstate, -, -, hjob⟩ := h.keeps
  obtain ⟨h1, h2, h3, h4⟩ := hq
  exact ⟨hid.trans h1, hstate.trans h2, hplace.trans h3, hjob.trans h4⟩

theorem Part.makeLost_only {n : Nat} {r : Rec} (cause : LostCause) (h : c.rec? n = some r) :
    ∃ q o, (c.vacate n .unknown).RecOnly (c.makeLost n cause) n q (Subject.reticleLost n r.id r.place cause :: o) ∧
      q.gone r .lost := by
  have hset := (Part.updRec_only (fun r => { r with place := .none, state := .lost, job := none })
    ((Part.vacate_rec n n .unknown).trans h)).say (.reticleLost n r.id r.place cause)
  obtain ⟨q, o, hq, hsame⟩ := Part.limboAccount_uncommitted hset.self ⟨nofun, nofun⟩
  refine ⟨q, o, ?_, hsame.gone ⟨rfl, rfl, rfl, rfl⟩⟩
  rw [Part.makeLost_eq cause h]
  exact hset.trans hq

theorem Part.makeInDoubt_only {n : Nat} {r : Rec} (h : c.rec? n = some r) :
    ∃ q o, (c.vacate n .unknown).RecOnly (c.makeInDoubt n) n q o ∧ q.gone r .inDoubt := by
  have hset := Part.updRec_only (fun r => { r with place := .none, state := .inDoubt, job := none })
    ((Part.vacate_rec n n .unknown).trans h)
  obtain ⟨q, o, hq, hsame⟩ := Part.limboAccount_uncommitted hset.self ⟨nofun, nofun⟩
  exact ⟨q, o, hset.trans hq, hsame.gone ⟨rfl, rfl, rfl, rfl⟩⟩

/-! ### A location given up -/

/-- Location `l` has been given up between `c` and `d`: a record it named stands nowhere in the state `s`, and besides no
location, no other record and no flag of another slot has changed. -/
structure Part.GivenUp (c d : Part) (l : Nat) (s : RState) : Prop where
  occ : ∀ a, d.occ a = if a = l ∧ (c.occ l).resident.isSome then .unknown else c.occ a
  gone : ∀ k r, (c.occ l).resident = some k → c.rec? k = some r → ∃ q, d.rec? k = some q ∧ q.gone r s
  others : ∀ k, (c.occ l).resident ≠ some k → d.rec? k = c.rec? k
  flags : ∀ a, a ≠ l → d.flagsOf a = c.flagsOf a
  rescan : d.inv.rescan = c.inv.rescan
  out : c.out <+: d.out

theorem Part.GivenUp.refl {l : Nat} {s : RState} (h : (c.occ l).resident = none) : c.GivenUp c l s where
  occ a := by simp [h]
  gone k r hk := by simp [h] at hk
  others k _ := rfl
  flags a _ := rfl
  rescan := rfl
  out := List.prefix_rfl

/-- A record leaves its location, and its commitments end. -/
theorem Part.givenUp_of {b d : Part} {n l : Nat} {s : RState} {r q : Rec} {o : List Subject} (hc : c.accords)
    (hn : (c.occ l).resident = some n) (hr : c.rec? n = some r) (hb : c.MoveOnly b)
    (hd : (b.vacate n .unknown).RecOnly d n q o) (hq : q.gone r s) :
    c.GivenUp d l s ∧ d.inv.flags = c.inv.flags := by
  have hplace : r.place = .loc l := by
    obtain ⟨r', hr', hp⟩ := (hc.2 n l).2 hn
    rwa [Option.some.inj (hr.symm.trans hr')]
  have hbr : b.rec? n = some r := (Part.rec_of_inv hb.inv_eq n).trans hr
  have hbocc : ∀ a, b.occ a = c.occ a := Part.occ_of_inv hb.inv_eq
  have hvac : b.vacate n .unknown = b.setOcc l .unknown := Part.vacate_at _ hbr hplace
  have hinv : (b.setOcc l .unknown).inv = (b.putOcc l .unknown).inv := Part.setOcc_inv
  obtain ⟨_, hflags, _, hout⟩ := Part.setOcc_framed (c := b) l .unknown
  rw [hvac] at hd
  have hdflags : d.inv.flags = c.inv.flags := by
    obtain ⟨⟨w, p, rfl⟩, -, -⟩ := hd
    exact hflags.trans (congrArg Inventory.flags hb.inv_eq)
  refine ⟨⟨fun a => ?_, fun k r' hk hr' => ?_, fun k hk => ?_, fun a _ => ?_, ?_, ?_⟩, hdflags⟩
  · rw [hd.occ_eq]
    have hsame : (b.setOcc l .unknown).occ a = (c.setOcc l .unknown).occ a := by
      unfold Part.occ
      rw [hinv, Part.setOcc_inv, Part.putOcc, Part.putOcc]
      dsimp only
      rw [hb.inv_eq]
    rw [hsame, Part.setOcc_occ hc.1, hn]
    simp
  · obtain rfl : n = k := Option.some.inj (hn.symm.trans hk)
    obtain rfl : r = r' := Option.some.inj (hr.symm.trans hr')
    exact ⟨q, hd.self, hq⟩
  · have hkn : k ≠ n := fun e => hk (e ▸ hn)
    rw [hd.others k hkn, Part.setOcc_rec]
    exact Part.rec_of_inv hb.inv_eq k
  · exact congrArg (Store.getD _ · a) hdflags
  · obtain ⟨⟨w, p, rfl⟩, -, -⟩ := hd
    have hput : (b.putOcc l .unknown).inv.rescan = b.inv.rescan := rfl
    exact ((congrArg Inventory.rescan hinv).trans hput).trans (congrArg Inventory.rescan hb.inv_eq)
  · rw [hd.out_eq, hout]
    exact hb.out_prefix.trans (List.prefix_append _ _)

/-- What stands at a location that is no longer known is given up IN_DOUBT, and no flag is raised (R34). -/
theorem Part.doubt_givenUp (hc : c.accords) (l : Nat) :
    c.GivenUp (c.doubt l) l .inDoubt ∧ (c.doubt l).inv.flags = c.inv.flags := by
  unfold Part.doubt
  cases hn : (c.occ l).resident with
  | none => exact ⟨.refl hn, rfl⟩
  | some n =>
    obtain ⟨r, hr⟩ := Option.isSome_iff_exists.1 (hc.rec_of_resident hn)
    have hb := Part.endCommitments_moveOnly (c := c) n .readDisplaced
    obtain ⟨q, o, hq, hgone⟩ := Part.makeInDoubt_only (c := c.endCommitments n .readDisplaced) (n := n) (r := r)
      ((Part.rec_of_inv hb.inv_eq n).trans hr)
    exact Part.givenUp_of hc hn hr hb hq hgone

/-- The flag that a displacement raises at a slot found verified (R33). -/
def LostCause.flag (cause : LostCause) : SlotFlag := if cause = .otherPod then .mismatch else .conflict

/-- What a read shows no more at a location is given up LOST; a verified slot gets its flag (R33). -/
theorem Part.displace_givenUp (hc : c.accords) (l : Nat) (cause : LostCause) :
    c.GivenUp (c.displace l cause) l .lost ∧
      ((c.occ l).verified = true → l < 960 → ((c.displace l cause).flagsOf l).get cause.flag = true) := by
  unfold Part.displace
  cases hn : (c.occ l).resident with
  | none =>
    refine ⟨.refl hn, fun hv => ?_⟩
    cases ho : c.occ l <;> simp [ho, Occ.resident, Occ.verified] at hn hv
  | some n =>
    obtain ⟨r, hr⟩ := Option.isSome_iff_exists.1 (hc.rec_of_resident hn)
    have hb := Part.endCommitments_moveOnly (c := c) n .readDisplaced
    obtain ⟨q, o, hq, hgone⟩ := Part.makeLost_only (c := c.endCommitments n .readDisplaced) (n := n) (r := r) cause
      ((Part.rec_of_inv hb.inv_eq n).trans hr)
    obtain ⟨hup, -⟩ := Part.givenUp_of hc hn hr hb hq hgone
    have hsound : ((c.endCommitments n .readDisplaced).makeLost n cause).sound :=
      kept_sound.makeLost (kept_sound.endCommitments hc.1)
    dsimp only
    split
    · refine ⟨?_, fun _ hl => Part.raiseFlag_get hsound cause.flag hl⟩
      obtain ⟨v, o', heq⟩ := Part.raiseFlag_eq (c := (c.endCommitments n .readDisplaced).makeLost n cause) l
        (if cause = .otherPod then .mismatch else .conflict)
      exact {
        occ := fun a => by rw [heq]; exact hup.occ a
        gone := fun k r' hk hr' => by rw [heq]; exact hup.gone k r' hk hr'
        others := fun k hk => by rw [heq]; exact hup.others k hk
        flags := fun a ha => (Part.raiseFlag_flags_ne _ ha).trans (hup.flags a ha)
        rescan := by rw [heq]; exact hup.rescan
        out := by rw [heq]; exact hup.out.trans (List.prefix_append _ _) }
    · exact ⟨hup, fun hv => absurd hv ‹_›⟩

/-- A location is given up to another pod; the pod of the move concerned does not stand there. -/
theorem Part.evict_givenUp (hc : c.accords) {l : Nat} {own : Option Nat} (h : (c.occ l).resident = none ∨ (c.occ l).resident ≠ own) :
    c.GivenUp (c.evict l own) l .lost := by
  unfold Part.evict
  cases hn : (c.occ l).resident with
  | none => exact .refl hn
  | some n =>
    have hne : some n ≠ own := by simpa [hn] using h
    rw [Option.any_some, if_pos (by simpa using hne)]
    exact (Part.displace_givenUp hc l _).1

/-! ### A pod put at a location -/

/-- What a pod's arrival writes: locations, records, and signals. -/
theorem Part.putPod_same (n l : Nat) (left : Occ) (f : Rec → Rec) : ∃ o q w, c.putPod n l left f =
    { c with inv := { c.inv with occ := o, recs := q }, work := w } := by
  have hset : ∀ (d : Part) a v, ∃ o w, d.setOcc a v = { d with inv := { d.inv with occ := o }, work := w } := fun d a v => by
    obtain ⟨w, hw⟩ := Part.setOcc_signalled (c := d) a v
    exact ⟨_, w, hw⟩
  have hvac : ∃ o w, c.vacate n left = { c with inv := { c.inv with occ := o }, work := w } := by
    unfold Part.vacate
    repeat' split
    all_goals first | exact hset c _ _ | exact ⟨_, _, rfl⟩
  unfold Part.putPod
  split
  · obtain ⟨o, w, hv⟩ := hvac
    obtain ⟨o', w', hs⟩ := hset (c.vacate n left) l (.occupied n true)
    obtain ⟨w'', q, hu⟩ := Part.updRec_eq (c := (c.vacate n left).setOcc l (.occupied n true)) n
      fun r => { f r with place := .loc l }
    exact ⟨o', q, w'', by rw [hu, hs, hv]⟩
  · exact ⟨_, _, _, rfl⟩

theorem Part.putPod_rec {n l : Nat} {left : Occ} {f : Rec → Rec} {r : Rec} (h : c.rec? n = some r) (k : Nat) :
    (c.putPod n l left f).rec? k = if k = n then some { f r with place := .loc l } else c.rec? k := by
  unfold Part.putPod
  rw [h]
  dsimp only
  rw [Part.updRec_rec, Part.setOcc_rec, Part.setOcc_rec, Part.vacate_rec, Part.vacate_rec, h, Option.map_some]

theorem Part.putPod_occ (hc : c.sound) {n l : Nat} {left : Occ} {f : Rec → Rec} {r : Rec} (h : c.rec? n = some r) (a : Nat) :
    (c.putPod n l left f).occ a =
      if a = l then .occupied n true else if r.place = .loc a then left else c.occ a := by
  have hvac : (c.vacate n left).occ a = if r.place = .loc a then left else c.occ a := by
    cases hp : r.place with
    | loc p =>
      rw [Part.vacate_at _ h hp, Part.setOcc_occ hc]
      simp [eq_comm]
    | scanner p => rw [Part.vacate_nowhere _ h (by simp [hp])]; simp
    | none => rw [Part.vacate_nowhere _ h (by simp [hp])]; simp
  unfold Part.putPod
  rw [h]
  dsimp only
  rw [Part.updRec_occ, Part.setOcc_occ (Part.vacate_sound hc), hvac]

end Sys2Proof.Machine
end

section
/-! SUPPORT. The reader-result rule, branch by branch (R26, R28 to R34). -/

namespace Sys2Proof.Machine

variable {c d e : Part} {l kind n : Nat} {own : Option Nat}

/-! ### The claim and the notice of a read -/

/-- The claim of the move that a robot carries out, on the robot's own hand. -/
def Part.handClaim (c : Part) (l : Nat) (own : Option Nat) (x : Side) : Option (Option Nat) :=
  match c.currentOf x with
  | some m => if l = handOf x ∧ (m.granted && decide (some m.num ≠ own)) then some m.reticle else none
  | none => none

/-- The claim of a dispatched move on the location that names its reticle. -/
def Part.entryClaim (c : Part) (own : Option Nat) (k : Nat) : Option (Option Nat) :=
  if c.mv.moves.any fun m => (m.granted && decide (some m.num ≠ own)) && decide (m.reticle = some k) then some (some k)
  else none

theorem Part.claimedBy_eq (c : Part) (l : Nat) (own : Option Nat) : c.claimedBy l own = match c.occ l with
    | .inbound k => c.entryClaim own k
    | .outbound k _ => c.entryClaim own k <|> c.handClaim l own .a <|> c.handClaim l own .b
    | _ => c.handClaim l own .a <|> c.handClaim l own .b := rfl

theorem Part.entryClaim_none {k : Nat} :
    c.entryClaim none k = none ↔ ∀ m ∈ c.mv.moves, m.granted = true → m.reticle ≠ some k := by
  unfold Part.entryClaim
  simp

theorem Part.currentOf_eq_some (hs : c.sound) {x : Side} {m : Move} :
    c.currentOf x = some m ↔ m ∈ c.mv.moves ∧ (c.robot x).current = some m.num := by
  unfold Part.currentOf
  rw [Option.bind_eq_some_iff]
  constructor
  · rintro ⟨num, hnum, hm⟩
    obtain ⟨hmem, rfl⟩ := (Part.move_eq_some hs.moves.2.1).1 hm
    exact ⟨hmem, hnum⟩
  · rintro ⟨hm, hcur⟩
    exact ⟨_, hcur, (Part.move_eq_some hs.moves.2.1).2 ⟨hm, rfl⟩⟩

theorem Part.handClaim_none (hs : c.sound) (x : Side) : c.handClaim l none x = none ↔
    ∀ m ∈ c.mv.moves, m.granted = true → l = handOf x → (c.robot x).current ≠ some m.num := by
  have hnone : c.handClaim l none x = none ↔ ∀ m, c.currentOf x = some m → ¬(l = handOf x ∧ m.granted = true) := by
    unfold Part.handClaim
    cases c.currentOf x <;> simp
  rw [hnone]
  constructor
  · intro h m hm hg hl hcur
    exact h m ((Part.currentOf_eq_some hs).2 ⟨hm, hcur⟩) ⟨hl, hg⟩
  · rintro h m hm ⟨hl, hg⟩
    obtain ⟨hmem, hcur⟩ := (Part.currentOf_eq_some hs).1 hm
    exact h m hmem hg hl hcur

/-- A dispatched move names the location (R28). -/
def Part.claims (c : Part) (l : Nat) (m : Move) : Prop :=
  m ∈ c.mv.moves ∧ m.granted = true ∧
    ((∃ k v, (c.occ l = .inbound k ∨ c.occ l = .outbound k v) ∧ m.reticle = some k) ∨
      ((∀ k, c.occ l ≠ .inbound k) ∧ ∃ x, l = handOf x ∧ (c.robot x).current = some m.num))

theorem Part.claimedBy_none (hs : c.sound) : c.claimedBy l none = none ↔ ∀ m, ¬c.claims l m := by
  have hhands : (c.handClaim l none .a <|> c.handClaim l none .b) = none ↔
      ∀ m ∈ c.mv.moves, m.granted = true → ∀ x, l = handOf x → (c.robot x).current ≠ some m.num := by
    have hor : (c.handClaim l none .a <|> c.handClaim l none .b) = none ↔
        c.handClaim l none .a = none ∧ c.handClaim l none .b = none := by
      cases c.handClaim l none .a <;> simp
    rw [hor, Part.handClaim_none hs, Part.handClaim_none hs]
    constructor
    · rintro ⟨ha, hb⟩ m hm hg x
      cases x
      exacts [ha m hm hg, hb m hm hg]
    · intro h
      exact ⟨fun m hm hg => h m hm hg .a, fun m hm hg => h m hm hg .b⟩
  rw [Part.claimedBy_eq]
  unfold Part.claims
  cases ho : c.occ l with
  | inbound k =>
    dsimp only
    rw [Part.entryClaim_none]
    constructor
    · rintro h m ⟨hm, hg, ⟨k', v, hk', hr⟩ | ⟨hno, -⟩⟩
      · exact h m hm hg (by simp_all)
      · exact hno k rfl
    · intro h m hm hg hr
      exact h m ⟨hm, hg, .inl ⟨k, false, .inl rfl, hr⟩⟩
  | outbound k v =>
    dsimp only
    have hor : (c.entryClaim none k <|> c.handClaim l none .a <|> c.handClaim l none .b) = none ↔
        c.entryClaim none k = none ∧ (c.handClaim l none .a <|> c.handClaim l none .b) = none := by
      cases c.entryClaim none k <;> simp
    rw [hor, Part.entryClaim_none, hhands]
    constructor
    · rintro ⟨he, hh⟩ m ⟨hm, hg, ⟨k', v', hk', hr⟩ | ⟨-, x, hx, hcur⟩⟩
      · exact he m hm hg (by simp_all)
      · exact hh m hm hg x hx hcur
    · intro h
      exact ⟨fun m hm hg hr => h m ⟨hm, hg, .inl ⟨k, v, .inr rfl, hr⟩⟩,
        fun m hm hg x hx hcur => h m ⟨hm, hg, .inr ⟨nofun, x, hx, hcur⟩⟩⟩
  | _ =>
    dsimp only
    rw [hhands]
    constructor
    · rintro hh m ⟨hm, hg, ⟨k', v', hk', -⟩ | ⟨-, x, hx, hcur⟩⟩
      · simp at hk'
      · exact hh m hm hg x hx hcur
    · intro h m hm hg x hx hcur
      exact h m ⟨hm, hg, .inr ⟨nofun, x, hx, hcur⟩⟩

theorem Part.setsAside_free (read : Read) (h : c.claimedBy l own = none) : c.setsAside l read own = false := by
  unfold Part.setsAside
  rw [h]

/-- A read of the reticle of the claiming move itself is not set aside (R28). -/
theorem Part.setsAside_own {x : RetId} {r : Rec} (hf : c.findId x = some (n, r))
    (h : c.claimedBy l own = none ∨ c.claimedBy l own = some (some n)) : c.setsAside l (.id x) own = false := by
  unfold Part.setsAside
  rcases h with h | h <;> rw [h]
  simp [Part.namedBy, hf]

theorem Read.norm_id {x : RetId} (h : idOk x = true) : (Read.id x).norm = .id x := if_pos h

theorem Read.norm_unreadable {read : Read} (h : read = .unreadable ∨ ∃ x, read = .id x ∧ idOk x = false) :
    read.norm = .unreadable := by
  rcases h with rfl | ⟨x, rfl, hx⟩
  · rfl
  · exact if_neg (by simp [hx])

theorem Read.norm_eq_id {read : Read} {x : RetId} (h : read.norm = .id x) : read = .id x := by
  unfold Read.norm at h
  split at h
  · split at h
    · exact h
    · exact nomatch h
  · exact h

/-- Another move's claim sets the read aside, unless it is of that move's reticle (R28). -/
theorem Part.readAt_aside {read : Read} {k : Option Nat} (h : c.claimedBy l own = some k)
    (hk : ∀ x n r, read = .id x → c.findId x = some (n, r) → k ≠ some n) : c.readAt l read kind own = c.rescan l := by
  rw [Part.readAt_eq, if_pos]
  unfold Part.setsAside
  rw [h]
  simp only [Bool.not_eq_true', Bool.and_eq_false_iff, beq_eq_false_iff_ne]
  refine or_iff_not_imp_left.2 fun hsome hnamed => ?_
  unfold Part.namedBy at hnamed
  split at hnamed
  · rename_i x hx
    cases hf : c.findId x with
    | none => simp [hf] at hnamed; simp [hnamed] at hsome
    | some e =>
      obtain ⟨n, r⟩ := e
      exact hk x n r (Read.norm_eq_id hx) hf (by simpa [hf] using hnamed)
  · simp [hnamed] at hsome

/-- The blocks with a location taken out of the rescan queue, its read about to be applied, and nothing said yet. -/
def Part.readBase (c : Part) (l : Nat) : Part := { c.unrescan l with out := [] }

theorem Part.readBase_accords (h : c.accords) (l : Nat) : (c.readBase l).accords := kept_accords.out (kept_accords.unrescan h)

/-- What is left of an applied read, but for the return of a FOREIGN pod that ended with it. -/
theorem Part.readAt_applied {read : Read} (h : c.setsAside l read.norm own = false) :
    (c.readAt l read kind own).inv = ((c.readBase l).applyRead l read.norm kind own).inv ∧
      (c.readAt l read kind own).out = c.out ++ orderNotices ((c.readBase l).applyRead l read.norm kind own).out
        (c.readNote ((c.readBase l).applyRead l read.norm kind own) l read.norm) := by
  obtain ⟨q, w, heq⟩ := (portSide_portOnly ((c.readBase l).applyRead l read.norm kind own)).endForeignReturn (l := l)
    (.refl _)
  have htaken : c.readTaken l read.norm kind own = ((c.readBase l).applyRead l read.norm kind own).endForeignReturn l := rfl
  rw [Part.readAt_eq, if_neg (by simp [h]), htaken, heq]
  exact ⟨rfl, rfl⟩

theorem Part.readAt_ports {read : Read} (h : c.setsAside l read.norm own = false) (p : Nat) :
    (c.readAt l read kind own).port p =
      (((c.readBase l).applyRead l read.norm kind own).endForeignReturn l).port p := by
  rw [Part.readAt_eq, if_neg (by simp [h])]
  rfl

theorem Occ.same_self (o : Occ) : o.same o = true := by cases o <;> simp [Occ.same]

theorem Occ.same_withVerified (o : Occ) (v : Bool) : o.same (o.withVerified v) = true := by
  cases o <;> simp [Occ.same, Occ.withVerified]

theorem Occ.same_resident {o o' : Occ} (h : o.resident ≠ o'.resident) : o.same o' = false := by
  cases o <;> cases o' <;> simp_all [Occ.same, Occ.resident]

theorem Occ.same_vacant {o : Occ} (h : o ≠ .vacant) : o.same .vacant = false := by
  cases o <;> simp_all [Occ.same]

theorem Occ.same_unknown {o : Occ} (h : o ≠ .unknown) : o.same .unknown = false := by
  cases o <;> simp_all [Occ.same]

theorem Occ.same_foreign {o : Occ} {k : Nat} (h : ∀ k, o ≠ .foreign k) : o.same (.foreign k) = false := by
  cases o <;> simp_all [Occ.same]

/-- RECONCILED of a location that names no record now (R28). -/
theorem Part.readNote_emptied {read : Read} (hsame : (c.occ l).same (d.occ l) = false) (hd : (d.occ l).resident = none) :
    c.readNote d l read = some (.reconciled l read none none (c.occ l).resident) := by
  unfold Part.readNote
  rw [hsame, hd]
  cases (c.occ l).resident <;> simp

/-- RECONCILED of a record read away from its place (R28). -/
theorem Part.readNote_moved {x : RetId} {r q : Rec} (hd : (d.occ l).resident = some n) (hf : c.findId x = some (n, q))
    (hr : c.rec? n = some r) (hplace : r.place ≠ .loc l) (hold : (c.occ l).resident ≠ some n) :
    c.readNote d l (.id x) = some (.reconciled l (.id x) (some n) (some r.place) (c.occ l).resident) := by
  unfold Part.readNote Part.namedBy
  simp [hd, hf, hr, hplace, hold]

/-- RECONCILED of a record that the read has created (R26, R28). -/
theorem Part.readNote_created {x : RetId} (hd : (d.occ l).resident = some n) (hf : c.findId x = none)
    (hold : (c.occ l).resident ≠ some n) :
    c.readNote d l (.id x) = some (.reconciled l (.id x) (some n) none (c.occ l).resident) := by
  have hsame : (c.occ l).same (d.occ l) = false := Occ.same_resident (hd ▸ hold)
  unfold Part.readNote Part.namedBy
  simp [hd, hf, hold, hsame]

/-- A read that leaves the location as it was says nothing. -/
theorem Part.readNote_unchanged {x : RetId} {r q : Rec} (hsame : (c.occ l).same (d.occ l) = true)
    (hf : c.findId x = some (n, q)) (hr : c.rec? n = some r) (hd : (d.occ l).resident = some n → r.place = .loc l) :
    c.readNote d l (.id x) = none := by
  unfold Part.readNote Part.namedBy
  rw [hsame]
  cases hres : (d.occ l).resident with
  | none => simp
  | some k =>
    by_cases hk : k = n
    · subst hk
      simp [hf, hr, hd hres]
    · simp [hf, hr, Ne.symm hk]

theorem mem_orderNotices {s : Subject} {o : List Subject} {first : Option Subject} (h : s ∈ o) : s ∈ orderNotices o first := by
  unfold orderNotices
  cases s <;> simp [h]

/-- The read tells RECONCILED first (R28). -/
theorem Part.readAt_tells {read : Read} {s : Subject} (h : c.setsAside l read.norm own = false)
    (hnote : c.readNote ((c.readBase l).applyRead l read.norm kind own) l read.norm = some s) :
    ∃ a : List Subject, (c.readAt l read kind own).out = c.out ++ s :: a := by
  rw [(Part.readAt_applied h).2, hnote]
  exact ⟨_, by rw [orderNotices]; rfl⟩

end Sys2Proof.Machine
end

section
/-! SUPPORT. What each branch of the reader-result rule writes (R26, R29 to R34). -/

namespace Sys2Proof.Machine

variable {c d : Part} {l kind n : Nat}

/-- Location `l` has been given up between `c` and `d` and holds `o` now. -/
structure Part.Replaced (c d : Part) (l : Nat) (s : RState) (o : Occ) : Prop where
  occ : ∀ a, d.occ a = if a = l then o else c.occ a
  gone : ∀ k r, (c.occ l).resident = some k → c.rec? k = some r → ∃ q, d.rec? k = some q ∧ q.gone r s
  others : ∀ k, (c.occ l).resident ≠ some k → d.rec? k = c.rec? k
  flags : ∀ a, a ≠ l → d.flagsOf a = c.flagsOf a
  rescan : d.inv.rescan = c.inv.rescan
  out : c.out <+: d.out

theorem Part.GivenUp.setOcc {s : RState} (h : c.GivenUp d l s) (hd : d.sound) (o : Occ) :
    c.Replaced (d.setOcc l o) l s o := by
  obtain ⟨-, hflags, -, hout⟩ := Part.setOcc_framed (c := d) l o
  have hrescan : (d.setOcc l o).inv.rescan = d.inv.rescan := by rw [Part.setOcc_inv]; rfl
  exact {
    occ := fun a => by
      rw [Part.setOcc_occ hd, h.occ]
      split
      · rfl
      · rw [if_neg fun e => ‹¬a = l› e.1]
    gone := fun k r hk hr => by rw [Part.setOcc_rec]; exact h.gone k r hk hr
    others := fun k hk => by rw [Part.setOcc_rec]; exact h.others k hk
    flags := fun a ha => (congrArg (Store.getD _ · a) hflags).trans (h.flags a ha)
    rescan := hrescan.trans h.rescan
    out := hout ▸ h.out }

/-- A location cleared of a record that is not the move's own (R34, R130). -/
theorem Part.clear_replaced (hc : c.accords) {own : Option Nat} (o : Occ)
    (h : (c.occ l).resident = none ∨ (c.occ l).resident ≠ own) :
    c.Replaced (c.clear l own o) l .inDoubt o ∧ (c.clear l own o).inv.flags = c.inv.flags := by
  obtain ⟨hup, hflags⟩ := Part.doubt_givenUp hc l
  obtain ⟨-, hset, -, -⟩ := Part.setOcc_framed (c := c.doubt l) l o
  have hclear : c.clear l own o = (c.doubt l).setOcc l o := if_neg fun ⟨hsome, hown⟩ => by
    rcases h with h | h
    · simp [h] at hsome
    · exact h hown
  rw [hclear]
  exact ⟨hup.setOcc (kept_sound.doubt hc.1) o, hset.trans hflags⟩

/-- A location whose pod is another one, or gone, is given up to `o` (R33, R34). -/
theorem Part.displace_replaced (hc : c.accords) (cause : LostCause) (o : Occ) :
    c.Replaced ((c.displace l cause).setOcc l o) l .lost o ∧
      ((c.occ l).verified = true → l < 960 → (((c.displace l cause).setOcc l o).flagsOf l).get cause.flag = true) := by
  obtain ⟨hup, hflag⟩ := Part.displace_givenUp hc l cause
  obtain ⟨-, hset, -, -⟩ := Part.setOcc_framed (c := c.displace l cause) l o
  refine ⟨hup.setOcc (kept_sound.displace hc.1) o, fun hv hl => ?_⟩
  rw [Part.flagsOf, hset]
  exact hflag hv hl

/-! ### EMPTY and UNREADABLE -/

theorem Part.readEmpty_spec (hc : c.accords) (own : Bool) : c.Replaced (c.readEmpty l own) l .lost .vacant ∧
    ((c.occ l).verified = true → l < 960 → ((c.readEmpty l own).flagsOf l).conflict = true) := by
  cases own <;> exact Part.displace_replaced hc _ _

/-- The blocks with an unreadable pod found at a location, but for the port's return. -/
theorem Part.readUnreadable_ports : (c.clear l none (.foreign kind)).PortOnly (c.readUnreadable l kind) := by
  have P := portSide_portOnly (c.clear l none (.foreign kind))
  unfold Part.readUnreadable
  dsimp only
  repeat' split
  all_goals first | exact .refl _ | exact P.newReturn (P.endReturn (.refl _))

theorem Part.PortOnly.inv_eq (h : c.PortOnly d) : d.inv = c.inv := by
  obtain ⟨q, w, rfl⟩ := h
  rfl

/-- A return at the position gives way to a forced one of the FOREIGN pod (R105). -/
theorem Part.readUnreadable_ret {p : Nat} {t : PortReturn} (hp : p < 8) (ht : (c.port p).ret = some t) :
    (((c.readUnreadable (960 + p) kind).endForeignReturn (960 + p)).port p).ret =
      some ⟨.foreign kind, true, none, false, false⟩ := by
  have hread : c.readUnreadable (960 + p) kind =
      ((c.clear (960 + p) none (.foreign kind)).endReturn p).newReturn p (.foreign kind) true := by
    unfold Part.readUnreadable
    rw [portOf_posOf hp]
    dsimp only
    rw [if_pos (by simp [ht])]
  have hret := Part.newReturn_ret (c := (c.clear (960 + p) none (.foreign kind)).endReturn p) p (.foreign kind) true
  have hocc : (c.readUnreadable (960 + p) kind).occ (960 + p) = .foreign kind := by
    have hclear : c.clear (960 + p) none (.foreign kind) = (c.doubt (960 + p)).setOcc (960 + p) (.foreign kind) :=
      if_neg fun ⟨hsome, hnone⟩ => by simp [hnone] at hsome
    rw [Part.occ, Part.readUnreadable_ports.inv_eq, hclear]
    exact Part.setOcc_occ_self nofun
  have hkeep : (c.readUnreadable (960 + p) kind).endForeignReturn (960 + p) = c.readUnreadable (960 + p) kind := by
    unfold Part.endForeignReturn
    rw [portOf_posOf hp]
    dsimp only
    rw [hocc, hread, hret]
    rfl
  rw [hkeep, hread]
  exact hret

/-! ### A record read where it stands, or in transit -/

theorem Part.readSeen_spec (hc : c.accords) {r : Rec} (hr : c.rec? n = some r) :
    let d := (c.putOcc l ((c.occ l).withVerified true)).setKind n kind
    d.occ l = (c.occ l).withVerified true ∧ d.rec? n = some { r with kind := kind } ∧ d.out = c.out ∧
      d.inv.rescan = c.inv.rescan := by
  have hr' : (c.putOcc l ((c.occ l).withVerified true)).rec? n = some r := hr
  have honly := Part.updRec_only (fun r => { r with kind := kind }) hr'
  refine ⟨(honly.occ_eq l).trans (Store.getD_setD_self hc.1.occ _ _), honly.self, honly.out_eq.trans (List.append_nil _),
    honly.rescan_eq⟩

theorem Part.inTransitAt_iff : c.inTransitAt n l = true ↔
    ∃ m ∈ c.mv.moves, m.granted = true ∧ m.reticle = some n ∧ (m.src = some l ∨ m.dst = some l) := by
  simp [Part.inTransitAt]

/-! ### A record read elsewhere -/

/-- A read leaves its record with no commitment. -/
theorem stateAt_uncommitted (l : Nat) : stateAt l ≠ .reserved ∧ stateAt l ≠ .presented := by
  unfold stateAt
  repeat' split
  all_goals exact ⟨nofun, nofun⟩

theorem stateAt_eq {l : Nat} : stateAt l = if l < 960 then .idle else if l < 968 then .returned else .inDoubt := by
  simp [stateAt, isSlot, isPlace]

/-- An account brought in line with a read (R46). -/
theorem Part.placedAccount_uncommitted {r : Rec} (hr : c.rec? n = some r) (hu : r.uncommitted) :
    ∃ q o, c.RecOnly (c.placedAccount n l) n q o ∧ r.SameButAccount q := by
  unfold Part.placedAccount
  split
  · exact Part.limboAccount_uncommitted hr hu
  · exact Part.fixProtection_uncommitted hr hu

/-- The blocks with a record's commitments ended and the place it was read away from to be scanned (R30). -/
def Part.leftPlace (c : Part) (n : Nat) (r : Rec) : Part :=
  match r.place with
  | .loc p =>
    if c.verified n then ((c.endCommitments n .readMoved).rescan p).raiseFlag p .mismatch
    else (c.endCommitments n .readMoved).rescan p
  | _ => c.endCommitments n .readMoved

theorem Part.readMoved_eq (r : Rec) : c.readMoved n l kind r =
    let d := (((c.leftPlace n r).evict l (some n)).putPod n l .unknown fun r =>
      { r with state := stateAt l, job := none, kind := kind }).placedAccount n l
    if c.verified n then d.addHold n .mismatch else d := rfl

theorem Part.leftPlace_spec (hc : c.accords) (r : Rec) :
    (∃ v q, (c.leftPlace n r).inv = { c.inv with flags := v, rescan := q }) ∧ (c.leftPlace n r).accords ∧
      c.out <+: (c.leftPlace n r).out ∧ ∀ p, r.place = .loc p → (p < 968 → p ∈ (c.leftPlace n r).inv.rescan) ∧
        (p < 960 → c.verified n = true → ((c.leftPlace n r).flagsOf p).mismatch = true) := by
  have hends := Part.endCommitments_moveOnly (c := c) n .readMoved
  have haccords : (c.endCommitments n .readMoved).accords := kept_accords.endCommitments hc
  have hrescan : ∀ (d : Part) p, ∃ q, (d.rescan p).inv = { d.inv with rescan := q } := fun d p => by
    unfold Part.rescan
    split
    · exact ⟨_, rfl⟩
    · exact ⟨_, rfl⟩
  unfold Part.leftPlace
  cases hp : r.place with
  | loc p =>
    dsimp only
    obtain ⟨q, hq⟩ := hrescan (c.endCommitments n .readMoved) p
    have hrescanned : ((c.endCommitments n .readMoved).rescan p).accords := kept_accords.rescan haccords
    have hout : c.out <+: ((c.endCommitments n .readMoved).rescan p).out := by
      rw [Part.rescan_out]
      exact hends.out_prefix
    split
    · obtain ⟨v, o, hv⟩ := Part.raiseFlag_eq (c := (c.endCommitments n .readMoved).rescan p) p .mismatch
      refine ⟨⟨v, q, ?_⟩, kept_accords.raiseFlag hrescanned, ?_, fun a ha => ?_⟩
      · rw [hv]
        dsimp only
        rw [hq, hends.inv_eq]
      · rw [hv]
        exact hout.trans (List.prefix_append _ _)
      · obtain rfl : p = a := by simpa using ha
        refine ⟨fun hl => ?_, fun hl _ => Part.raiseFlag_get hrescanned.1 .mismatch hl⟩
        rw [hv]
        exact Part.rescan_mem hl
    · refine ⟨⟨c.inv.flags, q, ?_⟩, hrescanned, hout, fun a ha => ?_⟩
      · rw [hq, hends.inv_eq]
      · obtain rfl : p = a := by simpa using ha
        exact ⟨Part.rescan_mem, fun _ hv => absurd hv ‹_›⟩
  | _ => exact ⟨⟨_, _, hends.inv_eq⟩, haccords, hends.out_prefix, fun a ha => nomatch ha⟩

/-- A record moved to where it was read (R30): the location names it, verified; its old place is UNKNOWN and to be scanned;
and the record that the location named is LOST. -/
theorem Part.readMoved_spec (hc : c.accords) {r : Rec} (hr : c.rec? n = some r) (hp : r.place ≠ .loc l) :
    let d := c.readMoved n l kind r
    (∀ a, d.occ a = if a = l then .occupied n true else if r.place = .loc a then .unknown else c.occ a) ∧
    (∀ k q, (c.occ l).resident = some k → c.rec? k = some q → ∃ q', d.rec? k = some q' ∧ q'.gone q .lost) ∧
    (∀ p, r.place = .loc p → (p < 968 → p ∈ d.inv.rescan) ∧
      (p < 960 → c.verified n = true → (d.flagsOf p).mismatch = true)) ∧
    ∃ q, d.rec? n = some q ∧ q.id = r.id ∧ q.place = .loc l ∧ q.state = stateAt l ∧ q.job = none ∧ q.kind = kind ∧
      q.mismatch = (r.mismatch || c.verified n) := by
  obtain ⟨⟨v, s, hleft⟩, hleftc, -, hplace⟩ := Part.leftPlace_spec (n := n) hc r
  have hres : (c.occ l).resident ≠ some n := fun h => by
    obtain ⟨r', hr', hp'⟩ := (hc.2 n l).2 h
    exact hp (Option.some.inj (hr.symm.trans hr') ▸ hp')
  have hocc : ∀ a, (c.leftPlace n r).occ a = c.occ a := fun a => by
    unfold Part.occ
    rw [hleft]
  have hrec : ∀ k, (c.leftPlace n r).rec? k = c.rec? k := fun k => by
    unfold Part.rec?
    rw [hleft]
  have hup : (c.leftPlace n r).GivenUp ((c.leftPlace n r).evict l (some n)) l .lost :=
    Part.evict_givenUp hleftc (.inr (by rw [hocc]; exact hres))
  have hevicted : ((c.leftPlace n r).evict l (some n)).sound := kept_sound.evict hleftc.1
  have hr1 : ((c.leftPlace n r).evict l (some n)).rec? n = some r := by
    rw [hup.others n (by rw [hocc]; exact hres), hrec, hr]
  -- the pod stands at the location, and its account and its holds follow
  obtain ⟨o, q, w, hput⟩ := Part.putPod_same (c := (c.leftPlace n r).evict l (some n)) n l .unknown
    fun r => { r with state := stateAt l, job := none, kind := kind }
  have hputocc := Part.putPod_occ (l := l) (left := .unknown)
    (f := fun r => { r with state := stateAt l, job := none, kind := kind }) hevicted hr1
  have hputrec := Part.putPod_rec (l := l) (left := .unknown)
    (f := fun r => { r with state := stateAt l, job := none, kind := kind }) hr1
  obtain ⟨r1, o1, hacc, hsame⟩ := Part.placedAccount_uncommitted (l := l) ((hputrec n).trans (if_pos rfl))
    (stateAt_uncommitted l)
  have hheld : ∃ r2 o2, (((c.leftPlace n r).evict l (some n)).putPod n l .unknown fun r =>
        { r with state := stateAt l, job := none, kind := kind }).RecOnly (c.readMoved n l kind r) n r2 o2 ∧
      r2 = { r1 with mismatch := r1.mismatch || c.verified n } := by
    rw [Part.readMoved_eq]
    dsimp only
    cases hseen : c.verified n with
    | true =>
      obtain ⟨o2, h2, -⟩ := Part.addHold_uncommitted .mismatch hacc.self (hsame.uncommitted (stateAt_uncommitted l))
      exact ⟨_, _, hacc.trans h2, by simp [Rec.setHold]⟩
    | false => exact ⟨_, _, hacc, by simp⟩
  obtain ⟨r2, o2, hd, rfl⟩ := hheld
  obtain ⟨hid, -, hkind, hpl, hstate, -, hmis, hjob⟩ := hsame.keeps
  refine ⟨fun a => ?_, fun k q' hk hq => ?_, fun p hpp => ?_, ?_⟩
  · rw [hd.occ_eq, hputocc, hup.occ, hocc, hocc]
    by_cases ha : a = l <;> simp [ha]
  · obtain ⟨q2, hq2, hgone⟩ := hup.gone k q' (by rw [hocc]; exact hk) ((hrec k).trans hq)
    have hkn : k ≠ n := fun e => hres (e ▸ hk)
    exact ⟨q2, by rw [hd.others k hkn, hputrec, if_neg hkn]; exact hq2, hgone⟩
  · obtain ⟨hscan, hflag⟩ := hplace p hpp
    have hpl : p ≠ l := fun e => hp (e ▸ hpp)
    refine ⟨fun hlt => ?_, fun hlt hv => ?_⟩
    · rw [hd.rescan_eq, hput]
      exact hup.rescan ▸ hscan hlt
    · have hflags : (c.readMoved n l kind r).flagsOf p = (c.leftPlace n r).flagsOf p := by
        rw [← hup.flags p hpl, Part.flagsOf, hd.flags_eq, hput]
        rfl
      rw [hflags]
      exact hflag hlt hv
  · exact ⟨_, hd.self, hid, hpl, hstate, hjob, hkind, by simp [hmis]⟩

/-! ### A record in transit read elsewhere -/

/-- A record in transit read where it should not be (R31). -/
theorem Part.readContradicts_spec (hc : c.accords) {r : Rec} (hr : c.rec? n = some r) (hp : r.place ≠ .loc l)
    (hu : r.uncommitted) :
    let d := c.readContradicts n l kind
    (∀ a, d.occ a = if a = l then .unknown else c.occ a) ∧
    (∀ k q, (c.occ l).resident = some k → c.rec? k = some q → ∃ q', d.rec? k = some q' ∧ q'.gone q .lost) ∧
    (l < 968 → l ∈ d.inv.rescan) ∧ d.rec? n = some { r with kind := kind, mismatch := true } ∧
    (l < 960 → (c.occ l).verified = true → (d.flagsOf l).mismatch = true) := by
  have hres : (c.occ l).resident ≠ some n := fun h => by
    obtain ⟨r', hr', hp'⟩ := (hc.2 n l).2 h
    exact hp (Option.some.inj (hr.symm.trans hr') ▸ hp')
  obtain ⟨hup, -⟩ := Part.displace_replaced (l := l) hc .otherPod .unknown
  have hsound : ((c.displace l .otherPod).setOcc l .unknown).sound := free_sound.setOcc (kept_sound.displace hc.1)
  have hscanned : (((c.displace l .otherPod).setOcc l .unknown).rescan l).sound := kept_sound.rescan hsound
  -- the location, scanned again and flagged
  obtain ⟨e, he, hocc, hrec, hscan, hflag⟩ : ∃ e : Part, c.readContradicts n l kind = (e.setKind n kind).addHold n .mismatch ∧
      (∀ a, e.occ a = ((c.displace l .otherPod).setOcc l .unknown).occ a) ∧
      (∀ k, e.rec? k = ((c.displace l .otherPod).setOcc l .unknown).rec? k) ∧
      (l < 968 → l ∈ e.inv.rescan) ∧ (l < 960 → (c.occ l).verified = true → (e.flagsOf l).mismatch = true) := by
    refine ⟨_, rfl, ?_, ?_, ?_, ?_⟩ <;> split
    · obtain ⟨v, o, hv⟩ := Part.raiseFlag_eq (c := ((c.displace l .otherPod).setOcc l .unknown).rescan l) l .mismatch
      rw [hv]
      exact fun a => congrArg (Store.getD Occ.unknown · a) (Part.rescan_inv_occ _ _)
    · exact fun a => congrArg (Store.getD Occ.unknown · a) (Part.rescan_inv_occ _ _)
    · obtain ⟨v, o, hv⟩ := Part.raiseFlag_eq (c := ((c.displace l .otherPod).setOcc l .unknown).rescan l) l .mismatch
      rw [hv]
      exact fun k => congrArg (Store.find · k) (Part.rescan_inv_recs _ _)
    · exact fun k => congrArg (Store.find · k) (Part.rescan_inv_recs _ _)
    · obtain ⟨v, o, hv⟩ := Part.raiseFlag_eq (c := ((c.displace l .otherPod).setOcc l .unknown).rescan l) l .mismatch
      rw [hv]
      exact Part.rescan_mem
    · exact Part.rescan_mem
    · exact fun hl _ => Part.raiseFlag_get hscanned .mismatch hl
    · exact fun _ hv => absurd hv ‹_›
  have hset := Part.updRec_only (fun r => { r with kind := kind }) ((hrec n).trans ((hup.others n hres).trans hr))
  obtain ⟨o, hhold, -⟩ := Part.addHold_uncommitted .mismatch hset.self hu
  have hd : e.RecOnly (c.readContradicts n l kind) n _ _ := he ▸ hset.trans hhold
  refine ⟨fun a => (hd.occ_eq a).trans ((hocc a).trans (hup.occ a)), fun k q hk hq => ?_, fun hl => ?_, hd.self, fun hl hv => ?_⟩
  · obtain ⟨q', hq', hgone⟩ := hup.gone k q hk hq
    exact ⟨q', (hd.others k fun e => hres (e ▸ hk)).trans ((hrec k).trans hq'), hgone⟩
  · rw [hd.rescan_eq]
    exact hscan hl
  · rw [Part.flagsOf, hd.flags_eq]
    exact hflag hl hv

/-! ### An ID of no record -/

theorem Store.lowestFree_le {α : Type} {m : Store α} (hm : Store.rising m = true) {k i : Nat} (hk : k ≤ i)
    (hi : Store.find m i = none) : Store.lowestFree m k ≤ i := by
  fun_induction Store.lowestFree m k
  · exact hk
  all_goals
    simp only [Store.rising_cons] at hm
    simp only [Store.find] at hi
    grind

/-- The lowest free number is that of any table with the same numbers in use. -/
theorem Store.lowestFree_congr {α : Type} {m m' : Store α} (hm : Store.rising m = true) (hm' : Store.rising m' = true)
    (h : ∀ k, (Store.find m k).isSome = (Store.find m' k).isSome) : Store.lowestFree m 0 = Store.lowestFree m' 0 := by
  have hnone : ∀ k, Store.find m k = none ↔ Store.find m' k = none := fun k => by
    rw [← Option.isNone_iff_eq_none, ← Option.isNone_iff_eq_none, ← Option.not_isSome, ← Option.not_isSome, h]
  exact Nat.le_antisymm
    (Store.lowestFree_le hm (Nat.zero_le _) ((hnone _).2 (Store.find_lowestFree hm' 0).1))
    (Store.lowestFree_le hm' (Nat.zero_le _) ((hnone _).1 (Store.find_lowestFree hm 0).1))

/-- A location given up frees no record number. -/
theorem Part.displace_lowestFree (hc : c.accords) (cause : LostCause) :
    Store.lowestFree (c.displace l cause).inv.recs 0 = Store.lowestFree c.inv.recs 0 :=
  Store.lowestFree_congr (kept_sound.displace hc.1).recs.1 hc.1.recs.1 (Part.freed_displace hc).recs

/-- The stamp of a record that has none is all that its protection gives it (R46). -/
theorem Part.fixProtection_unstamped {r : Rec} (hr : c.rec? n = some r) (ht : r.stamp = none) :
    ∃ t, c.RecOnly (c.fixProtection n) n { r with stamp := t } [] := by
  cases hs : c.sheltered n r with
  | true =>
    refine ⟨none, ?_⟩
    have hkeep : c.fixProtection n = c := by
      unfold Part.fixProtection
      rw [hr]
      dsimp only
      rw [hs, ht]
    have hsame : { r with stamp := none } = r := by rw [← ht]
    rw [hkeep, hsame]
    exact .refl hr
  | false => exact ⟨_, Part.fixProtection_exposed hr hs⟩

/-- The record that a read of a new ID creates (R26). -/
def Part.newRecord (c : Part) (x : RetId) (l kind : Nat) : Rec :=
  ⟨x, 3, kind, .loc l, stateAt l, false, false, false, c.limits.eWarn, 0, none, none⟩

/-- A record created for the pod read (R26). -/
theorem Part.readNew_spec (hc : c.accords) (x : RetId) (hn : Store.lowestFree c.inv.recs 0 < 1024) :
    let d := c.readNew x l kind
    let n := Store.lowestFree c.inv.recs 0
    (∀ a, d.occ a = if a = l then .occupied n true else c.occ a) ∧
    (∀ k q, (c.occ l).resident = some k → c.rec? k = some q → ∃ q', d.rec? k = some q' ∧ q'.gone q .lost) ∧
    ∃ t, d.rec? n = some { c.newRecord x l kind with stamp := t, exposure := decide (c.limits.eHold ≤ c.limits.eWarn) } := by
  intro d n
  have hfree : (c.displace l .otherPod).freeRec = some n := by
    unfold Part.freeRec
    dsimp only
    rw [Part.displace_lowestFree hc, if_pos hn]
  have htables : (c.displace l .otherPod).tables = c.tables := ((cascades_cascade hc.1).displace (.refl c)).tables_eq
  obtain ⟨hup, -⟩ := Part.displace_givenUp hc l .otherPod
  have hnone : c.rec? n = none := (Store.find_lowestFree hc.1.recs.1 0).1
  have hd : d = (((((c.displace l .otherPod).putRec n (c.newRecord x l kind)).setOcc l (.occupied n true)).signal
      (.reticle n)).fixProtection n).threshold n false := by
    have hrec : c.newRecord x l kind = (c.displace l .otherPod).newRecord x l kind := by
      simp only [Part.newRecord, Part.limits, htables]
    rw [hrec]
    unfold d Part.readNew
    dsimp only
    rw [hfree]
    rfl
  -- the record as it is written, and the record as its account stands
  obtain ⟨e, he, heocc, herec, helim⟩ : ∃ e : Part, d = (e.fixProtection n).threshold n false ∧
      (∀ a, e.occ a = ((c.displace l .otherPod).setOcc l (.occupied n true)).occ a) ∧
      (∀ k, e.rec? k = if k = n then some (c.newRecord x l kind) else (c.displace l .otherPod).rec? k) ∧
      e.limits = c.limits := by
    obtain ⟨w, hw⟩ := Part.signal_signalled (c := ((c.displace l .otherPod).putRec n (c.newRecord x l kind)).setOcc l
      (.occupied n true)) (.reticle n)
    obtain ⟨w', hw'⟩ := Part.setOcc_signalled (c := (c.displace l .otherPod).putRec n (c.newRecord x l kind)) l
      (.occupied n true)
    refine ⟨_, hd, fun a => ?_, fun k => ?_, ?_⟩
    · rw [hw]
      refine (Part.occ_of_inv Part.setOcc_inv a).trans (Eq.symm ?_)
      exact (Part.occ_of_inv Part.setOcc_inv a).trans rfl
    · rw [hw]
      exact (Part.setOcc_rec _ _ _).trans (Part.putRec_rec _ _ _)
    · rw [hw, hw']
      exact congrArg Tables.limits htables
  have hself : e.rec? n = some (c.newRecord x l kind) := (herec n).trans (if_pos rfl)
  obtain ⟨t, hfix⟩ := Part.fixProtection_unstamped hself rfl
  have hlim : (e.fixProtection n).limits = c.limits := by
    obtain ⟨⟨w, q, heq⟩, -, -⟩ := hfix
    rw [heq]
    exact helim
  obtain ⟨o, hthr⟩ := Part.threshold_uncommitted hfix.self (stateAt_uncommitted l)
  have honly : e.RecOnly d n _ _ := he ▸ hfix.trans hthr
  have hput := hup.setOcc (kept_sound.displace hc.1) (.occupied n true)
  refine ⟨fun a => (honly.occ_eq a).trans ((heocc a).trans (hput.occ a)), fun k q hk hq => ?_, t, ?_⟩
  · have hkn : k ≠ n := fun e => by simp [← e, hq] at hnone
    obtain ⟨q', hq', hgone⟩ := hup.gone k q hk hq
    exact ⟨q', (honly.others k hkn).trans (((herec k).trans (if_neg hkn)).trans hq'), hgone⟩
  · refine honly.self.trans ?_
    rw [hlim]
    rfl

/-- With no number free the pod is FOREIGN (R26). -/
theorem Part.readNew_full (hc : c.accords) (x : RetId) (hn : 1024 ≤ Store.lowestFree c.inv.recs 0) :
    let d := c.readNew x l kind
    (∀ a, d.occ a = if a = l then .foreign kind else c.occ a) ∧ Subject.tableFull l x ∈ d.out ∧
    ∀ k q, (c.occ l).resident = some k → c.rec? k = some q → ∃ q', d.rec? k = some q' ∧ q'.gone q .lost := by
  have hfree : (c.displace l .otherPod).freeRec = none := by
    unfold Part.freeRec
    dsimp only
    rw [Part.displace_lowestFree hc, if_neg (Nat.not_lt.2 hn)]
  have hd : c.readNew x l kind = ((c.displace l .otherPod).setOcc l (.foreign kind)).say (.tableFull l x) := by
    unfold Part.readNew
    dsimp only
    rw [hfree]
  obtain ⟨hup, -⟩ := Part.displace_replaced (l := l) hc .otherPod (.foreign kind)
  rw [hd]
  exact ⟨hup.occ, List.mem_append_right _ List.mem_cons_self, hup.gone⟩

end Sys2Proof.Machine
end

section
/-! SUPPORT. Which branch a read takes (R28). -/

namespace Sys2Proof.Machine

variable {c : Part} {l kind n : Nat} {own : Option Nat} {x : RetId} {r : Rec}

/-- No record that stands elsewhere is the one a location names. -/
theorem Part.accords.resident_ne (hc : c.accords) (hr : c.rec? n = some r) (hp : r.place ≠ .loc l) :
    (c.occ l).resident ≠ some n := fun h => by
  obtain ⟨r', hr', hp'⟩ := (hc.2 n l).2 h
  exact hp (Option.some.inj (hr.symm.trans hr') ▸ hp')

theorem Part.applyRead_seen (hf : c.findId x = some (n, r)) (hp : r.place = .loc l) :
    c.applyRead l (.id x) kind own = (c.putOcc l ((c.occ l).withVerified true)).setKind n kind := by
  unfold Part.applyRead
  dsimp only
  rw [hf]
  exact if_pos hp

theorem Part.applyRead_moved (hf : c.findId x = some (n, r)) (hp : r.place ≠ .loc l) (hs : r.state ≠ .inTransit) :
    c.applyRead l (.id x) kind own = c.readMoved n l kind r := by
  unfold Part.applyRead
  dsimp only
  rw [hf]
  dsimp only
  rw [if_neg hp, if_pos hs]

theorem Part.applyRead_inTransit (hf : c.findId x = some (n, r)) (hp : r.place ≠ .loc l) (hs : r.state = .inTransit)
    (ht : c.inTransitAt n l = true) : c.applyRead l (.id x) kind own = c.setKind n kind := by
  unfold Part.applyRead
  dsimp only
  rw [hf]
  dsimp only
  rw [if_neg hp, if_neg (by simp [hs]), if_pos (by simp [ht])]

theorem Part.applyRead_contradicts (hf : c.findId x = some (n, r)) (hp : r.place ≠ .loc l) (hs : r.state = .inTransit)
    (ht : c.inTransitAt n l = false) (hfree : c.claimedBy l own = none) :
    c.applyRead l (.id x) kind own = c.readContradicts n l kind := by
  unfold Part.applyRead
  dsimp only
  rw [hf]
  dsimp only
  rw [if_neg hp, if_neg (by simp [hs]), if_neg (by simp [ht, hfree])]

theorem Part.applyRead_new (hf : c.findId x = none) : c.applyRead l (.id x) kind own = c.readNew x l kind := by
  unfold Part.applyRead
  dsimp only
  rw [hf]

/-- A record's kind is replaced where the read leaves it as it stands (R22, R29). -/
theorem Part.readAt_same (hc : c.accords) (hx : idOk x = true) (haside : c.setsAside l (.id x) own = false)
    (hf : c.findId x = some (n, r)) {d : Part} (hd : (c.readBase l).applyRead l (.id x) kind own = d)
    (hsame : (c.occ l).same (d.occ l) = true) (hres : (d.occ l).resident = (c.occ l).resident)
    (hrec : d.rec? n = some { r with kind := kind }) (hout : d.out = []) (hscan : d.inv.rescan = (c.readBase l).inv.rescan) :
    (c.readAt l (.id x) kind own).rec? n = some { r with kind := kind } ∧
      (c.readAt l (.id x) kind own).occ l = d.occ l ∧ (c.readAt l (.id x) kind own).out = c.out ∧
      (c.readAt l (.id x) kind own).inv.rescan = c.inv.rescan.filter (· ≠ l) := by
  have haside' : c.setsAside l (Read.id x).norm own = false := by rwa [Read.norm_id hx]
  obtain ⟨hr, -⟩ := Part.rec_of_findId hc.1 hf
  obtain ⟨hinv, hout'⟩ := Part.readAt_applied (kind := kind) haside'
  rw [Read.norm_id hx, hd] at hinv hout'
  have hnote : c.readNote d l (.id x) = none := Part.readNote_unchanged hsame hf hr fun hn => by
    obtain ⟨r', hr', hp'⟩ := (hc.2 n l).2 (hres ▸ hn)
    exact Option.some.inj (hr.symm.trans hr') ▸ hp'
  refine ⟨?_, ?_, ?_, ?_⟩
  · rw [Part.rec?, hinv]
    exact hrec
  · rw [Part.occ, hinv]
    rfl
  · rw [hout', hnote, hout]
    simp [orderNotices]
  · rw [hinv, hscan]
    rfl

end Sys2Proof.Machine
end

section
open Sys2Proof Sys2Proof.Machine

/-- Settles O48: the read is applied to the blocks with the location out of the rescan queue (`readAt_applied`), and each
branch is said by its own lemma. -/
theorem readerResult : Obligations.ReaderResult := by
  intro c l kind hs hagree hl claimed free old state gone tells
  have hc : c.accords := ⟨hs, hagree⟩
  have hb := Part.readBase_accords hc l
  have hfree : c.claimedBy l none = none ↔ free := Part.claimedBy_none hs
  have hstate : stateAt l = state := stateAt_eq
  have haside : ∀ x n r, free ∨ c.claimedBy l none = some (some n) → c.findId x = some (n, r) →
      c.setsAside l (.id x) none = false := fun x n r h hf => Part.setsAside_own hf (h.imp_left hfree.2)
  refine ⟨fun read k hk h => Part.readAt_aside hk h, hfree, fun x n r hx hcl hf hp hst hm => ?_, fun hfr => ?_,
    fun read hfr hread => ?_, fun x n r hx hf hp hcl => ?_, fun x n r hx hcl hf hp hst => ?_,
    fun x n r hx hfr hf hp hst hm => ?_, fun x hx hfr hf => ?_⟩
  · -- the record is in transit from or to the location
    intro d
    obtain ⟨hr, -⟩ := Part.rec_of_findId hs hf
    have honly := Part.updRec_only (c := c.readBase l) (fun r => { r with kind := kind }) hr
    obtain ⟨hrec, hocc, hout, hscan⟩ := Part.readAt_same hc hx (haside x n r hcl hf) hf
      (Part.applyRead_inTransit (c := c.readBase l) hf hp hst (Part.inTransitAt_iff.2 hm))
      (by rw [Part.setKind, honly.occ_eq]; exact Occ.same_self _) (by rw [Part.setKind, honly.occ_eq]; rfl)
      honly.self honly.out_eq honly.rescan_eq
    exact ⟨hrec, hocc.trans (honly.occ_eq l), hout, hscan⟩
  · -- no pod stands there
    intro d
    have haside' : c.setsAside l Read.empty.norm none = false := Part.setsAside_free _ (hfree.2 hfr)
    obtain ⟨hinv, -⟩ := Part.readAt_applied (kind := kind) haside'
    obtain ⟨hup, hflag⟩ := Part.readEmpty_spec (c := c.readBase l) (l := l) hb false
    have hocc : ∀ a, d.occ a = ((c.readBase l).readEmpty l false).occ a := Part.occ_of_inv hinv
    have hrec : ∀ a, d.rec? a = ((c.readBase l).readEmpty l false).rec? a := Part.rec_of_inv hinv
    refine ⟨(hocc l).trans ((hup.occ l).trans (if_pos rfl)), fun k q hk hq => ?_, fun hv => ?_, fun hlt hv => ?_⟩
    · rw [hrec]
      exact hup.gone k q hk hq
    · have heocc := (hup.occ l).trans (if_pos rfl)
      exact Part.readAt_tells haside' (Part.readNote_emptied
        ((congrArg (Occ.same (c.occ l)) heocc).trans (Occ.same_vacant hv)) (congrArg Occ.resident heocc))
    · have hflags : d.flagsOf l = ((c.readBase l).readEmpty l false).flagsOf l :=
        Part.flags_of_inv hinv l
      rw [hflags]
      exact hflag hv hlt
  · -- the pod cannot be read
    intro d
    have hnorm : read.norm = .unreadable := Read.norm_unreadable hread
    have haside' : c.setsAside l read.norm none = false := Part.setsAside_free _ (hfree.2 hfr)
    have hinv := (Part.readAt_applied (kind := kind) haside').1
    have hports := Part.readAt_ports (kind := kind) haside'
    have htells := fun s => Part.readAt_tells (kind := kind) (s := s) haside'
    rw [hnorm] at hinv htells
    simp only [hnorm] at hports
    have hread : ((c.readBase l).applyRead l .unreadable kind none).inv =
        ((c.readBase l).clear l none (.foreign kind)).inv := Part.readUnreadable_ports.inv_eq
    obtain ⟨hup, -⟩ := Part.clear_replaced (c := c.readBase l) (l := l) (own := none) hb (.foreign kind)
      (by cases ((c.readBase l).occ l).resident <;> simp)
    have hocc : d.occ l = .foreign kind := (Part.occ_of_inv (hinv.trans hread) l).trans
      ((hup.occ l).trans (if_pos rfl))
    refine ⟨hocc, fun k q hk hq => ?_, fun hv => ?_, fun p t hlp hp ht => ?_⟩
    · have hrec : d.rec? k = ((c.readBase l).clear l none (.foreign kind)).rec? k :=
        Part.rec_of_inv (hinv.trans hread) k
      rw [hrec]
      exact hup.gone k q hk hq
    · have heocc : ((c.readBase l).applyRead l .unreadable kind none).occ l = .foreign kind :=
        (Part.occ_of_inv hread l).trans ((hup.occ l).trans (if_pos rfl))
      exact htells _ (Part.readNote_emptied ((congrArg (Occ.same (c.occ l)) heocc).trans (Occ.same_foreign hv))
        (congrArg Occ.resident heocc))
    · subst hlp
      rw [hports p]
      exact Part.readUnreadable_ret (c := c.readBase (960 + p)) hp ht
  · -- the record is read where it stands
    intro d
    obtain ⟨hr, -⟩ := Part.rec_of_findId hs hf
    obtain ⟨hocc, hrec, hout, hscan⟩ := Part.readSeen_spec (c := c.readBase l) (l := l) (kind := kind) hb hr
    obtain ⟨hrec', hocc', hout', hscan'⟩ := Part.readAt_same hc hx (haside x n r hcl hf) hf
      (Part.applyRead_seen (c := c.readBase l) (kind := kind) (own := none) hf hp)
      (by rw [hocc]; exact Occ.same_withVerified _ _) (by rw [hocc]; exact Occ.withVerified_resident _ _) hrec hout hscan
    exact ⟨hocc'.trans hocc, hrec', hout', hscan'⟩
  · -- the record is read away from its place
    intro d
    obtain ⟨hr, hid⟩ := Part.rec_of_findId hs hf
    have hres := hc.resident_ne hr hp
    have haside' : c.setsAside l (Read.id x).norm none = false := by
      rw [Read.norm_id hx]
      exact haside x n r hcl hf
    have hinv := (Part.readAt_applied (kind := kind) haside').1
    have htells := fun s => Part.readAt_tells (kind := kind) (s := s) haside'
    rw [Read.norm_id hx, Part.applyRead_moved (c := c.readBase l) hf hp hst] at hinv htells
    obtain ⟨hocc, hgone, hplace, q, hq, hqid, hqplace, hqstate, hqjob, hqkind, hqmis⟩ :=
      Part.readMoved_spec (c := c.readBase l) (kind := kind) hb hr hp
    have hdocc : ∀ a, d.occ a = ((c.readBase l).readMoved n l kind r).occ a := Part.occ_of_inv hinv
    have hdrec : ∀ k, d.rec? k = ((c.readBase l).readMoved n l kind r).rec? k := Part.rec_of_inv hinv
    refine ⟨(hdocc l).trans ((hocc l).trans (if_pos rfl)), fun k q hk hq => ?_, ?_, fun p hpp => ⟨?_, ?_, ?_⟩, q, ?_⟩
    · rw [hdrec]
      exact hgone k q hk hq
    · exact htells _ (Part.readNote_moved (by rw [(hocc l).trans (if_pos rfl)]; rfl) hf hr hp hres)
    · have hpl : p ≠ l := fun e => hp (e ▸ hpp)
      rw [hdocc, hocc, if_neg hpl, if_pos hpp]
    · intro hlt
      have hscan : d.inv.rescan = ((c.readBase l).readMoved n l kind r).inv.rescan := congrArg Inventory.rescan hinv
      rw [hscan]
      exact (hplace p hpp).1 hlt
    · intro hlt hv
      have hflags : d.flagsOf p = ((c.readBase l).readMoved n l kind r).flagsOf p :=
        Part.flags_of_inv hinv p
      rw [hflags]
      exact (hplace p hpp).2 hlt hv
    · exact ⟨(hdrec n).trans hq, hqid.trans hid, hqplace, hqstate.trans hstate, hqjob, hqkind, hqmis⟩
  · -- the record is in transit elsewhere
    intro d
    obtain ⟨hr, -⟩ := Part.rec_of_findId hs hf
    have haside' : c.setsAside l (Read.id x).norm none = false := Part.setsAside_free _ (hfree.2 hfr)
    have hnot : c.inTransitAt n l = false := Bool.eq_false_iff.2 fun h => by
      obtain ⟨m, hm', hg, hn, hsd⟩ := Part.inTransitAt_iff.1 h
      obtain ⟨h1, h2⟩ := hm m hm' hg hn
      exact hsd.elim h1 h2
    have hinv := (Part.readAt_applied (kind := kind) haside').1
    have htells := fun s => Part.readAt_tells (kind := kind) (s := s) haside'
    rw [Read.norm_id hx, Part.applyRead_contradicts (c := c.readBase l) hf hp hst hnot (hfree.2 hfr)] at hinv htells
    obtain ⟨hoccs, hgone, hscan, hrec, hflag⟩ := Part.readContradicts_spec (c := c.readBase l) (l := l) (kind := kind) hb hr
      hp ⟨by simp [hst], by simp [hst]⟩
    have hocc := (hoccs l).trans (if_pos rfl)
    have hdrec : ∀ k, d.rec? k = ((c.readBase l).readContradicts n l kind).rec? k := Part.rec_of_inv hinv
    refine ⟨(Part.occ_of_inv hinv l).trans hocc, fun k q hk hq => ?_, fun hv => ?_,
      fun hlt => ?_, (hdrec n).trans hrec, fun hlt hv => ?_⟩
    · rw [hdrec]
      exact hgone k q hk hq
    · exact htells _ (Part.readNote_emptied ((congrArg (Occ.same (c.occ l)) hocc).trans (Occ.same_unknown hv))
        (congrArg Occ.resident hocc))
    · have hd : d.inv.rescan = ((c.readBase l).readContradicts n l kind).inv.rescan := congrArg Inventory.rescan hinv
      rw [hd]
      exact hscan hlt
    · have hd : d.flagsOf l = ((c.readBase l).readContradicts n l kind).flagsOf l :=
        Part.flags_of_inv hinv l
      rw [hd]
      exact hflag hlt hv
  · -- the ID is of no record
    intro d n
    have haside' : c.setsAside l (Read.id x).norm none = false := Part.setsAside_free _ (hfree.2 hfr)
    obtain ⟨hinv, hout⟩ := Part.readAt_applied (kind := kind) haside'
    have htells := fun s => Part.readAt_tells (kind := kind) (s := s) haside'
    rw [Read.norm_id hx, Part.applyRead_new (c := c.readBase l) hf] at hinv hout htells
    have hdocc : d.occ l = ((c.readBase l).readNew x l kind).occ l := Part.occ_of_inv hinv l
    have hdrec : ∀ k, d.rec? k = ((c.readBase l).readNew x l kind).rec? k := Part.rec_of_inv hinv
    have hnew := Part.readNew_spec (c := c.readBase l) (l := l) (kind := kind) hb x
    have hfull := Part.readNew_full (c := c.readBase l) (l := l) (kind := kind) hb x
    have hnone : c.rec? n = none := (Store.find_lowestFree hs.recs.1 0).1
    refine ⟨fun k q hk hq => ?_, fun hn => ?_, fun hn => ?_⟩
    · rw [hdrec]
      rcases Nat.lt_or_ge n 1024 with hn | hn
      · exact (hnew hn).2.1 k q hk hq
      · exact (hfull hn).2.2 k q hk hq
    · obtain ⟨hoccs, -, t, hrec⟩ := hnew hn
      have hocc := (hoccs l).trans (if_pos rfl)
      refine ⟨hdocc.trans hocc, ?_, _, (hdrec n).trans hrec, rfl, rfl, rfl, rfl, hstate, rfl, rfl, rfl, rfl, rfl, ?_⟩
      · exact htells _ (Part.readNote_created (by rw [hocc]; rfl) hf (hc.unnamed hnone l))
      · exact decide_eq_true_iff
    · obtain ⟨hoccs, hfullout, -⟩ := hfull hn
      refine ⟨hdocc.trans ((hoccs l).trans (if_pos rfl)), ?_⟩
      rw [hout]
      exact List.mem_append_right _ (mem_orderNotices hfullout)

end

section
/-! SUPPORT. The pieces of a robot's report: a move written or ended, a robot that stands, a pod that goes from one location to
another, and a read that leaves the other locations alone (R122 to R129). -/

namespace Sys2Proof.Machine

variable {c d : Part} {x : Side} {num l n : Nat} {m : Move} {r : Rec}

/-! ### Moves and robots -/

/-- The current move of a robot is in the list, under its number (R122). -/
theorem Part.current_some (h : c.current? x num = some m) : c.move? num = some m ∧ m.num = num := by
  unfold Part.current? at h
  split at h
  · rename_i k hk
    split at h
    · rename_i hnum
      obtain rfl := Option.some.inj h
      obtain ⟨i, -, hi⟩ := Option.bind_eq_some_iff.1 hk
      have hki : k.num = i := by simpa using List.find?_some hi
      exact ⟨hnum ▸ hki ▸ hi, hnum⟩
    · exact nomatch h
  · exact nomatch h

/-- A move written reads back, with the admission sequence it had. -/
theorem Part.putMove_move {m' : Move} (h : c.move? num = some m) (hnum : m'.num = num) :
    (c.putMove m').move? num = some { m' with seq := m.seq } := by
  have hlook : ∀ k : Move, decide ((if k.num = m'.num then { m' with seq := k.seq } else k).num = num) =
      decide (k.num = num) := fun k => by
    split
    · simp [*]
    · rfl
  have hmnum : m.num = num := by simpa using List.find?_some h
  unfold Part.putMove Part.move?
  dsimp only
  rw [List.find?_map]
  have hfun : ((fun k : Move => decide (k.num = num)) ∘ fun k => if k.num = m'.num then { m' with seq := k.seq } else k) =
      fun k => decide (k.num = num) := funext hlook
  rw [hfun]
  unfold Part.move? at h
  rw [h, Option.map_some, if_pos (hmnum.trans hnum.symm)]

theorem Part.putMove_robot (c : Part) (m : Move) (x : Side) : (c.putMove m).robot x = c.robot x := by cases x <;> rfl

theorem Part.JobOnly.mv_eq (h : c.JobOnly d) : d.mv = c.mv := by
  obtain ⟨_, _, _, _, _, rfl⟩ := h
  rfl

theorem Part.JobOnly.inv_eq (h : c.JobOnly d) : d.inv = c.inv := by
  obtain ⟨_, _, _, _, _, rfl⟩ := h
  rfl

theorem Part.JobOnly.out_prefix (h : c.JobOnly d) : c.out <+: d.out := by
  obtain ⟨_, _, _, _, o, rfl⟩ := h
  exact List.prefix_append _ _

theorem Part.robot_of_mv (h : d.mv = c.mv) (x : Side) : d.robot x = c.robot x := by
  cases x
  · exact congrArg MoveScheduler.robotA h
  · exact congrArg MoveScheduler.robotB h

theorem Part.move_of_mv (h : d.mv = c.mv) (num : Nat) : d.move? num = c.move? num := by
  unfold Part.move?
  rw [h]

/-- The end of a move that is no timeout and no interruption: the move is gone, and neither the Inventory nor a robot
changes. -/
theorem Part.endMove_spec {res : MoveResult} (h : res ≠ .timedOut) (h' : res ≠ .interrupted) (m : Move) :
    (c.endMove m res).inv = c.inv ∧ (∀ y, (c.endMove m res).robot y = c.robot y) ∧
      (c.endMove m res).move? m.num = none ∧ c.out <+: (c.endMove m res).out := by
  have hend := Part.endMove_jobOnly (c := c) (m := m) h h'
  refine ⟨hend.inv_eq, fun y => (Part.robot_of_mv hend.mv_eq y).trans (by cases y <;> rfl), ?_, hend.out_prefix⟩
  rw [Part.move_of_mv hend.mv_eq, Part.move?, List.find?_filter]
  simp

/-- Where a robot stands after a report that ended its move (R124, R126, R128, R129). -/
def Robot.standing (r : Robot) (s : Nat) : Robot :=
  { r with state := .idle, span := some s, held := some (s, s), current := none }

theorem Part.standAt_same (x : Side) (s : Nat) : (c.standAt x s).inv = c.inv ∧ (c.standAt x s).mv.moves = c.mv.moves ∧
    (c.standAt x s).out = c.out ∧ (c.standAt x s).jobs = c.jobs ∧ (c.standAt x s).bus = c.bus ∧
    (c.standAt x s).robot x = (c.robot x).standing s := by
  obtain ⟨hinv, hbus, -, hjobs, hout, -, hmoves⟩ := Part.setRobot_same (c := c) x ((c.robot x).standing s)
  exact ⟨hinv, hmoves, hout, hjobs, hbus, (Part.setRobot_robot ..).trans (if_pos rfl)⟩

/-- A robot stands, its move ended. -/
theorem Part.stands_spec {res : MoveResult} (h : res ≠ .timedOut) (h' : res ≠ .interrupted) (m : Move) (x : Side) (s : Nat) :
    ((c.standAt x s).endMove m res).inv = c.inv ∧
      ((c.standAt x s).endMove m res).robot x = (c.robot x).standing s ∧
      ((c.standAt x s).endMove m res).move? m.num = none ∧ c.out <+: ((c.standAt x s).endMove m res).out := by
  obtain ⟨hinv, hrob, hmove, hout⟩ := Part.endMove_spec (c := c.standAt x s) h h' m
  obtain ⟨hinv', -, hout', -, -, hrob'⟩ := Part.standAt_same (c := c) x s
  exact ⟨hinv.trans hinv', (hrob x).trans hrob', hmove, hout' ▸ hout⟩

/-- The requester of a RELOCATE is told of its end (R110). -/
theorem Part.endMove_relocate (res : MoveResult) (h : m.owner = .relocate) :
    Subject.relocateDone m.num m.reticle m.src m.dst res ∈ (c.endMove m res).out := by
  unfold Part.endMove
  rw [h]
  exact List.mem_append_right _ List.mem_cons_self

/-- A step is told of the end of its move (R97). -/
theorem Part.endMove_step {j k : Nat} {b : Job} {st : Step} {res : MoveResult} (hres : res ≠ .completed)
    (h : m.owner = .step j k) (hb : c.job? j = some b) (hst : b.steps[k]? = some st) (hopen : st.state ≠ .ended) :
    ∃ y, Subject.stepResult j (k + 1) res.forStep y ∈ (c.endMove m res).out := by
  obtain ⟨w, hw⟩ := Part.removeMove_eq (c := c) m
  obtain ⟨a, ha⟩ := Part.stepMoveEnd_out (c := c.removeMove m) (m := m) (j := j) (k := k) hres (b := b)
    (by rw [hw]; exact hb) hst hopen
  refine ⟨m.reticle <|> (c.removeMove m).stepReticle st.work, ?_⟩
  unfold Part.endMove
  rw [h]
  dsimp only
  rw [ha]
  exact List.mem_append_right _ List.mem_cons_self

theorem Part.leavePort_portOnly (l : Nat) : c.PortOnly (c.leavePort l) := (portSide_portOnly c).leavePort (.refl c)

theorem Part.PortOnly.mv_eq (h : c.PortOnly d) : d.mv = c.mv := by
  obtain ⟨q, w, rfl⟩ := h
  rfl

/-! ### A pod that goes from one location to another -/

theorem handOf_ge (x : Side) : 968 ≤ handOf x := by cases x <;> decide

/-- The location a pod leaves is cleared, but for the pod itself, and the one it comes to is given up to it. -/
def Part.makeWay (c : Part) (src dst : Nat) (own : Option Nat) : Part := (c.clear src own .vacant).evict dst own

theorem Part.makeWay_spec (hc : c.accords) (src dst : Nat) (own : Option Nat) :
    (c.makeWay src dst own).accords ∧ c.Cascade (c.makeWay src dst own) :=
  ⟨kept_accords.evict (kept_accords.clear rfl hc), (cascades_cascade hc.1).evict ((cascades_cascade hc.1).clear (.refl c))⟩

/-- A location that is not the pod's own is VACANT once the pod has left it. -/
theorem Part.makeWay_vacant (hc : c.accords) {src dst : Nat} {own : Option Nat} (hne : src ≠ dst)
    (h : (c.occ src).resident = none ∨ (c.occ src).resident ≠ own) : (c.makeWay src dst own).occ src = .vacant := by
  have hclear := (Part.clear_replaced hc .vacant h).1
  have hmid : (c.clear src own .vacant).accords := kept_accords.clear rfl hc
  unfold Part.makeWay
  by_cases hd : ((c.clear src own .vacant).occ dst).resident = none ∨ ((c.clear src own .vacant).occ dst).resident ≠ own
  · rw [(Part.evict_givenUp hmid hd).occ, if_neg fun e => hne e.1]
    exact (hclear.occ src).trans (if_pos rfl)
  · have hkeep : (c.clear src own .vacant).evict dst own = c.clear src own .vacant := by
      unfold Part.evict
      rw [not_ne_iff.1 (not_or.1 hd).2, if_neg]
      cases own <;> simp
    rw [hkeep]
    exact (hclear.occ src).trans (if_pos rfl)

/-- The record of the pod itself stays as it was while way is made for it. -/
theorem Part.makeWay_rec (hc : c.accords) (src dst n : Nat) : (c.makeWay src dst (some n)).rec? n = c.rec? n := by
  have hclear : (c.clear src (some n) .vacant).rec? n = c.rec? n := by
    by_cases h : (c.occ src).resident = some n
    · have hkeep : c.clear src (some n) .vacant = c := if_pos ⟨by simp [h], h⟩
      rw [hkeep]
    · exact (Part.clear_replaced hc .vacant (.inr h)).1.others n h
  have hmid : (c.clear src (some n) .vacant).accords := kept_accords.clear rfl hc
  unfold Part.makeWay
  by_cases h : ((c.clear src (some n) .vacant).occ dst).resident = some n
  · have hkeep : (c.clear src (some n) .vacant).evict dst (some n) = c.clear src (some n) .vacant := if_neg (by simp [h])
    rw [hkeep, hclear]
  · exact ((Part.evict_givenUp hmid (.inr h)).others n h).trans hclear

/-- A record's pod goes from one location to another, which changes the record as `f` says (R123, R126). -/
def Part.carry (c : Part) (src dst n : Nat) (f : Rec → Rec) : Part :=
  (c.makeWay src dst (some n)).putPod n dst .vacant f

/-- A pod carried leaves the one location VACANT and the other OCCUPIED, verified (R123, R126). -/
theorem Part.carry_spec (hc : c.accords) {src dst : Nat} (hne : src ≠ dst) (hr : c.rec? n = some r) (f : Rec → Rec) :
    (c.carry src dst n f).occ src = .vacant ∧ (c.carry src dst n f).occ dst = .occupied n true ∧
      (c.carry src dst n f).rec? n = some { f r with place := .loc dst } := by
  have hsound := (Part.makeWay_spec hc src dst (some n)).1.1
  have hr' := (Part.makeWay_rec hc src dst n).trans hr
  have hocc := Part.putPod_occ (l := dst) (left := .vacant) (f := f) hsound hr'
  refine ⟨(hocc src).trans ?_, (hocc dst).trans (if_pos rfl), (Part.putPod_rec hr' n).trans (if_pos rfl)⟩
  rw [if_neg hne]
  by_cases hp : r.place = .loc src
  · rw [if_pos hp]
  · rw [if_neg hp]
    exact Part.makeWay_vacant hc hne (.inr (hc.resident_ne hr hp))

/-- What is carried is no move and no robot. -/
theorem Part.carry_same (hc : c.accords) (src dst n : Nat) (f : Rec → Rec) :
    (c.carry src dst n f).mv = (c.makeWay src dst (some n)).mv ∧ (c.carry src dst n f).now = c.now := by
  obtain ⟨o, q, w, h⟩ := Part.putPod_same (c := c.makeWay src dst (some n)) n dst .vacant f
  have hput : c.carry src dst n f = _ := h
  rw [hput]
  exact ⟨rfl, (Part.makeWay_spec hc src dst (some n)).2.now_eq⟩

/-- A pod with no record gone from one location to another (R123, R126). -/
theorem Part.carried_foreign (hc : c.accords) {src dst : Nat} (hne : src ≠ dst) (k : Nat) :
    ((c.makeWay src dst none).setOcc dst (.foreign k)).occ src = .vacant ∧
      ((c.makeWay src dst none).setOcc dst (.foreign k)).occ dst = .foreign k := by
  have hvacant := Part.makeWay_vacant (own := none) hc hne (by cases (c.occ src).resident <;> simp)
  exact ⟨(Part.setOcc_occ_ne hne.symm).trans hvacant, Part.setOcc_occ_self nofun⟩

/-! ### The destination a move has not reached -/

theorem Part.freeDest_same (m : Move) : ∃ o w, c.freeDest m = { c with inv := { c.inv with occ := o }, work := w } := by
  unfold Part.freeDest
  split
  · split
    · obtain ⟨w, hw⟩ := Part.setOcc_signalled (c := c) ‹Nat› .vacant
      exact ⟨_, w, hw⟩
    · exact ⟨_, _, rfl⟩
  · exact ⟨_, _, rfl⟩

theorem Part.freeDest_occ (hs : c.sound) (m : Move) (a : Nat) : (c.freeDest m).occ a =
    if m.dst = some a ∧ c.occ a = .inbound (m.reticle.getD 1024) then .vacant else c.occ a := by
  unfold Part.freeDest
  cases hd : m.dst with
  | none => simp
  | some b =>
    dsimp only
    by_cases hb : c.occ b = .inbound (m.reticle.getD 1024)
    · rw [if_pos hb, Part.setOcc_occ hs]
      by_cases hab : a = b
      · simp [hab, hb]
      · simp [hab, Ne.symm hab]
    · rw [if_neg hb]
      by_cases hab : b = a
      · subst hab
        simp [hb]
      · simp [hab]

/-! ### A read leaves every location but its own that names no record -/

theorem Part.readAt_occ_other (hc : c.accords) {a kind : Nat} (read : Read) (own : Option Nat) (ha : a ≠ l)
    (hno : (c.occ a).resident = none) : (c.readAt l read kind own).occ a = c.occ a := by
  have hb := Part.readBase_accords hc l
  cases haside : c.setsAside l read.norm own with
  | true =>
    rw [Part.readAt_eq, if_pos haside]
    exact congrArg (Store.getD Occ.unknown · a) (Part.rescan_inv_occ _ _)
  | false =>
    rw [Part.occ_of_inv (Part.readAt_applied haside).1]
    unfold Part.applyRead
    split
    · exact ((Part.readEmpty_spec hb _).1.occ a).trans (if_neg ha)
    · rw [Part.occ_of_inv Part.readUnreadable_ports.inv_eq]
      exact ((Part.clear_replaced hb _ (by cases ((c.readBase l).occ l).resident <;> simp)).1.occ a).trans (if_neg ha)
    · rename_i x _
      cases hf : (c.readBase l).findId x with
      | none =>
        dsimp only
        rcases Nat.lt_or_ge (Store.lowestFree (c.readBase l).inv.recs 0) 1024 with hn | hn
        · exact ((Part.readNew_spec hb x hn).1 a).trans (if_neg ha)
        · exact ((Part.readNew_full hb x hn).1 a).trans (if_neg ha)
      | some e =>
        obtain ⟨n, r⟩ := e
        obtain ⟨hr, -⟩ := Part.rec_of_findId hb.1 hf
        dsimp only
        split
        · exact (Part.updRec_occ ..).trans (Store.getD_setD_of_ne _ _ _ ha)
        · rename_i hp
          split
          · rw [(Part.readMoved_spec hb hr hp).1, if_neg ha]
            refine if_neg fun hpa => ?_
            have hra : ((c.readBase l).occ a).resident = some n := (hb.2 n a).1 ⟨r, hr, hpa⟩
            exact nomatch hno.symm.trans hra
          · rename_i hst
            split
            · exact Part.updRec_occ ..
            · have hst' : r.state = .inTransit := Decidable.not_not.1 hst
              exact ((Part.readContradicts_spec hb hr hp ⟨by simp [hst'], by simp [hst']⟩).1 a).trans (if_neg ha)

end Sys2Proof.Machine
end

section
/-! SUPPORT. The reports of a robot, one lemma for each outcome (R122 to R129). -/

namespace Sys2Proof.Machine

variable {c d e : Part} {x : Side} {kind l n s : Nat} {m : Move} {r : Rec}

/-! ### Clean picks (R123) -/

/-- A record taken up by the robot of a move (R123). -/
def Move.taken (m : Move) (kind : Nat) (r : Rec) : Rec :=
  { r with kind := kind, state := .inTransit, job := m.stepRef <|> r.job }

/-- The blocks with a pod on the hand, before its move and the port's return are told. -/
def Part.onHand (c : Part) (x : Side) (m : Move) (s kind : Nat) : Part :=
  match m.reticle with
  | some n => (c.carry s (handOf x) n (m.taken kind)).fixProtection n
  | none => (c.makeWay s (handOf x) none).setOcc (handOf x) (.foreign kind)

theorem Part.cleanPick_eq (c : Part) (x : Side) (m : Move) (s kind : Nat) :
    c.cleanPick x m s kind = ((c.onHand x m s kind).putMove { m with state := .picked }).leavePort s := by
  unfold Part.cleanPick Part.onHand Part.makeWay
  cases m.reticle <;> rfl

/-- A pick's last writes: the move PICKED, and the port's return ended. -/
theorem Part.cleanPick_tail (c : Part) (x : Side) (m : Move) (s kind : Nat) :
    (c.cleanPick x m s kind).inv = (c.onHand x m s kind).inv ∧
      (∀ y, (c.cleanPick x m s kind).robot y = (c.onHand x m s kind).robot y) ∧
      ((c.onHand x m s kind).move? m.num = some m →
        (c.cleanPick x m s kind).move? m.num = some { m with state := .picked }) := by
  have hport := Part.leavePort_portOnly (c := (c.onHand x m s kind).putMove { m with state := .picked }) s
  rw [Part.cleanPick_eq]
  exact ⟨hport.inv_eq, fun y => (Part.robot_of_mv hport.mv_eq y).trans (Part.putMove_robot _ _ y),
    fun h => (Part.move_of_mv hport.mv_eq _).trans (Part.putMove_move (m' := { m with state := .picked }) h rfl)⟩

/-- A hand shelters no record (R45). -/
theorem Part.sheltered_hand {p : Nat} (h : 960 ≤ p) (hp : r.place = .loc p) : c.sheltered n r = false := by
  unfold Part.sheltered
  rw [hp]
  have hslot : isSlot p = false := decide_eq_false (Nat.not_lt.2 h)
  simp [hslot]

theorem Part.cleanPick_record (hc : c.accords) (hm : c.move? m.num = some m) (hg : m.granted = true) (hs : s < 968)
    (hn : m.reticle = some n) (hr : c.rec? n = some r) :
    let d := c.cleanPick x m s kind
    d.occ s = .vacant ∧ d.occ (handOf x) = .occupied n true ∧ d.robot x = c.robot x ∧
      d.move? m.num = some { m with state := .picked } ∧
      d.rec? n = some { m.taken kind r with place := .loc (handOf x), stamp := some (r.stamp.getD c.now) } := by
  have hhand := handOf_ge x
  have hne : s ≠ handOf x := by omega
  obtain ⟨-, hway⟩ := Part.makeWay_spec hc s (handOf x) (some n)
  obtain ⟨hsrc, hdst, hrec⟩ := Part.carry_spec hc hne hr (m.taken kind)
  obtain ⟨hcmv, hnow⟩ := Part.carry_same hc s (handOf x) n (m.taken kind)
  have hfix := Part.fixProtection_exposed hrec (Part.sheltered_hand (p := handOf x) (by omega) rfl)
  have hon : c.onHand x m s kind = (c.carry s (handOf x) n (m.taken kind)).fixProtection n := by
    unfold Part.onHand
    rw [hn]
  obtain ⟨hinv, hrob, hmove⟩ := Part.cleanPick_tail c x m s kind
  have hmv : (c.onHand x m s kind).mv = (c.makeWay s (handOf x) (some n)).mv := by
    rw [hon]
    exact hfix.mv_eq.trans hcmv
  refine ⟨?_, ?_, ?_, ?_, ?_⟩
  · rw [Part.occ_of_inv hinv, hon]
    exact (hfix.occ_eq s).trans hsrc
  · rw [Part.occ_of_inv hinv, hon]
    exact (hfix.occ_eq _).trans hdst
  · rw [hrob, Part.robot_of_mv hmv, hway.robot_eq]
  · exact hmove ((Part.move_of_mv hmv _).trans (hway.move_eq hc.1 hm hg))
  · rw [Part.rec_of_inv hinv, hon]
    refine hfix.self.trans ?_
    rw [hnow]
    rfl

/-- An unreadable pod of a move with no record is a clean pick too (R123). -/
theorem Part.cleanPick_foreign (hc : c.accords) (hm : c.move? m.num = some m) (hg : m.granted = true) (hs : s < 968)
    (hn : m.reticle = none) :
    let d := c.cleanPick x m s kind
    d.occ s = .vacant ∧ d.occ (handOf x) = .foreign kind ∧ d.move? m.num = some { m with state := .picked } ∧
      d.robot x = c.robot x := by
  have hhand := handOf_ge x
  have hne : s ≠ handOf x := by omega
  obtain ⟨-, hway⟩ := Part.makeWay_spec hc s (handOf x) none
  obtain ⟨hsrc, hdst⟩ := Part.carried_foreign hc hne kind
  have hon : c.onHand x m s kind = (c.makeWay s (handOf x) none).setOcc (handOf x) (.foreign kind) := by
    unfold Part.onHand
    rw [hn]
  obtain ⟨hinv, hrob, hmove⟩ := Part.cleanPick_tail c x m s kind
  have hmv : (c.onHand x m s kind).mv = (c.makeWay s (handOf x) none).mv := by
    rw [hon]
    exact (Part.setOcc_framed ..).2.2.1
  refine ⟨?_, ?_, ?_, ?_⟩
  · rw [Part.occ_of_inv hinv, hon, hsrc]
  · rw [Part.occ_of_inv hinv, hon, hdst]
  · exact hmove ((Part.move_of_mv hmv _).trans (hway.move_eq hc.1 hm hg))
  · rw [hrob, Part.robot_of_mv hmv, hway.robot_eq]

/-! ### Places (R126) -/

/-- The blocks with a pod at its destination, before its move ends. -/
def Part.atPlace (c : Part) (x : Side) (m : Move) (l : Nat) : Part :=
  match m.reticle with
  | some n => (c.carry (handOf x) l n fun r => r.placedAt m.kind l).fixProtection n
  | none => (c.makeWay (handOf x) l none).setOcc l (.foreign (c.handKind x m))

/-- The Job Engine's part of a place, where the move is a delivery (R96, R106). -/
def Part.presents (c : Part) (m : Move) (l : Nat) : Part :=
  match m.kind, m.owner, m.reticle, portOf l with
  | .deliver, .step j k, some n, some p | .cross, .step j k, some n, some p =>
    match c.rec? n with
    | some r => c.presentAtPort m n r p j k
    | none => c
  | _, _, _, _ => c

theorem Part.placeOk_eq (c : Part) (x : Side) (m : Move) (l : Nat) : c.placeOk x m l =
    ((((c.atPlace x m l).standAt x (c.tables.spanAt l)).endMove m .completed).presents m l).watchSeen m (c.moveId m)
      (c.afterHits m) := by
  unfold Part.placeOk Part.atPlace Part.presents Part.makeWay
  cases m.reticle <;> rfl

theorem Part.presentAtPort_jobOnly (m : Move) (n p j k : Nat) (r : Rec) : c.JobOnly (c.presentAtPort m n r p j k) := by
  have S := stepSide_jobOnly c
  have P := portSide_jobOnly c
  unfold Part.presentAtPort
  dsimp only
  split
  · exact S.portOrder (S.setStep (.refl c))
  · exact S.endStep (P.restoreReady (P.newReturn (.refl c)))

theorem Part.presents_jobOnly (m : Move) (l : Nat) : c.JobOnly (c.presents m l) := by
  unfold Part.presents
  repeat' split
  all_goals first | exact Part.presentAtPort_jobOnly _ _ _ _ _ _ | exact .refl c

theorem Part.watchSeen_same (m : Move) (id : Option RetId) (hits : List Nat) :
    (c.watchSeen m id hits).inv = c.inv ∧ (c.watchSeen m id hits).mv = c.mv := by
  unfold Part.watchSeen
  split <;> exact ⟨rfl, rfl⟩

/-- A place's last writes: the robot stands and the move is gone. -/
theorem Part.placeOk_tail (c : Part) (x : Side) (m : Move) (l : Nat) :
    (c.placeOk x m l).inv = (c.atPlace x m l).inv ∧
      (c.placeOk x m l).robot x = ((c.atPlace x m l).robot x).standing (c.tables.spanAt l) ∧
      (c.placeOk x m l).move? m.num = none := by
  obtain ⟨hinv, hrob, hmove, -⟩ := Part.stands_spec (c := c.atPlace x m l) (res := .completed) nofun nofun m x
    (c.tables.spanAt l)
  have hjob := Part.presents_jobOnly (c := ((c.atPlace x m l).standAt x (c.tables.spanAt l)).endMove m .completed) m l
  obtain ⟨winv, wmv⟩ := Part.watchSeen_same
    (c := (((c.atPlace x m l).standAt x (c.tables.spanAt l)).endMove m .completed).presents m l) m (c.moveId m) (c.afterHits m)
  rw [Part.placeOk_eq]
  exact ⟨winv.trans (hjob.inv_eq.trans hinv), (Part.robot_of_mv (wmv.trans hjob.mv_eq) x).trans hrob,
    (Part.move_of_mv (wmv.trans hjob.mv_eq) _).trans hmove⟩

/-- The state of a record placed (R126, R40). -/
theorem Rec.placedAt_state (r : Rec) (k : MoveKind) (l : Nat) (hk : k = .deliver ∨ k = .cross → 960 ≤ l) :
    (r.placedAt k l).state = if l < 960 then .idle
      else if (k = .deliver ∨ k = .cross) ∧ r.held = false then .presented else .returned := by
  cases k
  case deliver =>
    have := hk (.inl rfl)
    cases h : r.held <;> simp [Rec.placedAt, h, Nat.not_lt.2 this]
  case cross =>
    have := hk (.inr rfl)
    cases h : r.held <;> simp [Rec.placedAt, h, Nat.not_lt.2 this]
  all_goals simp [Rec.placedAt, isSlot]

theorem Part.placeOk_record (hc : c.accords) (hl : l < 968) (hn : m.reticle = some n) (hr : c.rec? n = some r)
    (hk : m.kind = .deliver ∨ m.kind = .cross → 960 ≤ l) :
    let d := c.placeOk x m l
    d.occ (handOf x) = .vacant ∧ d.occ l = .occupied n true ∧ d.move? m.num = none ∧
      d.robot x = (c.robot x).standing (c.tables.spanAt l) ∧
      ∃ q, d.rec? n = some q ∧ q.id = r.id ∧ q.place = .loc l ∧ q.state = (r.placedAt m.kind l).state := by
  have hhand := handOf_ge x
  have hne : handOf x ≠ l := by omega
  obtain ⟨-, hway⟩ := Part.makeWay_spec hc (handOf x) l (some n)
  obtain ⟨hsrc, hdst, hrec⟩ := Part.carry_spec hc hne hr fun r => r.placedAt m.kind l
  obtain ⟨hcmv, -⟩ := Part.carry_same hc (handOf x) l n fun r => r.placedAt m.kind l
  have hat : c.atPlace x m l = (c.carry (handOf x) l n fun r => r.placedAt m.kind l).fixProtection n := by
    unfold Part.atPlace
    rw [hn]
  -- at a port the account runs on, and in a slot the record is IDLE, which no hold changes
  have hfix : ∃ q o, (c.carry (handOf x) l n fun r => r.placedAt m.kind l).RecOnly
      ((c.carry (handOf x) l n fun r => r.placedAt m.kind l).fixProtection n) n q o ∧
      ({ r.placedAt m.kind l with place := .loc l } : Rec).SameButAccount q := by
    rcases Nat.lt_or_ge l 960 with hslot | hport
    · have hidle : (r.placedAt m.kind l).state = .idle := by rw [r.placedAt_state _ l hk, if_pos hslot]
      exact Part.fixProtection_uncommitted hrec ⟨by simp [hidle], by simp [hidle]⟩
    · exact ⟨_, _, Part.fixProtection_exposed hrec (Part.sheltered_hand hport rfl), rfl⟩
  obtain ⟨q, o, hfix, hsame⟩ := hfix
  obtain ⟨hinv, hrob, hmove⟩ := Part.placeOk_tail c x m l
  have hmv : (c.atPlace x m l).mv = (c.makeWay (handOf x) l (some n)).mv := by
    rw [hat]
    exact hfix.mv_eq.trans hcmv
  obtain ⟨hid, -, -, hplace, hstate, -⟩ := hsame.keeps
  refine ⟨?_, ?_, hmove, ?_, q, ?_, hid.trans (r.placedAt_id _ l), hplace, hstate⟩
  · rw [Part.occ_of_inv hinv, hat]
    exact (hfix.occ_eq _).trans hsrc
  · rw [Part.occ_of_inv hinv, hat]
    exact (hfix.occ_eq _).trans hdst
  · rw [hrob, Part.robot_of_mv hmv, hway.robot_eq]
  · rw [Part.rec_of_inv hinv, hat]
    exact hfix.self

/-! ### Scans (R129) -/

theorem Part.scanned_stands (hs : c.sound) (read : Read) (k : Nat) :
    let d := ((c.readAt l read k none).standAt x (c.tables.spanAt l)).endMove m .completed
    d.move? m.num = none ∧ d.robot x = (c.robot x).standing (c.tables.spanAt l) := by
  obtain ⟨-, hrob, hmove, -⟩ := Part.stands_spec (c := c.readAt l read k none) (res := .completed) nofun nofun m x
    (c.tables.spanAt l)
  exact ⟨hmove, hrob.trans (by rw [((cascades_cascade hs).readAt (.refl c)).robot_eq])⟩

end Sys2Proof.Machine
end

section
/-! SUPPORT. The picks that find nothing or another pod (R124, R125). -/

namespace Sys2Proof.Machine

variable {c d e : Part} {x : Side} {kind l n s num : Nat} {m : Move} {r : Rec} {v : Bool}

/-! ### The claims on a move's own source -/

theorem Part.handClaim_place (hs : s < 968) (own : Option Nat) (x : Side) : c.handClaim s own x = none := by
  have hhand := handOf_ge x
  unfold Part.handClaim
  split
  · exact if_neg fun h => by omega
  · rfl

/-- The source of a move's record is claimed by no other move where none has that record (R28). -/
theorem Part.claimedBy_source (hs : s < 968) (ho : c.occ s = .outbound n v)
    (huniq : ∀ k ∈ c.mv.moves, k.reticle = some n → k.num = num) : c.claimedBy s (some num) = none := by
  have hentry : c.entryClaim (some num) n = none := by
    unfold Part.entryClaim
    rw [if_neg]
    rw [Bool.not_eq_true, List.any_eq_false]
    intro k hk h
    simp only [Bool.and_eq_true, decide_eq_true_eq] at h
    exact h.1.2 (congrArg some (huniq k hk h.2))
  rw [Part.claimedBy_eq, ho]
  dsimp only
  rw [hentry, Part.handClaim_place hs, Part.handClaim_place hs]
  rfl

theorem Part.claimedBy_foreign {i : Nat} (hs : s < 968) (ho : c.occ s = .foreign i) (own : Option Nat) :
    c.claimedBy s own = none := by
  rw [Part.claimedBy_eq, ho]
  dsimp only
  rw [Part.handClaim_place hs, Part.handClaim_place hs]
  rfl

/-! ### A record displaced that is committed to nothing but its move -/

theorem Part.setOcc_jobs (l : Nat) (o : Occ) : (c.setOcc l o).jobs = c.jobs := by
  obtain ⟨w, hw⟩ := Part.setOcc_signalled (c := c) l o
  rw [hw]
  rfl

/-- A record in no offer, whose moves have all been granted, has nothing to end but its return. -/
theorem Part.endCommitments_quiet (cause : CancelCause) (hr : c.rec? n = some r) (h1 : r.state ≠ .presented)
    (h2 : r.state ≠ .withdrawing) (hmoves : ∀ m ∈ c.mv.moves, m.reticle = some n → m.granted = true) :
    c.PortOnly (c.endCommitments n cause) := by
  have hstart : ∃ b, c.endCommitments n cause =
      (b.endPendingOf n cause).endOffer n (MoveResult.cancelled cause).forStep ∧ c.PortOnly b := by
    unfold Part.endCommitments
    rw [hr]
    dsimp only
    refine ⟨_, rfl, ?_⟩
    split
    · exact (portSide_portOnly c).endReturnOf (.refl c)
    · exact .refl c
  obtain ⟨b, heq, hb⟩ := hstart
  have hnone : b.mv.moves.filter (fun m => m.reticle = some n ∧ ¬m.granted) = [] := by
    rw [hb.mv_eq, List.filter_eq_nil_iff]
    intro m hm h
    simp only [decide_eq_true_eq] at h
    exact h.2 (hmoves m hm h.1)
  have hpending : b.endPendingOf n cause = b := by
    unfold Part.endPendingOf
    rw [hnone]
    rfl
  have hoffer : b.endOffer n (MoveResult.cancelled cause).forStep = b := by
    unfold Part.endOffer
    rw [Part.rec_of_inv hb.inv_eq, hr]
    exact if_neg fun h => h.elim h1 h2
  rw [heq, hpending, hoffer]
  exact hb

/-- Such a record's displacement tells RETICLE_LOST first, and leaves every job as it was. -/
theorem Part.displace_quiet (cause : LostCause) (hl : (c.occ l).resident = some n) (hr : c.rec? n = some r)
    (h1 : r.state ≠ .presented) (h2 : r.state ≠ .withdrawing)
    (hmoves : ∀ m ∈ c.mv.moves, m.reticle = some n → m.granted = true) :
    (c.displace l cause).jobs.jobs = c.jobs.jobs ∧
      c.out ++ [Subject.reticleLost n r.id r.place cause] <+: (c.displace l cause).out := by
  have hquiet := Part.endCommitments_quiet .readDisplaced hr h1 h2 hmoves
  obtain ⟨q, o, hlost, -⟩ := Part.makeLost_only (c := c.endCommitments n .readDisplaced) cause
    ((Part.rec_of_inv hquiet.inv_eq n).trans hr)
  have hvac : ((c.endCommitments n .readDisplaced).vacate n .unknown).jobs = (c.endCommitments n .readDisplaced).jobs := by
    unfold Part.vacate
    repeat' split
    all_goals first | exact Part.setOcc_jobs _ _ | rfl
  have hjobs : ((c.endCommitments n .readDisplaced).makeLost n cause).jobs.jobs = c.jobs.jobs := by
    obtain ⟨⟨w, p, heq⟩, -, -⟩ := hlost
    rw [heq]
    dsimp only
    rw [hvac]
    obtain ⟨p', w', heq'⟩ := hquiet
    rw [heq']
  have hout : c.out ++ [Subject.reticleLost n r.id r.place cause] <+:
      ((c.endCommitments n .readDisplaced).makeLost n cause).out := by
    rw [hlost.out_eq, (Part.vacate_framed ..).2.2.2]
    obtain ⟨p', w', heq'⟩ := hquiet
    rw [heq']
    exact ⟨o, by simp⟩
  unfold Part.displace
  rw [hl]
  dsimp only
  split
  · obtain ⟨f, o', heq⟩ := Part.raiseFlag_eq (c := (c.endCommitments n .readDisplaced).makeLost n cause) l
      (if cause = .otherPod then .mismatch else .conflict)
    rw [heq]
    exact ⟨hjobs, hout.trans (List.prefix_append _ _)⟩
  · exact ⟨hjobs, hout⟩

/-- RETICLE_LOST stands right behind RECONCILED (R28). -/
theorem orderNotices_lost (n : Nat) (y : RetId) (p : Place) (cause : LostCause) (o : List Subject) (s : Subject) :
    ∃ a, orderNotices (Subject.reticleLost n y p cause :: o) (some s) = s :: Subject.reticleLost n y p cause :: a :=
  ⟨_, by rw [orderNotices]; rfl⟩

/-- A read of nothing at the source of a record in transit: RECONCILED and RETICLE_LOST stand first (R28, R34). -/
theorem Part.readAt_empty_quiet (hc : c.accords) (k num : Nat) (hclaim : c.claimedBy l (some num) = none)
    (ho : c.occ l = .outbound n v) (hr : c.rec? n = some r) (h1 : r.state ≠ .presented) (h2 : r.state ≠ .withdrawing)
    (hmoves : ∀ m ∈ c.mv.moves, m.reticle = some n → m.granted = true) :
    (c.readAt l .empty k (some num)).jobs.jobs = c.jobs.jobs ∧
      ∃ o, (c.readAt l .empty k (some num)).out = c.out ++ Subject.reconciled l .empty none none (some n) ::
        Subject.reticleLost n r.id r.place .pickEmpty :: o := by
  have haside : c.setsAside l Read.empty.norm (some num) = false := Part.setsAside_free _ hclaim
  have hb := Part.readBase_accords hc l
  have hres : (c.occ l).resident = some n := by rw [ho]; rfl
  obtain ⟨hjobs, hout⟩ := Part.displace_quiet (c := c.readBase l) .pickEmpty hres hr h1 h2 hmoves
  have hread : (c.readBase l).applyRead l .empty k (some num) = ((c.readBase l).displace l .pickEmpty).setOcc l .vacant := rfl
  have hnote : c.readNote ((c.readBase l).applyRead l .empty k (some num)) l .empty =
      some (.reconciled l .empty none none (some n)) := by
    have hocc : ((c.readBase l).applyRead l .empty k (some num)).occ l = .vacant := Part.setOcc_occ_self nofun
    rw [← hres]
    exact Part.readNote_emptied (by rw [hocc, ho]; rfl) (by rw [hocc]; rfl)
  constructor
  · obtain ⟨q, w, heq⟩ := (portSide_portOnly ((c.readBase l).applyRead l .empty k (some num))).endForeignReturn (l := l)
      (.refl _)
    rw [Part.readAt_eq, if_neg (by simp [haside])]
    have htaken : c.readTaken l Read.empty.norm k (some num) =
      ((c.readBase l).applyRead l .empty k (some num)).endForeignReturn l := rfl
    rw [htaken, heq]
    dsimp only
    rw [hread, Part.setOcc_jobs]
    exact hjobs
  · obtain ⟨o, ho'⟩ := hout
    have heout : ((c.readBase l).applyRead l .empty k (some num)).out =
        Subject.reticleLost n r.id r.place .pickEmpty :: o := by
      rw [hread, (Part.setOcc_framed ..).2.2.2, ← ho']
      rfl
    have hnorm : Read.empty.norm = .empty := rfl
    obtain ⟨a, ha⟩ := orderNotices_lost n r.id r.place .pickEmpty o (.reconciled l .empty none none (some n))
    refine ⟨a, ?_⟩
    rw [(Part.readAt_applied haside).2, hnorm, heout, hnote, ha]

/-! ### A pick that found nothing (R124) -/

/-- What every empty pick leaves: the Inventory of its read with the destination free, and the robot standing at the source. -/
theorem Part.emptyPick_spec (hs : c.sound) (x : Side) (m : Move) (s : Nat) :
    (c.emptyPick x m s).inv = ((c.readAt s .empty 0 (some m.num)).freeDest m).inv ∧
      (c.emptyPick x m s).robot x = (c.robot x).standing (c.tables.spanAt s) ∧ (c.emptyPick x m s).move? m.num = none ∧
      (c.readAt s .empty 0 (some m.num)).out <+: (c.emptyPick x m s).out := by
  obtain ⟨hinv, hrob, hmove, hout⟩ := Part.stands_spec (c := (c.readAt s .empty 0 (some m.num)).freeDest m)
    (res := .pickEmpty) nofun nofun m x (c.tables.spanAt s)
  obtain ⟨o, w, hfree⟩ := Part.freeDest_same (c := c.readAt s .empty 0 (some m.num)) m
  have hread : c.Cascade (c.readAt s .empty 0 (some m.num)) := (cascades_cascade hs).readAt (.refl c)
  refine ⟨hinv, hrob.trans ?_, hmove, ?_⟩
  · rw [Part.robot_of_mv (c := c.readAt s .empty 0 (some m.num)) (by rw [hfree]), hread.robot_eq]
  · have hsame : ((c.readAt s .empty 0 (some m.num)).freeDest m).out = (c.readAt s .empty 0 (some m.num)).out := by
      rw [hfree]
    exact hsame ▸ hout

/-- The destination of an empty pick is VACANT again (R124). -/
theorem Part.emptyPick_dst (hc : c.accords) (hn : m.reticle = some n) (hd : m.dst = some l) (hl : c.occ l = .inbound n)
    (hne : l ≠ s) : (c.emptyPick x m s).occ l = .vacant := by
  have hsound : (c.readAt s .empty 0 (some m.num)).sound := kept_sound.readAt hc.1
  have hkeep : (c.readAt s .empty 0 (some m.num)).occ l = .inbound n :=
    (Part.readAt_occ_other hc .empty _ hne (by rw [hl]; rfl)).trans hl
  rw [Part.occ_of_inv (Part.emptyPick_spec hc.1 x m s).1, Part.freeDest_occ hsound, if_pos ⟨hd, by rw [hkeep, hn]; rfl⟩]

/-- An empty pick whose source no other move claims: the source is given up as by a read of nothing there (R124). -/
theorem Part.emptyPick_given (hc : c.accords) (hclaim : c.claimedBy s (some m.num) = none) (hs : s < 968)
    (hdst : ∀ l, m.dst = some l → l < 968) :
    let d := c.emptyPick x m s
    d.occ s = .vacant ∧ d.occ (handOf x) = c.occ (handOf x) ∧
      (∀ k q, (c.occ s).resident = some k → c.rec? k = some q → ∃ q', d.rec? k = some q' ∧ q'.gone q .lost) ∧
      ((c.occ s).verified = true → s < 960 → (d.flagsOf s).conflict = true) := by
  have hhand := handOf_ge x
  have hb := Part.readBase_accords hc s
  have hsound : (c.readAt s .empty 0 (some m.num)).sound := kept_sound.readAt hc.1
  have hinv : (c.readAt s .empty 0 (some m.num)).inv = ((c.readBase s).readEmpty s true).inv :=
    (Part.readAt_applied (Part.setsAside_free _ hclaim)).1
  obtain ⟨hup, hflag⟩ := Part.readEmpty_spec (l := s) hb true
  obtain ⟨o, w, hfree⟩ := Part.freeDest_same (c := c.readAt s .empty 0 (some m.num)) m
  have hd := (Part.emptyPick_spec hc.1 x m s).1
  refine ⟨?_, ?_, fun k q hk hq => ?_, fun hv hlt => ?_⟩
  · rw [Part.occ_of_inv hd, Part.freeDest_occ hsound, Part.occ_of_inv hinv, hup.occ, if_pos rfl]
    simp
  · rw [Part.occ_of_inv hd, Part.freeDest_occ hsound, if_neg fun h => ?_, Part.occ_of_inv hinv, hup.occ,
      if_neg (by omega)]
    · rfl
    · have := hdst _ h.1
      omega
  · have hrec : (c.emptyPick x m s).rec? k = ((c.readBase s).readEmpty s true).rec? k := by
      rw [Part.rec_of_inv hd, hfree]
      exact Part.rec_of_inv hinv k
    rw [hrec]
    exact hup.gone k q hk hq
  · have hflags : (c.emptyPick x m s).flagsOf s = ((c.readBase s).readEmpty s true).flagsOf s := by
      rw [Part.flags_of_inv hd, hfree]
      exact Part.flags_of_inv hinv s
    rw [hflags]
    exact hflag hv hlt

/-- What an empty pick tells, where no other move has the record (R28, R124). -/
theorem Part.emptyPick_tells (hc : c.accords) (hs : s < 968) (ho : c.occ s = .outbound n v)
    (hr : c.rec? n = some r) (hst : r.state = .inTransit) (hg : m.granted = true) (hm : c.move? m.num = some m)
    (huniq : ∀ k ∈ c.mv.moves, k.reticle = some n → k.num = m.num) :
    (∃ a, (c.emptyPick x m s).out = c.out ++ Subject.reconciled s .empty none none (some n) ::
      Subject.reticleLost n r.id r.place .pickEmpty :: a) ∧
    (m.owner = .relocate →
      Subject.relocateDone m.num m.reticle m.src m.dst .pickEmpty ∈ (c.emptyPick x m s).out) ∧
    (∀ j k b st, m.owner = .step j k → c.job? j = some b → b.steps[k]? = some st → st.state ≠ .ended →
      ∃ y, Subject.stepResult j (k + 1) .pickFailed y ∈ (c.emptyPick x m s).out) := by
  obtain ⟨hmem, -⟩ := (Part.move_eq_some hc.1.moves.2.1).1 hm
  have hgranted : ∀ k ∈ c.mv.moves, k.reticle = some n → k.granted = true := fun k hk hkn => by
    rwa [List.inj_on_of_nodup_map hc.1.moves.2.1 hk hmem (huniq k hk hkn)]
  obtain ⟨hjobs, o, hout⟩ := Part.readAt_empty_quiet hc 0 m.num (Part.claimedBy_source hs ho huniq) ho hr (by simp [hst])
    (by simp [hst]) hgranted
  obtain ⟨f, w, hfree⟩ := Part.freeDest_same (c := c.readAt s .empty 0 (some m.num)) m
  have hstand := (Part.standAt_same (c := (c.readAt s .empty 0 (some m.num)).freeDest m) x (c.tables.spanAt s)).2.2.2.1
  refine ⟨?_, fun how => Part.endMove_relocate .pickEmpty how, fun j k b st how hb hst hopen => ?_⟩
  · obtain ⟨a, ha⟩ := (Part.emptyPick_spec hc.1 x m s).2.2.2
    exact ⟨o ++ a, by rw [← ha, hout]; simp⟩
  · refine Part.endMove_step (res := .pickEmpty) nofun how (b := b) ?_ hst hopen
    unfold Part.job?
    rw [hstand, hfree]
    dsimp only
    rw [hjobs]
    exact hb

/-! ### A pick of another pod (R125) -/

/-- The blocks with another pod than the move's on the hand, before its record's hold. -/
def Part.wrongPod (c : Part) (x : Side) (m : Move) (read : Read) (kind : Nat) : Part :=
  (((c.evict (handOf x) none).setOcc (handOf x) (.foreign kind)).freeDest m).putBack x m (some (read, kind))

theorem Part.mismatchedPick_eq (c : Part) (x : Side) (m : Move) (s : Nat) (read : Read) (kind : Nat) :
    c.mismatchedPick x m s read kind = match m.reticle with
      | some n => ((c.wrongPod x m read kind).raiseFlag s .mismatch).addHold n .mismatch
      | none => c.wrongPod x m read kind := rfl

/-- A move sent back with its pod (R125, R127). -/
def Move.sentBack (m : Move) (read : Option (Read × Nat)) : Move :=
  { m with dst := none, putBack := true, state := .puttingBack, pickRead := read }

theorem Part.putBack_eq (c : Part) (x : Side) (m : Move) (read : Option (Read × Nat)) :
    c.putBack x m read = match m.src with
      | some s => (c.putMove (m.sentBack read)).robotOrder x (.putBack m.num (c.tables.coord s))
      | none => c.putMove (m.sentBack read) := rfl

theorem Part.putBack_spec (c : Part) (x : Side) (m : Move) (read : Option (Read × Nat)) :
    (c.putBack x m read).inv = c.inv ∧ (∀ y, (c.putBack x m read).robot y = c.robot y) ∧
      (c.putBack x m read).out = c.out ∧ (c.putBack x m read).tables = c.tables ∧
      (c.move? m.num = some m → (c.putBack x m read).move? m.num = some (m.sentBack read)) ∧
      (∀ a q, m.src = some s → c.robotAddr x = some a → (c.planOf a).kind ≠ .none → c.node? a = some q →
        (c.putBack x m read).node? a = some { q with queue := q.queue ++ [⟨.putBack m.num (c.tables.coord s), none⟩] }) := by
  have hput : ∀ y, (c.putMove (m.sentBack read)).robot y = c.robot y := Part.putMove_robot _ _
  have hmove : c.move? m.num = some m → (c.putMove (m.sentBack read)).move? m.num = some (m.sentBack read) := fun h =>
    Part.putMove_move (m' := m.sentBack read) h rfl
  rw [Part.putBack_eq]
  cases hsrc : m.src with
  | none => exact ⟨rfl, hput, rfl, rfl, hmove, fun a q h => nomatch h⟩
  | some s' =>
    obtain ⟨hinv, hmv, htables, -, hout⟩ := Part.queueOrder_same (c := c.putMove (m.sentBack read))
      (c.robotAddr x) ⟨.putBack m.num (c.tables.coord s'), none⟩
    refine ⟨hinv, fun y => (Part.robot_of_mv hmv y).trans (hput y), hout, htables,
      fun h => (Part.move_of_mv hmv _).trans (hmove h), fun a q h ha hk hq => ?_⟩
    obtain rfl := Option.some.inj h
    have horder := Part.queueOrder_node (c := c.putMove (m.sentBack read)) ⟨.putBack m.num (c.tables.coord s'), none⟩ hk hq
    rw [← ha] at horder
    exact horder

theorem Part.wrongPod_spec (hc : c.accords) (x : Side) (m : Move) (read : Read) (kind : Nat) :
    (c.wrongPod x m read kind).accords ∧
      (∀ a, a ≠ handOf x → (c.wrongPod x m read kind).occ a =
        if m.dst = some a ∧ c.occ a = .inbound (m.reticle.getD 1024) then .vacant else c.occ a) ∧
      (∀ k, (c.occ (handOf x)).resident ≠ some k → (c.wrongPod x m read kind).rec? k = c.rec? k) := by
  have hup : c.GivenUp (c.evict (handOf x) none) (handOf x) .lost :=
    Part.evict_givenUp hc (by cases (c.occ (handOf x)).resident <;> simp)
  have hevicted : (c.evict (handOf x) none).accords := kept_accords.evict hc
  have hres : ((c.evict (handOf x) none).occ (handOf x)).resident = none := by
    rw [hup.occ]
    split
    · rfl
    · rename_i h
      simpa using h
  have hset := hup.setOcc hevicted.1 (.foreign kind)
  have hforeign : ((c.evict (handOf x) none).setOcc (handOf x) (.foreign kind)).accords :=
    accords0.setOcc (by rw [hres]; rfl) hevicted
  obtain ⟨o, w, hfree⟩ := Part.freeDest_same (c := (c.evict (handOf x) none).setOcc (handOf x) (.foreign kind)) m
  have hinv := (Part.putBack_spec (s := 0) (((c.evict (handOf x) none).setOcc (handOf x) (.foreign kind)).freeDest m) x m
    (some (read, kind))).1
  refine ⟨kept_accords.putBack (kept_accords.freeDest hforeign), fun a ha => ?_, fun k hk => ?_⟩
  · rw [wrongPod, Part.occ_of_inv hinv, Part.freeDest_occ hforeign.1, hset.occ, if_neg ha]
  · rw [wrongPod, Part.rec_of_inv hinv, hfree]
    exact hset.others k hk

/-- With nothing on the hand, the other pod is put there, and the robot is sent back with it. -/
theorem Part.wrongPod_hand (hc : c.accords) (x : Side) (m : Move) (read : Read) (kind : Nat)
    (hhand : (c.occ (handOf x)).resident = none) (hdst : ∀ l, m.dst = some l → l < 968) (hm : c.move? m.num = some m) :
    let d := c.wrongPod x m read kind
    d.occ (handOf x) = .foreign kind ∧ d.move? m.num = some (m.sentBack (some (read, kind))) ∧
      d.robot x = c.robot x ∧ d.inv.recs = c.inv.recs ∧ d.inv.flags = c.inv.flags ∧
      ∀ a q, m.src = some s → c.robotAddr x = some a → (c.planOf a).kind ≠ .none → c.node? a = some q →
        d.node? a = some { q with queue := q.queue ++ [⟨.putBack m.num (c.tables.coord s), none⟩] } := by
  have hge := handOf_ge x
  have hevict : c.evict (handOf x) none = c := if_neg (by simp [hhand])
  obtain ⟨w, hset⟩ := Part.setOcc_signalled (c := c) (handOf x) (.foreign kind)
  obtain ⟨o, w', hfree⟩ := Part.freeDest_same (c := c.setOcc (handOf x) (.foreign kind)) m
  obtain ⟨hinv, hrob, -, -, hmove, horder⟩ := Part.putBack_spec (s := s) ((c.setOcc (handOf x) (.foreign kind)).freeDest m) x m
    (some (read, kind))
  have hd : c.wrongPod x m read kind = ((c.setOcc (handOf x) (.foreign kind)).freeDest m).putBack x m
      (some (read, kind)) := by rw [Part.wrongPod, hevict]
  -- neither the write of the hand nor that of the destination reaches beyond the locations
  have hmv : ((c.setOcc (handOf x) (.foreign kind)).freeDest m).mv = c.mv := by rw [hfree, hset]; rfl
  rw [hd]
  refine ⟨?_, hmove ((Part.move_of_mv hmv _).trans hm), (hrob x).trans (Part.robot_of_mv hmv x), ?_, ?_,
    fun a q hsrc ha hk hq => ?_⟩
  · rw [Part.occ_of_inv hinv, Part.freeDest_occ (free_sound.setOcc hc.1), if_neg fun h => by have := hdst _ h.1; omega]
    exact Part.setOcc_occ_self nofun
  · rw [hinv, hfree, Part.setOcc_inv]
    rfl
  · rw [hinv, hfree, Part.setOcc_inv]
    rfl
  · rw [hfree, hset] at horder ⊢
    exact horder a q hsrc ha hk hq

/-- The record of the move is held for the mismatch, and its slot flagged (R125). -/
theorem Part.mismatchedPick_only (hc : c.accords) (hn : m.reticle = some n) (hr : c.rec? n = some r)
    (hst : r.state = .inTransit) (hs : s < 968) (hp : r.place = .loc s) (read : Read) (kind : Nat) :
    ∃ o, ((c.wrongPod x m read kind).raiseFlag s .mismatch).RecOnly (c.mismatchedPick x m s read kind) n
      { r with mismatch := true } o := by
  have hge := handOf_ge x
  have hres : (c.occ (handOf x)).resident ≠ some n := hc.resident_ne hr fun h => by
    have := Place.loc.inj (hp.symm.trans h)
    omega
  have hrec : ((c.wrongPod x m read kind).raiseFlag s .mismatch).rec? n = some r := by
    obtain ⟨f, o, heq⟩ := Part.raiseFlag_eq (c := c.wrongPod x m read kind) s .mismatch
    rw [heq]
    exact ((Part.wrongPod_spec hc x m read kind).2.2 n hres).trans hr
  obtain ⟨o, ho, -⟩ := Part.addHold_uncommitted .mismatch hrec ⟨by simp [hst], by simp [hst]⟩
  refine ⟨o, ?_⟩
  rw [Part.mismatchedPick_eq, hn]
  exact ho

end Sys2Proof.Machine
end

section
/-! SUPPORT. A destination or a source found taken, and the put-backs (R127, R128). -/

namespace Sys2Proof.Machine

variable {c : Part} {x : Side} {kind l n s : Nat} {m : Move} {r : Rec}

/-! ### A location found taken -/

/-- The blocks with a location found taken by a robot that was to leave its pod there. -/
def Part.foundTaken (c : Part) (l : Nat) : Part := (c.raiseFlag l .conflict).clear l none .unknown

theorem Part.foundTaken_spec (hc : c.accords) (l : Nat) :
    (c.foundTaken l).accords ∧ c.Cascade (c.foundTaken l) ∧
      (∀ a, (c.foundTaken l).occ a = if a = l then .unknown else c.occ a) ∧
      (l < 960 → ((c.foundTaken l).flagsOf l).conflict = true) ∧
      (∀ k r, (c.occ l).resident = some k → c.rec? k = some r → ∃ q, (c.foundTaken l).rec? k = some q ∧ q.gone r .inDoubt) ∧
      ∀ k, (c.occ l).resident ≠ some k → (c.foundTaken l).rec? k = c.rec? k := by
  have hflagged : (c.raiseFlag l .conflict).accords := kept_accords.raiseFlag hc
  have K := cascades_cascade hc.1
  obtain ⟨hup, hflags⟩ := Part.clear_replaced (l := l) (own := none) hflagged .unknown
    (by cases ((c.raiseFlag l .conflict).occ l).resident <;> simp)
  obtain ⟨f, o, heq⟩ := Part.raiseFlag_eq (c := c) l .conflict
  have hocc : ∀ a, (c.raiseFlag l .conflict).occ a = c.occ a := fun a => by rw [heq]; rfl
  have hrec : ∀ k, (c.raiseFlag l .conflict).rec? k = c.rec? k := fun k => by rw [heq]; rfl
  refine ⟨kept_accords.clear rfl hflagged, K.clear (K.raiseFlag (.refl c)), fun a => ?_, fun hl => ?_, fun k r hk hr => ?_,
    fun k hk => ?_⟩
  · exact (hup.occ a).trans (by rw [hocc])
  · have hsame : (c.foundTaken l).flagsOf l = (c.raiseFlag l .conflict).flagsOf l :=
      congrArg (Store.getD SlotFlags.clear · l) hflags
    rw [hsame]
    exact Part.raiseFlag_get hc.1 .conflict hl
  · exact hup.gone k r (by rw [hocc]; exact hk) ((hrec k).trans hr)
  · exact (hup.others k (by rw [hocc]; exact hk)).trans (hrec k)

/-! ### A destination found taken (R127) -/

/-- The blocks with a leg on its way to the slot chosen anew. -/
def Part.sentOn (c : Part) (x : Side) (m : Move) (q : Nat) : Part :=
  let c2 := match m.reticle with
    | some n => c.setOcc q (.inbound n)
    | none => c
  ((c2.putRobot x { c2.robot x with held := (c2.robot x).held.map fun i => widen i (columnOf q + 1) }).putMove
    { m with dst := some q }).robotOrder x (.moveLeg m.num .hand (c.tables.coord q))

theorem Part.placeTaken_eq (hc : c.accords) (x : Side) (m : Move) (l : Nat) :
    c.placeTaken x m l = match (c.foundTaken l).rechoose x m with
      | some q => (c.foundTaken l).sentOn x m q
      | none => (c.foundTaken l).putBack x m none := by
  have htables : (c.foundTaken l).tables = c.tables := (Part.foundTaken_spec hc l).2.1.tables_eq
  unfold Part.placeTaken Part.sentOn
  rw [htables]
  rfl

theorem Part.sentOn_spec (hs : c.sound) (x : Side) (q : Nat) (hm : c.move? m.num = some m) :
    (∀ a, a ≠ q → (c.sentOn x m q).occ a = c.occ a) ∧ (∀ n, m.reticle = some n → (c.sentOn x m q).occ q = .inbound n) ∧
      (c.sentOn x m q).inv.flags = c.inv.flags ∧ (c.sentOn x m q).move? m.num = some { m with dst := some q } ∧
      (c.sentOn x m q).robot x =
        { c.robot x with held := (c.robot x).held.map fun i => widen i (columnOf q + 1) } := by
  obtain ⟨c2, hc2, hocc, hnamed, hflags, hmv⟩ : ∃ c2 : Part, c.sentOn x m q =
        ((c2.putRobot x { c2.robot x with held := (c2.robot x).held.map fun i => widen i (columnOf q + 1) }).putMove
          { m with dst := some q }).robotOrder x (.moveLeg m.num .hand (c.tables.coord q)) ∧
      (∀ a, a ≠ q → c2.occ a = c.occ a) ∧ (∀ n, m.reticle = some n → c2.occ q = .inbound n) ∧
      c2.inv.flags = c.inv.flags ∧ c2.mv = c.mv := by
    unfold Part.sentOn
    cases hn : m.reticle with
    | none => exact ⟨c, rfl, fun _ _ => rfl, nofun, rfl, rfl⟩
    | some n =>
      obtain ⟨-, hflags, hmv, -⟩ := Part.setOcc_framed (c := c) q (.inbound n)
      exact ⟨_, rfl, fun a ha => Part.setOcc_occ_ne (Ne.symm ha),
        fun k hk => by rw [Part.setOcc_occ hs, if_pos rfl, Option.some.inj hk], hflags, hmv⟩
  obtain ⟨hinv, hqmv, -, -, -⟩ := Part.queueOrder_same
    (c := (c2.putRobot x { c2.robot x with held := (c2.robot x).held.map fun i => widen i (columnOf q + 1) }).putMove
      { m with dst := some q })
    (((c2.putRobot x { c2.robot x with held := (c2.robot x).held.map fun i => widen i (columnOf q + 1) }).putMove
      { m with dst := some q }).robotAddr x) ⟨.moveLeg m.num .hand (c.tables.coord q), none⟩
  have hinv' : (c.sentOn x m q).inv = c2.inv := by
    rw [hc2]
    exact hinv.trans (Part.putRobot_inv ..)
  have hmove : (c2.putRobot x { c2.robot x with held := (c2.robot x).held.map fun i => widen i (columnOf q + 1) }).move? m.num =
      some m := by
    unfold Part.move?
    rw [Part.putRobot_mv_moves, hmv]
    exact hm
  refine ⟨fun a ha => (Part.occ_of_inv hinv' a).trans (hocc a ha), fun n hn => (Part.occ_of_inv hinv' q).trans (hnamed n hn),
    (congrArg Inventory.flags hinv').trans hflags, ?_, ?_⟩
  · rw [hc2]
    exact (Part.move_of_mv hqmv _).trans (Part.putMove_move (m' := { m with dst := some q }) hmove rfl)
  · rw [hc2]
    refine (Part.robot_of_mv hqmv x).trans ((Part.putMove_robot _ _ x).trans ((Part.putRobot_robot ..).trans ?_))
    rw [Part.robot_of_mv hmv]

/-- What is left of a leg whose destination is taken, in either outcome. -/
theorem Part.placeTaken_dst (hc : c.accords) (hm : c.move? m.num = some m) (hg : m.granted = true) :
    (c.placeTaken x m l).occ l = .unknown ∧ (l < 960 → ((c.placeTaken x m l).flagsOf l).conflict = true) := by
  obtain ⟨hb, hcas, hocc, hflag, -⟩ := Part.foundTaken_spec hc l
  have hocc' := (hocc l).trans (if_pos rfl)
  rw [Part.placeTaken_eq hc]
  cases hre : (c.foundTaken l).rechoose x m with
  | none =>
    have hinv := (Part.putBack_spec (s := 0) (c.foundTaken l) x m none).1
    exact ⟨(Part.occ_of_inv hinv l).trans hocc', fun hl => by rw [Part.flags_of_inv hinv]; exact hflag hl⟩
  | some q =>
    have hne : l ≠ q := fun e => by
      have hvacant := Part.rechoose_vacant hre
      rw [← e, hocc'] at hvacant
      exact nomatch hvacant
    obtain ⟨h1, -, hflags, -⟩ := Part.sentOn_spec hb.1 x q (hcas.move_eq hc.1 hm hg)
    refine ⟨(h1 l hne).trans hocc', fun hl => ?_⟩
    have hsame : ((c.foundTaken l).sentOn x m q).flagsOf l = (c.foundTaken l).flagsOf l :=
      congrArg (Store.getD SlotFlags.clear · l) hflags
    dsimp only
    rw [hsame]
    exact hflag hl

/-! ### Put-backs (R128) -/

theorem Part.putBackRead_spec (hc : c.accords) (hs : s < 968) (read : Read) (kind : Nat) :
    let e := (c.clear (handOf x) none .vacant).readAt s read kind (some m.num)
    let d := c.putBackRead x m s read kind
    d.inv = e.inv ∧ d.robot x = (c.robot x).standing (c.tables.spanAt s) ∧ d.occ (handOf x) = .vacant ∧
      d.move? m.num = none := by
  have hge := handOf_ge x
  have K := cascades_cascade hc.1
  obtain ⟨hup, -⟩ := Part.clear_replaced (l := handOf x) (own := none) hc .vacant
    (by cases (c.occ (handOf x)).resident <;> simp)
  have hclear : (c.clear (handOf x) none .vacant).accords := kept_accords.clear rfl hc
  have hhand := (hup.occ (handOf x)).trans (if_pos rfl)
  obtain ⟨hinv, hrob, hmove, -⟩ := Part.stands_spec
    (c := (c.clear (handOf x) none .vacant).readAt s read kind (some m.num)) (res := .pickMismatch) nofun nofun m x
    (c.tables.spanAt s)
  refine ⟨hinv, hrob.trans (by rw [(K.readAt (K.clear (.refl c))).robot_eq]), ?_, hmove⟩
  exact (Part.occ_of_inv hinv _).trans
    ((Part.readAt_occ_other hclear read (some m.num) (by omega) (by rw [hhand]; rfl)).trans hhand)

/-- The blocks with a pod back at its source, before its move ends. -/
def Part.broughtBack (c : Part) (x : Side) (m : Move) (s : Nat) : Part :=
  match m.reticle with
  | some n => (c.carry (handOf x) s n fun r => { r with state := stateAt s, job := none }).fixProtection n
  | none => (c.makeWay (handOf x) s none).setOcc s (.foreign (c.handKind x m))

theorem Part.putBackClean_eq (c : Part) (x : Side) (m : Move) (s : Nat) : c.putBackClean x m s =
    ((c.broughtBack x m s).standAt x (c.tables.spanAt s)).endMove m .placeOccupied := by
  unfold Part.putBackClean Part.broughtBack Part.makeWay
  cases m.reticle <;> rfl

theorem Part.putBackClean_spec (hc : c.accords) (x : Side) (m : Move) (s : Nat) :
    let d := c.putBackClean x m s
    d.inv = (c.broughtBack x m s).inv ∧ d.robot x = (c.robot x).standing (c.tables.spanAt s) ∧ d.move? m.num = none := by
  have K := cascades_cascade hc.1
  have hcas : c.Cascade (c.broughtBack x m s) := by
    unfold Part.broughtBack Part.carry Part.makeWay
    cases m.reticle
    · exact K.setOcc (K.evict (K.clear (.refl c)))
    · exact K.fixProtection (K.putPod (K.evict (K.clear (.refl c))))
  obtain ⟨hinv, hrob, hmove, -⟩ := Part.stands_spec (c := c.broughtBack x m s) (res := .placeOccupied) nofun nofun m x
    (c.tables.spanAt s)
  rw [Part.putBackClean_eq]
  exact ⟨hinv, hrob.trans (by rw [hcas.robot_eq]), hmove⟩

theorem Part.broughtBack_record (hc : c.accords) (hs : s < 968) (hn : m.reticle = some n) (hr : c.rec? n = some r) :
    (c.broughtBack x m s).occ (handOf x) = .vacant ∧ (c.broughtBack x m s).occ s = .occupied n true ∧
      ∃ q, (c.broughtBack x m s).rec? n = some q ∧ q.id = r.id ∧ q.place = .loc s ∧ q.state = stateAt s ∧ q.job = none := by
  have hge := handOf_ge x
  obtain ⟨hsrc, hdst, hrec⟩ := Part.carry_spec (src := handOf x) (dst := s) hc (by omega) hr fun r =>
    { r with state := stateAt s, job := none }
  obtain ⟨q, o, hfix, hsame⟩ := Part.fixProtection_uncommitted hrec (stateAt_uncommitted s)
  obtain ⟨hid, -, -, hplace, hstate, -, -, hjob⟩ := hsame.keeps
  unfold Part.broughtBack
  rw [hn]
  exact ⟨(hfix.occ_eq _).trans hsrc, (hfix.occ_eq _).trans hdst, q, hfix.self, hid, hplace, hstate, hjob⟩

/-- The hand is VACANT after a put-back, whatever the move says its pod is. -/
theorem Part.broughtBack_hand (hc : c.accords) (hs : s < 968) : (c.broughtBack x m s).occ (handOf x) = .vacant := by
  have hge := handOf_ge x
  cases hn : m.reticle with
  | none =>
    unfold Part.broughtBack
    rw [hn]
    exact (Part.carried_foreign hc (by omega) _).1
  | some n =>
    cases hr : c.rec? n with
    | some r => exact (Part.broughtBack_record hc hs hn hr).1
    | none =>
      have hunnamed := hc.unnamed hr (handOf x)
      have hrec := (Part.makeWay_rec hc (handOf x) s n).trans hr
      have hkeep : (c.carry (handOf x) s n fun r => { r with state := stateAt s, job := none }) =
          c.makeWay (handOf x) s (some n) := by
        unfold Part.carry Part.putPod
        rw [hrec]
      unfold Part.broughtBack
      rw [hn]
      dsimp only
      rw [hkeep]
      unfold Part.fixProtection
      rw [hrec]
      exact Part.makeWay_vacant hc (by omega) (.inr hunnamed)

/-! ### A source found taken (R128) -/

/-- The blocks with the record of a pod that stays on the hand in doubt. -/
def Part.leftOnHand (c : Part) (x : Side) (m : Move) : Part :=
  match m.reticle with
  | some n =>
    if (c.rec? n).any fun (r : Rec) => decide (r.place = Place.loc (handOf x)) then
      (c.updRec n fun r => { r with state := .inDoubt, job := none }).limboAccount n
    else c
  | none => c

theorem Part.putBackTaken_eq (c : Part) (x : Side) (m : Move) (s : Nat) : c.putBackTaken x m s =
    ((((c.foundTaken s).leftOnHand x m).setRobot x { ((c.foundTaken s).leftOnHand x m).robot x with
      state := .suspect, current := none, recovery := [s] }).say
        (.moveFault x (some m.num) none .putBackOccupied)).endMove m .placeOccupied := by
  unfold Part.putBackTaken Part.leftOnHand Part.foundTaken
  cases m.reticle <;> rfl

/-- A record of the pod on the hand changes to IN_DOUBT, and no location and no flag changes. -/
theorem Part.leftOnHand_only (hn : m.reticle = some n) (hr : c.rec? n = some r) (hp : r.place = .loc (handOf x)) :
    ∃ q o, c.RecOnly (c.leftOnHand x m) n q o ∧ q.id = r.id ∧ q.state = .inDoubt ∧ q.job = none ∧ q.place = r.place := by
  have hset := Part.updRec_only (fun r => { r with state := .inDoubt, job := none }) hr
  obtain ⟨q, o, hq, hsame⟩ := Part.limboAccount_uncommitted hset.self ⟨nofun, nofun⟩
  obtain ⟨hid, -, -, hplace, hstate, -, -, hjob⟩ := hsame.keeps
  refine ⟨q, [] ++ o, ?_, hid, hstate, hjob, hplace⟩
  unfold Part.leftOnHand
  rw [hn]
  dsimp only
  rw [if_pos (by simp [hr, hp])]
  exact hset.trans hq

theorem Part.leftOnHand_same (hno : ∀ n r, m.reticle = some n → c.rec? n = some r → r.place ≠ .loc (handOf x)) :
    c.leftOnHand x m = c := by
  unfold Part.leftOnHand
  cases hn : m.reticle with
  | none => rfl
  | some n =>
    dsimp only
    refine if_neg ?_
    cases hr : c.rec? n with
    | none => simp
    | some r => simpa using hno n r hn hr

/-- What a record left on the hand leaves: locations, flags and robots. -/
theorem Part.leftOnHand_kept (hs : c.sound) (x : Side) (m : Move) : c.Cascade (c.leftOnHand x m) ∧
    (∀ a, (c.leftOnHand x m).occ a = c.occ a) ∧ (c.leftOnHand x m).inv.flags = c.inv.flags := by
  have K := cascades_cascade hs
  refine ⟨?_, ?_⟩
  · unfold Part.leftOnHand
    repeat' split
    all_goals first | exact .refl c | exact K.limboAccount (K.updRec (.refl c))
  · by_cases h : ∀ n r, m.reticle = some n → c.rec? n = some r → r.place ≠ .loc (handOf x)
    · rw [Part.leftOnHand_same h]
      exact ⟨fun _ => rfl, rfl⟩
    · push Not at h
      obtain ⟨n, r, hn, hr, hp⟩ := h
      obtain ⟨q, o, honly, -⟩ := Part.leftOnHand_only hn hr hp
      exact ⟨honly.occ_eq, honly.flags_eq⟩

/-- A put-back whose source is taken: the source UNKNOWN, and the robot SUSPECT with its pod (R128). -/
theorem Part.putBackTaken_spec (hc : c.accords) (hs : s < 968) (x : Side) (m : Move) :
    let u := c.putBackTaken x m s
    u.inv = ((c.foundTaken s).leftOnHand x m).inv ∧
    u.occ s = .unknown ∧ (s < 960 → (u.flagsOf s).conflict = true) ∧ u.occ (handOf x) = c.occ (handOf x) ∧
      u.robot x = { c.robot x with state := .suspect, current := none, recovery := [s] } ∧ u.move? m.num = none ∧
      Subject.moveFault x (some m.num) none .putBackOccupied ∈ u.out := by
  have hge := handOf_ge x
  obtain ⟨hb, hcas, hocc, hflag, -⟩ := Part.foundTaken_spec hc s
  obtain ⟨hcas', hocc', hflags'⟩ := Part.leftOnHand_kept hb.1 x m
  obtain ⟨hinv, hrob, hmove, hout⟩ := Part.endMove_spec (c := (((c.foundTaken s).leftOnHand x m).setRobot x
    { ((c.foundTaken s).leftOnHand x m).robot x with state := .suspect, current := none, recovery := [s] }).say
      (.moveFault x (some m.num) none .putBackOccupied)) (res := .placeOccupied) nofun nofun m
  have hinv' : (c.putBackTaken x m s).inv = ((c.foundTaken s).leftOnHand x m).inv := by
    rw [Part.putBackTaken_eq]
    exact hinv.trans (Part.setRobot_same ..).1
  have hu : ∀ a, (c.putBackTaken x m s).occ a = if a = s then .unknown else c.occ a := fun a =>
    (Part.occ_of_inv hinv' a).trans ((hocc' a).trans (hocc a))
  refine ⟨hinv', (hu s).trans (if_pos rfl), fun hlt => ?_, (hu _).trans (if_neg (by omega)), ?_, ?_, ?_⟩
  · rw [Part.flags_of_inv hinv', Part.flagsOf, hflags']
    exact hflag hlt
  · rw [Part.putBackTaken_eq, hrob, Part.say_robot, Part.setRobot_robot, if_pos rfl, hcas'.robot_eq, hcas.robot_eq]
  · rw [Part.putBackTaken_eq]
    exact hmove
  · rw [Part.putBackTaken_eq]
    exact hout.subset (List.mem_append_right _ List.mem_cons_self)

/-- The record of a pod that could not be put back (R128). -/
theorem Part.putBackTaken_record (hc : c.accords) (hs : s < 968) (hn : m.reticle = some n) (hr : c.rec? n = some r)
    (hp : r.place = .loc (handOf x) ∨ r.place = .loc s) :
    ∃ q, (c.putBackTaken x m s).rec? n = some q ∧ q.id = r.id ∧ q.state = .inDoubt ∧ q.job = none ∧
      q.place = if r.place = .loc s then .none else r.place := by
  have hge := handOf_ge x
  obtain ⟨hb, -, -, -, hgone, hothers⟩ := Part.foundTaken_spec hc s
  have hinv := (Part.putBackTaken_spec hc hs x m).1
  by_cases hps : r.place = .loc s
  · obtain ⟨q, hq, hid, hstate, hplace, hjob⟩ := hgone n r ((hc.2 n s).1 ⟨r, hr, hps⟩) hr
    have hsame : (c.foundTaken s).leftOnHand x m = c.foundTaken s := Part.leftOnHand_same fun n' r' hn' hr' hp' => by
      obtain rfl := Option.some.inj (hn.symm.trans hn')
      obtain rfl := Option.some.inj (hq.symm.trans hr')
      exact nomatch hplace.symm.trans hp'
    refine ⟨q, ?_, hid, hstate, hjob, by rw [if_pos hps]; exact hplace⟩
    rw [Part.rec_of_inv hinv, hsame, hq]
  · have hr' := (hothers n (hc.resident_ne hr hps)).trans hr
    obtain ⟨q, o, honly, hid, hstate, hjob, hplace⟩ := Part.leftOnHand_only hn hr' (hp.resolve_right hps)
    exact ⟨q, (Part.rec_of_inv hinv n).trans honly.self, hid, hstate, hjob, by rw [if_neg hps]; exact hplace⟩

end Sys2Proof.Machine
end

section
/-! SUPPORT. Which report of a robot comes to which outcome (R122 to R129). -/

namespace Sys2Proof.Machine

variable {c : Part} {x : Side} {num kind l n s : Nat} {m : Move} {r : Rec} {v : Bool}

/-! ### The reports that answer the current move -/

theorem Part.picked_eq {read : Read} (h : c.current? x num = some m) (hstate : m.state = .dispatched) (hkind : m.kind ≠ .scan)
    (hsrc : m.src = some s) : c.picked x num read kind =
      if c.pickAgrees m read.norm then c.cleanPick x m s (kind % 4)
      else if read.norm = .empty then c.emptyPick x m s
      else c.mismatchedPick x m s read.norm (kind % 4) := by
  unfold Part.picked
  rw [h]
  dsimp only
  rw [hsrc]
  dsimp only
  rw [if_pos ⟨hstate, hkind⟩]
  cases read.norm <;> rfl

theorem Part.placed_eq (ok : Bool) (h : c.current? x num = some m) (hstate : m.state = .picked) (hdst : m.dst = some l) :
    c.placed x num ok = if ok then c.placeOk x m l else c.placeTaken x m l := by
  unfold Part.placed
  rw [h]
  dsimp only
  rw [hstate, hdst]

theorem Part.placed_back (ok : Bool) (h : c.current? x num = some m) (hstate : m.state = .puttingBack) (hsrc : m.src = some s) :
    c.placed x num ok = c.placedBack x m s ok := by
  unfold Part.placed
  rw [h]
  dsimp only
  rw [hstate, hsrc]

theorem Part.scanned_eq (read : Read) (h : c.current? x num = some m) (hstate : m.state = .dispatched)
    (hkind : m.kind = .scan) (hdst : m.dst = some l) : c.scanned x num read kind =
      ((c.readAt l read (kind % 4) none).standAt x (c.tables.spanAt l)).endMove m .completed := by
  unfold Part.scanned
  rw [h]
  dsimp only
  rw [hdst]
  exact if_pos ⟨hstate, hkind⟩

/-! ### A pick read against the move's record (R123) -/

theorem Part.pickAgrees_record {read : Read} (hn : m.reticle = some n) (hr : c.rec? n = some r) :
    c.pickAgrees m read = decide (read = .id r.id) := by
  unfold Part.pickAgrees
  rw [hn]
  cases read <;> simp [hr, eq_comm]

theorem Part.pickAgrees_foreign {read : Read} (hn : m.reticle = none) :
    c.pickAgrees m read = decide (read = .unreadable) := by
  unfold Part.pickAgrees
  rw [hn]
  cases read <;> simp

theorem Read.norm_eq_empty {read : Read} : read.norm = .empty ↔ read = .empty := by
  cases read with
  | id y => unfold Read.norm; dsimp only; split <;> simp
  | _ => simp [Read.norm]

/-- Another read than the record's ID does not agree, whatever its form (R193). -/
theorem Part.pickAgrees_other {read : Read} (hn : m.reticle = some n) (hr : c.rec? n = some r) (hne : read ≠ .id r.id) :
    c.pickAgrees m read.norm = false := by
  rw [Part.pickAgrees_record hn hr]
  exact decide_eq_false fun h => hne (Read.norm_eq_id h)

theorem Part.pickAgrees_empty : c.pickAgrees m .empty = false := by
  unfold Part.pickAgrees
  cases m.reticle <;> rfl

theorem Part.picked_clean {read : Read} (h : c.current? x num = some m) (hstate : m.state = .dispatched)
    (hkind : m.kind ≠ .scan) (hsrc : m.src = some s) (hagree : c.pickAgrees m read.norm = true) :
    c.picked x num read kind = c.cleanPick x m s (kind % 4) :=
  (Part.picked_eq h hstate hkind hsrc).trans (if_pos hagree)

theorem Part.picked_empty {read : Read} (h : c.current? x num = some m) (hstate : m.state = .dispatched)
    (hkind : m.kind ≠ .scan) (hsrc : m.src = some s) (hread : read.norm = .empty) :
    c.picked x num read kind = c.emptyPick x m s := by
  rw [Part.picked_eq h hstate hkind hsrc, hread, Part.pickAgrees_empty]
  rfl

theorem Part.picked_mismatched {read : Read} (h : c.current? x num = some m) (hstate : m.state = .dispatched)
    (hkind : m.kind ≠ .scan) (hsrc : m.src = some s) (hagree : c.pickAgrees m read.norm = false) (hread : read.norm ≠ .empty) :
    c.picked x num read kind = c.mismatchedPick x m s read.norm (kind % 4) := by
  rw [Part.picked_eq h hstate hkind hsrc, hagree, if_neg hread]
  rfl

/-- A record's mismatched pick, with nothing on the hand before (R125). -/
theorem Part.mismatchedPick_record (hc : c.accords) (hm : c.move? m.num = some m) (hn : m.reticle = some n)
    (hr : c.rec? n = some r) (hst : r.state = .inTransit) (hsrc : m.src = some s) (hs : s < 968) (hp : r.place = .loc s)
    (hdst : ∀ l, m.dst = some l → l < 968) (ho : c.occ s = .outbound n v) (hhand : (c.occ (handOf x)).resident = none)
    (read : Read) (kind : Nat) :
    let d := c.mismatchedPick x m s read kind
    d.occ (handOf x) = .foreign kind ∧ d.occ s = c.occ s ∧ d.move? m.num = some (m.sentBack (some (read, kind))) ∧
      d.robot x = c.robot x ∧ (s < 960 → (d.flagsOf s).mismatch = true) ∧ d.rec? n = some { r with mismatch := true } ∧
      ∀ a q, c.robotAddr x = some a → (c.planOf a).kind ≠ .none → c.node? a = some q →
        d.node? a = some { q with queue := q.queue ++ [⟨.putBack m.num (c.tables.coord s), none⟩] } := by
  have hge := handOf_ge x
  obtain ⟨hb, hocc, -⟩ := Part.wrongPod_spec hc x m read kind
  obtain ⟨hfor, hmove, hrob, -, -, horder⟩ := Part.wrongPod_hand (s := s) hc x m read kind hhand hdst hm
  obtain ⟨o, honly⟩ := Part.mismatchedPick_only (x := x) hc hn hr hst hs hp read kind
  obtain ⟨f, o', hraise⟩ := Part.raiseFlag_eq (c := c.wrongPod x m read kind) s .mismatch
  have hraised : ∀ a, ((c.wrongPod x m read kind).raiseFlag s .mismatch).occ a = (c.wrongPod x m read kind).occ a := fun a => by
    rw [hraise]
    rfl
  have hflag := fun hlt => Part.raiseFlag_get hb.1 (l := s) .mismatch hlt
  have hmv : (c.mismatchedPick x m s read kind).mv = (c.wrongPod x m read kind).mv := by
    rw [honly.mv_eq, hraise]
  have hbus : (c.mismatchedPick x m s read kind).bus = (c.wrongPod x m read kind).bus := by
    obtain ⟨w, q, heq⟩ := honly.eq
    rw [heq, hraise]
  refine ⟨?_, ?_, (Part.move_of_mv hmv _).trans hmove, (Part.robot_of_mv hmv x).trans hrob, fun hlt => ?_, honly.self,
    fun a q ha hk hq => ?_⟩
  · exact (honly.occ_eq _).trans ((hraised _).trans hfor)
  · refine (honly.occ_eq _).trans ((hraised _).trans ((hocc s (by omega)).trans (if_neg fun h => ?_)))
    exact nomatch ho.symm.trans h.2
  · have hsame : (c.mismatchedPick x m s read kind).flagsOf s = ((c.wrongPod x m read kind).raiseFlag s .mismatch).flagsOf s :=
      congrArg (Store.getD SlotFlags.clear · s) honly.flags_eq
    rw [hsame]
    exact hflag hlt
  · have hnode : (c.mismatchedPick x m s read kind).node? a = (c.wrongPod x m read kind).node? a :=
      congrArg (fun b : BusPort => Store.find b.roster a) hbus
    rw [hnode]
    exact horder a q hsrc ha hk hq

/-- The destination of a mismatched pick is VACANT again (R125). -/
theorem Part.mismatchedPick_dst (hc : c.accords) (hn : m.reticle = some n) (hr : c.rec? n = some r)
    (hst : r.state = .inTransit) (hs : s < 968) (hp : r.place = .loc s) (hd : m.dst = some l) (hl : l < 968)
    (ho : c.occ l = .inbound n) (read : Read) (kind : Nat) : (c.mismatchedPick x m s read kind).occ l = .vacant := by
  have hge := handOf_ge x
  obtain ⟨o, honly⟩ := Part.mismatchedPick_only (x := x) hc hn hr hst hs hp read kind
  obtain ⟨f, o', hraise⟩ := Part.raiseFlag_eq (c := c.wrongPod x m read kind) s .mismatch
  rw [honly.occ_eq, hraise]
  exact ((Part.wrongPod_spec hc x m read kind).2.1 l (by omega)).trans (if_pos ⟨hd, by rw [ho, hn]; rfl⟩)

/-- A mismatched pick of a move with no record, with nothing on the hand before (R125). -/
theorem Part.mismatchedPick_foreign {i : Nat} (hc : c.accords) (hm : c.move? m.num = some m) (hn : m.reticle = none)
    (hsrc : m.src = some s) (hs : s < 968) (hdst : ∀ l, m.dst = some l → l < 968) (ho : c.occ s = .foreign i)
    (hhand : (c.occ (handOf x)).resident = none) (read : Read) (kind : Nat) :
    let d := c.mismatchedPick x m s read kind
    d.occ (handOf x) = .foreign kind ∧ d.occ s = c.occ s ∧ d.move? m.num = some (m.sentBack (some (read, kind))) ∧
      d.robot x = c.robot x ∧ d.inv.recs = c.inv.recs ∧ d.inv.flags = c.inv.flags ∧
      ∀ a q, c.robotAddr x = some a → (c.planOf a).kind ≠ .none → c.node? a = some q →
        d.node? a = some { q with queue := q.queue ++ [⟨.putBack m.num (c.tables.coord s), none⟩] } := by
  have hge := handOf_ge x
  obtain ⟨hfor, hmove, hrob, hrecs, hflags, horder⟩ := Part.wrongPod_hand (s := s) hc x m read kind hhand hdst hm
  rw [Part.mismatchedPick_eq, hn]
  refine ⟨hfor, ?_, hmove, hrob, hrecs, hflags, fun a q => horder a q hsrc⟩
  refine ((Part.wrongPod_spec hc x m read kind).2.1 s (by omega)).trans (if_neg fun h => ?_)
  exact nomatch ho.symm.trans h.2

/-! ### A new destination (R127) -/

theorem Part.rechoose_none (h : m.refColumn = none) : c.rechoose x m = none := by
  unfold Part.rechoose
  rw [h]

/-- With no slot to choose, the pod goes back. -/
theorem Part.placeTaken_back (hc : c.accords) (hm : c.move? m.num = some m) (hg : m.granted = true)
    (hre : (c.foundTaken l).rechoose x m = none) :
    (c.placeTaken x m l).move? m.num = some (m.sentBack none) ∧ (c.placeTaken x m l).robot x = c.robot x := by
  obtain ⟨-, hcas, -⟩ := Part.foundTaken_spec hc l
  obtain ⟨-, hrob, -, -, hmove, -⟩ := Part.putBack_spec (s := 0) (c.foundTaken l) x m none
  rw [Part.placeTaken_eq hc, hre]
  exact ⟨hmove (hcas.move_eq hc.1 hm hg), (hrob x).trans (hcas.robot_eq x)⟩

/-- With a slot chosen anew, the leg goes on to it. -/
theorem Part.placeTaken_onward {q : Nat} {i : Nat × Nat} (hc : c.accords) (hm : c.move? m.num = some m)
    (hg : m.granted = true) (hre : (c.foundTaken l).rechoose x m = some q) (hheld : (c.robot x).held = some i) :
    (c.placeTaken x m l).move? m.num = some { m with dst := some q } ∧
      (∀ n, m.reticle = some n → (c.placeTaken x m l).occ q = .inbound n) ∧
      (c.placeTaken x m l).robot x = { c.robot x with held := some (widen i (columnOf q + 1)) } := by
  obtain ⟨hb, hcas, -⟩ := Part.foundTaken_spec hc l
  obtain ⟨-, hnamed, -, hmove, hrob⟩ := Part.sentOn_spec hb.1 x q (hcas.move_eq hc.1 hm hg)
  rw [Part.placeTaken_eq hc, hre]
  refine ⟨hmove, hnamed, hrob.trans ?_⟩
  rw [hcas.robot_eq, hheld]
  rfl

/-! ### Put-backs that end (R128) -/

theorem Part.placedBack_read {read : Read} (h : m.pickRead = some (read, kind)) :
    c.placedBack x m s true = c.putBackRead x m s read kind := by
  simp [Part.placedBack, h]

theorem Part.placedBack_clean (h : m.pickRead = none) : c.placedBack x m s true = c.putBackClean x m s := by
  simp [Part.placedBack, h]

/-- A put-back leaves its robot standing at the source, the hand VACANT and the move gone. -/
theorem Part.placedBack_stands (hc : c.accords) (hs : s < 968) (x : Side) (m : Move) :
    let d := c.placedBack x m s true
    d.robot x = (c.robot x).standing (c.tables.spanAt s) ∧ d.occ (handOf x) = .vacant ∧ d.move? m.num = none := by
  cases hpr : m.pickRead with
  | some e =>
    obtain ⟨-, hrob, hhand, hmove⟩ := Part.putBackRead_spec (x := x) (m := m) hc hs e.1 e.2
    rw [Part.placedBack_read hpr]
    exact ⟨hrob, hhand, hmove⟩
  | none =>
    obtain ⟨hinv, hrob, hmove⟩ := Part.putBackClean_spec (s := s) hc x m
    rw [Part.placedBack_clean hpr]
    exact ⟨hrob, (Part.occ_of_inv hinv _).trans (Part.broughtBack_hand hc hs), hmove⟩

theorem Part.putBackClean_record (hc : c.accords) (hs : s < 968) (hn : m.reticle = some n) (hr : c.rec? n = some r) :
    (c.putBackClean x m s).occ s = .occupied n true ∧ ∃ q, (c.putBackClean x m s).rec? n = some q ∧ q.id = r.id ∧
      q.place = .loc s ∧ q.state = (if s < 960 then .idle else .returned) ∧ q.job = none := by
  obtain ⟨-, hocc, q, hq, hid, hplace, hstate, hjob⟩ := Part.broughtBack_record (x := x) hc hs hn hr
  have hinv := (Part.putBackClean_spec (s := s) hc x m).1
  rw [stateAt_eq, if_pos hs] at hstate
  exact ⟨(Part.occ_of_inv hinv s).trans hocc, q, (Part.rec_of_inv hinv n).trans hq, hid, hplace, hstate, hjob⟩

theorem Part.putBackClean_foreign {i : Nat} (hc : c.accords) (hs : s < 968) (hn : m.reticle = none)
    (hfor : c.occ (handOf x) = .foreign i) : (c.putBackClean x m s).occ s = .foreign i := by
  have hge := handOf_ge x
  have hkind : c.handKind x m = i := by simp [Part.handKind, hfor, Occ.kind?]
  rw [Part.occ_of_inv (Part.putBackClean_spec (s := s) hc x m).1, Part.broughtBack, hn, ← hkind]
  exact (Part.carried_foreign hc (by omega) _).2

end Sys2Proof.Machine
end

section
open Sys2Proof Sys2Proof.Machine

/-- Settles O58: each report of a robot comes to one outcome (`Part.picked_eq`, `Part.placed_eq`, `Part.placed_back`,
`Part.scanned_eq`), and each outcome has a lemma that says what it leaves. -/
theorem robotReports : Obligations.RobotReports := by
  unfold Obligations.RobotReports
  intro c x num kind read hs hagree
  have hc : c.accords := ⟨hs, hagree⟩
  have hge := handOf_ge x
  refine ⟨fun h => ?_, fun m s n r h hst hkind hsrc hlt hn hr hid => ?_, fun m l n r h hst hdst hl hn hr hk => ?_,
    fun m l h hst hkind hdst => ?_, ?_⟩
  · -- the report answers no current move
    exact ⟨by simp [Part.picked, h, Part.lateReport], by simp [Part.scanned, h, Part.lateReport],
      fun ok => by simp [Part.placed, h, Part.lateReport]⟩
  · -- a clean pick
    intro d
    obtain ⟨hm, rfl⟩ := Part.current_some h
    have hd : d = c.cleanPick x m s (kind % 4) := by
      refine Part.picked_clean h hst hkind hsrc ?_
      rw [Read.norm_id hid, Part.pickAgrees_record hn hr]
      exact decide_eq_true rfl
    obtain ⟨h1, h2, h3, h4, h5⟩ := Part.cleanPick_record (x := x) (kind := kind % 4) hc hm (by simp [Move.granted, hst]) hlt hn hr
    rw [hd]
    refine ⟨h1, h2, h3, h4, fun hstate hjob => h5.trans ?_, fun hstate => h5.trans ?_⟩
    · cases how : m.owner with
      | step j k => simp [Move.taken, Move.stepRef, how, hjob j k how, ← hstate]
      | _ => simp [Move.taken, Move.stepRef, how, ← hstate]
    · cases how : m.owner <;> simp [Move.taken, Move.stepRef, how]
  · -- a place
    intro d
    obtain ⟨hm, rfl⟩ := Part.current_some h
    have hd : d = c.placeOk x m l := Part.placed_eq true h hst hdst
    obtain ⟨h1, h2, h3, h4, q, hq, hqid, hqplace, hqstate⟩ := Part.placeOk_record (x := x) hc hl hn hr hk
    rw [hd]
    exact ⟨h1, h2, h3, h4, q, hq, hqid, hqplace, hqstate.trans (r.placedAt_state _ l hk)⟩
  · -- a scan
    intro d
    obtain ⟨hm, rfl⟩ := Part.current_some h
    have hd : d = _ := Part.scanned_eq read h hst hkind hdst
    rw [hd]
    exact Part.scanned_stands hs read (kind % 4)
  · intro stands
    refine ⟨fun m s h hst hkind hsrc hlt hdst => ?_, fun m l h hst hdst hl => ?_, fun m s h hst hsrc hlt => ?_⟩
    · -- a pick of nothing, or of another pod than the move's
      obtain ⟨hm, rfl⟩ := Part.current_some h
      have hg : m.granted = true := by simp [Move.granted, hst]
      intro d orders back
      refine ⟨fun n v r hn ho hr hrs => ?_, fun i hn ho hhand => ?_⟩
      · have hp : r.place = .loc s := by
          obtain ⟨r', hr', hp⟩ := (hagree n s).2 (by rw [ho]; rfl)
          rwa [Option.some.inj (hr.symm.trans hr')]
        have hempty : read = .empty → d = c.emptyPick x m s := fun he =>
          Part.picked_empty h hst hkind hsrc (Read.norm_eq_empty.2 he)
        have hother : read ≠ .empty → read ≠ .id r.id → d = c.mismatchedPick x m s read.norm (kind % 4) := fun he hne =>
          Part.picked_mismatched h hst hkind hsrc (Part.pickAgrees_other hn hr hne) (mt Read.norm_eq_empty.1 he)
        refine ⟨fun hne l hd hol => ?_, fun he huniq => ?_, fun he hne hhand => ?_⟩
        · by_cases he : read = .empty
          · rw [hempty he]
            exact Part.emptyPick_dst hc hn hd hol fun e => nomatch (e ▸ hol).symm.trans ho
          · rw [hother he hne]
            exact Part.mismatchedPick_dst hc hn hr hrs hlt hp hd (hdst l hd) hol _ _
        · obtain ⟨h1, h2, h3, h4⟩ := Part.emptyPick_given (x := x) hc (Part.claimedBy_source hlt ho huniq) hlt hdst
          obtain ⟨-, hrob, hmove, -⟩ := Part.emptyPick_spec hs x m s
          obtain ⟨htold, hrel, hstep⟩ := Part.emptyPick_tells (x := x) hc hlt ho hr hrs hg hm huniq
          obtain ⟨q, hq, hqid, hqstate, hqplace, hqjob⟩ := h3 n r (by rw [ho]; rfl) hr
          rw [hempty he]
          refine ⟨h1, hmove, hrob, h2, fun hv hl => h4 (by rw [ho]; exact hv) hl, ⟨q, hq, hqid, hqstate, hqplace, hqjob⟩,
            hp ▸ htold, fun how => ?_, hstep⟩
          rw [← hn, ← hsrc]
          exact hrel how
        · have hspec := Part.mismatchedPick_record hc hm hn hr hrs hsrc hlt hp hdst ho hhand read.norm (kind % 4)
          rw [← hother he hne] at hspec
          exact hspec
      · refine ⟨fun he => ?_, fun hu => ?_, fun y hy => ?_⟩
        · have hd : d = c.emptyPick x m s := Part.picked_empty h hst hkind hsrc he
          obtain ⟨-, hrob, hmove, -⟩ := Part.emptyPick_spec hs x m s
          rw [hd]
          exact ⟨(Part.emptyPick_given hc (Part.claimedBy_foreign hlt ho _) hlt hdst).1, hmove, hrob⟩
        · have hd : d = c.cleanPick x m s (kind % 4) :=
            Part.picked_clean h hst hkind hsrc (by rw [Part.pickAgrees_foreign hn, hu]; rfl)
          rw [hd]
          exact Part.cleanPick_foreign hc hm hg hlt hn
        · have hd : d = c.mismatchedPick x m s read.norm (kind % 4) :=
            Part.picked_mismatched h hst hkind hsrc (by rw [Part.pickAgrees_foreign hn, hy]; rfl) (by rw [hy]; nofun)
          have hspec := Part.mismatchedPick_foreign hc hm hn hsrc hlt hdst ho hhand read.norm (kind % 4)
          rw [← hd] at hspec
          exact hspec
    · -- a destination found taken
      obtain ⟨hm, rfl⟩ := Part.current_some h
      have hg : m.granted = true := by simp [Move.granted, hst]
      intro d b
      have hd : d = c.placeTaken x m l := Part.placed_eq false h hst hdst
      obtain ⟨hunknown, hflag⟩ := Part.placeTaken_dst (x := x) (l := l) hc hm hg
      rw [hd]
      exact ⟨hunknown, hflag, Part.rechoose_none, fun hre => Part.placeTaken_back hc hm hg hre,
        fun q i hre hheld => Part.placeTaken_onward hc hm hg hre hheld⟩
    · -- a put-back
      obtain ⟨hm, rfl⟩ := Part.current_some h
      intro d u
      have hd : d = c.placedBack x m s true := Part.placed_back true h hst hsrc
      have hu : u = c.putBackTaken x m s := Part.placed_back false h hst hsrc
      obtain ⟨-, h1, h2, h3, h4, h5, h6⟩ := Part.putBackTaken_spec hc hlt x m
      rw [hd, hu]
      refine ⟨Part.placedBack_stands hc hlt x m, fun y k hpr => ?_, fun hpr => ?_, h1, h2, h3, h4, h5, h6,
        fun n r hn hr hp => Part.putBackTaken_record hc hlt hn hr hp⟩
      · rw [Part.placedBack_read hpr, ← hsrc]
        exact ⟨(Part.putBackRead_spec hc hlt y k).1, Part.endMove_relocate _⟩
      · rw [Part.placedBack_clean hpr]
        refine ⟨fun how => ?_, fun n r hn hr => Part.putBackClean_record hc hlt hn hr,
          fun i hn hfor => Part.putBackClean_foreign hc hlt hn hfor⟩
        rw [Part.putBackClean_eq, ← hsrc]
        exact Part.endMove_relocate _ how

end

section
/-! SUPPORT. The settlement of an account (R48). -/

namespace Sys2Proof.Machine

/-- Settled with no saturation, an account gains exactly what has accrued, in sixtieths of a unit (R48). -/
theorem Rec.accrue_exact {r : Rec} {t now rate : Nat} (ht : r.stamp = some t)
    (hsum : r.e + (r.frac + (now - t) * rate) / 60 ≤ 65535) (hroom : r.e = 65535 → (now - t) * rate = 0) :
    r.accrue now rate = { r with
      e := r.e + (r.frac + (now - t) * rate) / 60, frac := (r.frac + (now - t) * rate) % 60, stamp := some now } := by
  unfold Rec.accrue
  rw [ht]
  exact if_neg (by rintro (h | ⟨h, h'⟩) <;> [omega; (have := hroom h; omega)])

/-- An account that would pass 65535, or stands there and accrues more, is saturated with no fraction (R48). -/
theorem Rec.accrue_saturated {r : Rec} {t now rate : Nat} (ht : r.stamp = some t)
    (h : 65535 < r.e + (r.frac + (now - t) * rate) / 60 ∨ (r.e = 65535 ∧ 0 < (now - t) * rate)) :
    r.accrue now rate = { r with e := 65535, frac := 0, stamp := some now } := by
  unfold Rec.accrue
  rw [ht]
  exact if_pos h

/-- A settlement on the way changes nothing, so long as the account is not saturated (R48). -/
theorem Rec.accrue_accrue {r : Rec} {t mid now rate : Nat} (ht : r.stamp = some t) (h1 : t ≤ mid) (h2 : mid ≤ now)
    (hlow : (r.accrue now rate).e < 65535) : (r.accrue mid rate).accrue now rate = r.accrue now rate := by
  have htotal : (now - t) * rate = (mid - t) * rate + (now - mid) * rate := by
    rw [← Nat.add_mul]
    congr 1
    omega
  have hopen : r.e + (r.frac + (now - t) * rate) / 60 ≤ 65535 ∧ r.e ≠ 65535 := by
    by_contra hsat
    by_cases hbig : 65535 < r.e + (r.frac + (now - t) * rate) / 60
    · simp [Rec.accrue_saturated ht (.inl hbig)] at hlow
    · have hfull : r.e = 65535 := by omega
      rcases Nat.eq_zero_or_pos ((now - t) * rate) with h0 | h0
      · rw [Rec.accrue_exact ht (by omega) fun _ => h0] at hlow
        dsimp only at hlow
        omega
      · simp [Rec.accrue_saturated ht (.inr ⟨hfull, h0⟩)] at hlow
  rw [Rec.accrue_exact ht hopen.1 fun h => absurd h hopen.2] at hlow ⊢
  rw [Rec.accrue_exact (now := mid) ht (by omega) fun h => absurd h hopen.2]
  dsimp only at hlow
  rw [Rec.accrue_exact (t := mid) rfl (by dsimp only; omega) (by dsimp only; omega)]
  simp only [Rec.mk.injEq, true_and, and_true]
  omega

theorem Part.accrueRec_rec {c : Part} (n : Nat) :
    (c.accrueRec n).rec? n = (c.rec? n).map fun r => r.accrue c.now (c.rateOf r) := by
  rw [Part.accrueRec, Part.updRec_rec, if_pos rfl]

end Sys2Proof.Machine
end

section
open Sys2Proof Sys2Proof.Machine

/-- Settles O46: an account settles in one of two ways, exactly (`Rec.accrue_exact`) or saturated
(`Rec.accrue_saturated`). -/
theorem settlementExact : Obligations.SettlementExact := by
  refine ⟨fun r now rate h => Rec.accrue_protected h now rate, fun r t now rate ht hle he hfrac => ?_,
    fun c n => Part.accrueRec_rec n⟩
  intro total q
  have hnone : now = t ∨ rate = 0 → (now - t) * rate = 0 := by rintro (rfl | rfl) <;> simp
  suffices key : q = { r with e := q.e, frac := q.frac, stamp := some now } ∧ r.e ≤ q.e ∧ q.frac < 60 ∧
      (r.e < 65535 → r.e + total / 60 ≤ 65535 → q.e = r.e + total / 60 ∧ q.frac = total % 60) ∧
      (65535 < r.e + total / 60 → q.e = 65535 ∧ q.frac = 0) ∧
      ((now - t) * rate = 0 → q.e = r.e ∧ q.frac = r.frac) ∧
      (r.e = 65535 → r.frac = 0 → q.e = 65535 ∧ q.frac = 0) by
    obtain ⟨hshape, hrises, hunits, hexact, hsat, hstill, hstays⟩ := key
    exact ⟨hshape, hrises, hunits, hexact, hsat, fun h => hstill (hnone h), hstays,
      fun mid h1 h2 hlow => Rec.accrue_accrue ht h1 h2 hlow⟩
  by_cases hsat : 65535 < r.e + total / 60 ∨ (r.e = 65535 ∧ 0 < (now - t) * rate)
  · rw [show q = _ from Rec.accrue_saturated ht hsat]
    refine ⟨rfl, he, Nat.succ_pos _, ?_, fun _ => ⟨rfl, rfl⟩, ?_, fun _ _ => ⟨rfl, rfl⟩⟩ <;> dsimp only <;> omega
  · rw [show q = _ from Rec.accrue_exact ht (by omega) (by omega)]
    refine ⟨rfl, Nat.le_add_right _ _, Nat.mod_lt _ (by decide), fun _ _ => ⟨rfl, rfl⟩, ?_, ?_, ?_⟩ <;> dsimp only <;>
      omega
end

section
/-! SUPPORT. What the threshold rule and SET_EXPOSURE leave of a record (R52, R57): every other record stays. -/

namespace Sys2Proof.Machine

variable {c : Part}

theorem Part.say_rec (s : Subject) (k : Nat) : (c.say s).rec? k = c.rec? k := rfl

theorem Part.signalReturnOf_rec (n k : Nat) (r : Rec) : (c.signalReturnOf n r).rec? k = c.rec? k :=
  congrArg (Store.find · k) ((ends_recs c.inv.recs).signalReturnOf rfl)

theorem Part.rec_unchanged {n k : Nat} {o : Option Rec} (h : c.rec? n = o) :
    c.rec? k = if k = n then o else c.rec? k := by
  split
  · rename_i e
    rw [e, h]
  · rfl

/-- A hold changes no record but its own (R38, R39, R41). -/
theorem Part.addHold_rec_eq (n k : Nat) (b : HoldReason) :
    (c.addHold n b).rec? k = if k = n then (c.rec? n).map (·.withHold b) else c.rec? k := by
  cases hr : c.rec? n with
  | none =>
    have hsame : c.addHold n b = c := by
      unfold Part.addHold
      rw [hr]
    rw [hsame]
    exact Part.rec_unchanged hr
  | some r =>
    split
    · rename_i h
      rw [h]
      exact Part.addHold_rec b hr
    · rename_i h
      unfold Part.addHold
      rw [hr]
      dsimp only
      split
      · rfl
      · rw [Part.signalReturnOf_rec]
        repeat' split
        all_goals simp only [Part.holdActs_rec, Part.say_rec, Part.updRec_rec, if_neg h]

/-- Clearing a hold changes that reason of that record alone (R38). -/
theorem Part.clearHold_rec_eq (n k : Nat) (b : HoldReason) (own : Bool) :
    (c.clearHold n b own).rec? k = if k = n then (c.rec? n).map (·.setHold b false) else c.rec? k := by
  unfold Part.clearHold
  cases hr : c.rec? n with
  | none => exact Part.rec_unchanged hr
  | some r =>
    dsimp only
    split
    · rw [Part.signalReturnOf_rec]
      split <;> simp only [Part.say_rec, Part.updRec_rec, hr]
    · rename_i hno
      rw [Option.map_some, Rec.setHold_clear_self (by simpa using hno)]
      exact Part.rec_unchanged hr

/-- The record that the threshold rule leaves (R52). -/
def Rec.judged (r : Rec) (limits : Limits) (down : Bool) : Rec :=
  if limits.eHold ≤ r.e ∧ r.exposure = false then r.withHold .exposure
  else if r.e < limits.eWarn ∧ r.exposure = true ∧ down = true then r.setHold .exposure false
  else r

theorem Part.threshold_rec_eq (n k : Nat) (down : Bool) : (c.threshold n down).rec? k =
    if k = n then (c.rec? n).map (·.judged c.limits down) else c.rec? k := by
  unfold Part.threshold Rec.judged
  cases hr : c.rec? n with
  | none => exact Part.rec_unchanged hr
  | some r =>
    rw [Option.map_some]
    dsimp only
    split
    · rw [Part.addHold_rec_eq, hr]
      rfl
    · split
      · rw [Part.clearHold_rec_eq, hr]
        rfl
      · exact Part.rec_unchanged hr

/-- `r'` has the identity, the place, the account and the other holds of `r`. -/
def Rec.SameAccount (r r' : Rec) : Prop :=
  r'.id = r.id ∧ r'.cls = r.cls ∧ r'.place = r.place ∧ r'.e = r.e ∧ r'.frac = r.frac ∧ r'.stamp = r.stamp ∧
    r'.operator = r.operator ∧ r'.mismatch = r.mismatch

theorem Rec.withHold_exposure (r : Rec) : r.SameAccount (r.withHold .exposure) ∧ (r.withHold .exposure).exposure = true := by
  unfold Rec.withHold
  split
  · exact ⟨⟨rfl, rfl, rfl, rfl, rfl, rfl, rfl, rfl⟩, by assumption⟩
  · exact ⟨⟨rfl, rfl, rfl, rfl, rfl, rfl, rfl, rfl⟩, rfl⟩

theorem Rec.judged_account (r : Rec) (limits : Limits) (down : Bool) : r.SameAccount (r.judged limits down) := by
  unfold Rec.judged
  split
  · exact r.withHold_exposure.1
  · split <;> exact ⟨rfl, rfl, rfl, rfl, rfl, rfl, rfl, rfl⟩

/-- EXPOSURE follows E up and down: it is set from E_HOLD on, and stays down to E_WARN (R52). -/
theorem Rec.judged_exposure {r : Rec} {limits : Limits} (h : limits.eWarn ≤ limits.eHold) :
    (r.judged limits true).exposure = true ↔ limits.eHold ≤ r.e ∨ (r.exposure = true ∧ limits.eWarn ≤ r.e) := by
  unfold Rec.judged
  split
  · rename_i hset
    simp [r.withHold_exposure.2, hset.1]
  · split
    · rename_i hclear
      have hlow : ¬limits.eHold ≤ r.e ∧ ¬limits.eWarn ≤ r.e := by omega
      simp [Rec.setHold, hlow]
    · cases hx : r.exposure <;> simp_all

/-- A settlement writes the account alone. -/
theorem Rec.accrue_shape (r : Rec) (now rate : Nat) : r.accrue now rate = { r with
    e := (r.accrue now rate).e, frac := (r.accrue now rate).frac, stamp := (r.accrue now rate).stamp } := by
  unfold Rec.accrue
  dsimp only
  repeat' split
  all_goals rfl

/-- The record that SET_EXPOSURE leaves, and every other record (R57). -/
theorem Part.writeExposure_rec (n e k : Nat) : (c.writeExposure n e).rec? k =
    if k = n then (c.rec? n).map fun r =>
      Rec.judged { r.accrue c.now (c.rateOf r) with e := e, frac := 0 } c.limits true
    else c.rec? k := by
  have hlimits : ((c.accrueRec n).updRec n fun r => { r with e := e, frac := 0 }).limits = c.limits := by
    obtain ⟨w, q, h⟩ := Part.updRec_eq (c := c.accrueRec n) n fun r => { r with e := e, frac := 0 }
    obtain ⟨w', q', h'⟩ := Part.updRec_eq (c := c) n fun r => r.accrue c.now (c.rateOf r)
    rw [h, Part.accrueRec, h']
    rfl
  unfold Part.writeExposure
  rw [Part.threshold_rec_eq, hlimits]
  split
  · rw [Part.updRec_rec, if_pos rfl, Part.accrueRec_rec, Option.map_map, Option.map_map]
    rfl
  · rename_i h
    rw [Part.updRec_rec, if_neg h, Part.accrueRec, Part.updRec_rec, if_neg h]

end Sys2Proof.Machine
end

section
open Sys2Proof Sys2Proof.Machine

/-- Settles O23: the write is a settlement, the new E, and the threshold rule (`Part.writeExposure_rec`). -/
theorem setExposureAccepted : Obligations.SetExposureAccepted := by
  intro s tag n e id r hl hm hid hs hlimits hf c q
  obtain ⟨hr, -⟩ := Part.rec_of_findId hs hf
  have hrec : c.rec? n = some (Rec.judged { q with e := e, frac := 0 } s.part.limits true) := by
    rw [show c = _ from rfl, Part.writeExposure_rec, if_pos rfl, hr]
    rfl
  obtain ⟨hid', -, hplace, he, hfrac, hstamp, hoper, hmis⟩ :=
    Rec.judged_account { q with e := e, frac := 0 } s.part.limits true
  have hq : q = { r with e := q.e, frac := q.frac, stamp := q.stamp } := r.accrue_shape _ _
  refine ⟨_, hrec, he, hfrac, hstamp, hid'.trans (by rw [hq]), hplace.trans (by rw [hq]), hoper.trans (by rw [hq]),
    hmis.trans (by rw [hq]), ?_, fun k hk => ?_, ?_⟩
  · rw [Rec.judged_exposure (le_of_lt hlimits), show q.exposure = r.exposure by rw [hq]]
  · rw [show c = _ from rfl, Part.writeExposure_rec, if_neg hk]
  · have hacc : (s.part.accrueRec n).rec? n = some q := by
      rw [Part.accrueRec_rec, hr]
      rfl
    refine State.request_accepted hl ?_
    simp only [State.inMode, State.heard_mode, hm, if_true, State.named, hid, State.heard_part, hf]
    unfold Part.exposureBody
    rw [hacc, show (s.part.writeExposure n e).rec? n = _ from hrec]
end

section
/-! SUPPORT. What a command leaves of the live tables, the part time and the stored image (R58, R175, R187 to R191). -/

namespace Sys2Proof.Machine

/-! ### The part time and the live tables -/

/-- What bears on the part time, the live tables and the generations alone is kept by a cascade. -/
theorem free_of_live (P : Nat → Tables → List Nat → Prop) : KeptFree fun c => P c.now c.tables c.gens where
  out h := h
  work h := h
  watch h := h
  putOcc h := h
  setHint h := h
  putFlags h := h
  clearHints h := h
  rescanList h := h
  setCursor h := h
  dropRec h := h
  updRec {c n f} _ h := by
    obtain ⟨w, q, e⟩ := Part.updRec_eq (c := c) n f
    rw [e]
    exact h
  newRec _ _ h := h
  putZone _ h := h
  beginPass _ h := h
  updJob {c j f} _ h := by
    unfold Part.updJob
    split <;> exact h
  newJob _ _ h := h
  dropJob h := h
  putPort h := h
  offers h := h
  putNode h := h
  dropNode h := h
  exchange h := h
  putRobot {c x r} h := by cases x <;> exact h
  filterMoves h := h
  mapMoves _ h := h
  admitMove _ _ _ h := h

/-- Part time runs on from `x`, and the live tables and the generations stay. -/
def Part.RunsOn (x : Nat) (t : Tables) (g : List Nat) (c : Part) : Prop := x ≤ c.now ∧ c.tables = t ∧ c.gens = g

theorem kept_runsOn (x : Nat) (t : Tables) (g : List Nat) : KeptTime (Part.RunsOn x t g) where
  __ := (free_of_live fun now tables gens => x ≤ now ∧ tables = t ∧ gens = g).kept
  ctl h := h
  window h := h
  bus _ h := h
  robots h := h
  now ht h := ⟨h.1.trans ht, h.2⟩

/-- Part time moves on in every write of the blocks but those of a cold start. -/
theorem kept_later (x : Nat) : KeptAll fun c => x ≤ c.now where
  __ := (free_of_live fun now _ _ => x ≤ now).kept
  ctl h := h
  window h := h
  bus _ h := h
  robots h := h
  now ht h := h.trans ht
  tables h := h
  gens h := h
  noMoves h := h
  noJobs h := h
  warmInventory h := h

/-- A commit, a request that makes seven tables live, the end of an image write, or a start. -/
def rewritesTables : Instr → Bool
  | .loadCommit .. | .reloadImage _ | .restoreDefaults _ | .softReset _ | .coldStart .. | .imageWriteDone _ => true
  | _ => false

section Commands

variable {R : Part → Prop} {s t : State}

theorem State.refuse_keeps {r : Result} (h : R s.part) : R (s.refuse r).1.part := h

/-- The commands that rewrite no table, part time apart, keep what every other write of the blocks keeps. -/
theorem KeptTime.exec (K : KeptTime R) {i : Instr} (hi : rewritesTables i = false) (h : R s.part)
    (he : exec i s = .next t) : R t.part := by
  cases i with
  | loadCommit | reloadImage | restoreDefaults | softReset | coldStart | imageWriteDone => cases hi
  | getStatus | queryLocation | queryZone | queryJob | queryPort | queryMove | queryRobot | queryWatch | queryNode =>
    cases he
    exact K.query h
  | getStatusClear =>
    cases he
    split
    · exact h
    · split
      · exact K.overrun h
      · rw [State.transmit_part]; exact K.ctl h
  | declare =>
    cases he
    refine K.request h fun s h => State.inService_keeps h (State.need_keeps h fun _ => State.need_keeps h fun hi => ?_)
    split
    · exact h
    · exact h
    · split
      · exact h
      · exact K.declare ‹_› (by simpa using hi) (Part.declareBar_free ‹_›) h
  | relocate =>
    cases he
    refine K.request h fun s h => State.inService_keeps h (State.named_keeps h fun n r => State.need_keeps h fun _ =>
      State.need_keeps h fun _ => ?_)
    repeat' split
    · exact h
    · exact K.updRec (fun r => ⟨r.relocating_id, r.relocating_place⟩) (K.admitAsk h ‹_›)
    · exact h
  | passThroughMoveLeg | passThroughOrder =>
    cases he
    refine K.request h fun s h => ?_
    repeat' split
    all_goals first
      | exact K.passLeg h | exact State.need_keeps h fun _ => K.passLeg h | exact K.passQueue h | exact h
  | queryReticle =>
    cases he
    refine K.request h fun s h => ?_
    split
    · exact h
    · dsimp only
      split
      · exact K.settle h
      · exact h
  | clearFaultZone =>
    cases he
    exact K.request h fun s h => State.notInStart_keeps h (State.need_keeps h fun _ => State.accept_keeps
      (K.updZone ⟨fun b => ⟨b.1, b.2.1, Nat.zero_le _⟩, id⟩ h))
  | storeImage =>
    cases he
    exact K.request h fun s h => State.inService_keeps h (State.need_keeps h fun _ => h)
  | retire | hold | unhold | clearFault | scanRange | cancelScan | setExposure | deliver
    | returnJob | cancelJob | maskPort | unmaskPort | recoverRobot | setWatch | releaseMove | cancelMove | clearWatchFlags
    | busReset | loadOpen | loadEntry | loadDiscard | enterMaintenance | exitMaintenance | enterStandalone
    | exitStandalone | forceFailSafe | exitFailSafe | unknownRequest =>
    cases he
    refine K.request h fun s h => ?_
    -- the tests that a request stands behind: each of their refusals leaves the blocks as they were
    repeat' first
      | with_reducible exact State.refuse_keeps h
      | with_reducible refine State.inService_keeps h ?_ | with_reducible refine State.notInStart_keeps h ?_
      | with_reducible refine State.inMode_keeps h ?_ | with_reducible refine State.named_keeps h fun _ _ => ?_
      | with_reducible refine State.tableNamed_keeps h fun _ => ?_ | with_reducible refine State.windowMode_keeps h ?_
      | with_reducible refine State.need_keeps h fun _ => ?_ | with_reducible refine State.accept_keeps ?_
      | split
    -- the writes of those that are taken
    all_goals with_reducible first
      | exact K.retire h | exact K.addHold h | exact K.clearHold h | exact K.clearSlot h | exact K.cancelScan h
      | exact K.setCursor h | exact K.writeExposure h
      | exact K.takeJob h | exact K.cancelJob h | exact K.putPort h | exact K.unmask h | exact K.askHand h
      | exact K.setWatchEntry h | exact K.putMove h | exact K.cancelMove h | exact K.watch h | exact K.busReset h
      | exact K.openWindow h | exact K.window h | exact K.resume (K.setMode h) | exact K.beginStandalone h
      | exact K.leaveStandalone h | exact K.enterFailSafe h | exact K.leaveFailSafe h
  | frameCheckFailed =>
    cases he
    split
    · exact K.finish (K.linkFault h)
    · exact h
  | replyOverrun =>
    cases he
    split
    · exact h
    · split
      · exact K.overrun h
      · exact h
  | lineSignalUp =>
    cases he
    split
    · rw [State.transmit_part]; exact h
    · exact h
  | lineSignalLost | abortSymbol => cases he; exact h
  | abortResync | frameTransmitted => cases he; rw [State.transmit_part]; exact h
  | linkSilenceExpiry =>
    cases he
    split
    · exact h
    · exact K.run (K.linkSilence (K.reach h))
  | exchangeAnswered => cases he; exact K.run (K.answered h)
  | exchangeUnanswered => cases he; exact K.run (K.unanswered h)
  | rollRetryExpiry => cases he; exact K.run (K.retryExpired h)
  | moveTimeoutExpiry => cases he; exact K.run (K.moveTimedOut h)
  | yieldExpiry => cases he; exact K.run (K.yieldExpired h)
  | passTimerExpiry => cases he; exact K.run (K.passExpired h)
  | intervalExpiry => cases he; exact K.run (K.intervalExpired h)
  | stepWaitExpiry => cases he; exact K.run (K.stepWaitExpired h)
  | interlockLineChange => cases he; exact K.run (K.lineChange h)

/-- The commands that rewrite tables, a cold start apart, keep what every write of the blocks keeps. -/
theorem KeptAll.rewrites (K : KeptAll R) {i : Instr} (hi : rewritesTables i = true) (hcold : ∀ e p, i ≠ .coldStart e p)
    (h : R s.part) (he : Machine.exec i s = .next t) : R t.part := by
  cases i with
  | coldStart e p => exact absurd rfl (hcold e p)
  | loadCommit => exact K.loadCommitCmd h he
  | imageWriteDone => exact K.imageWriteDoneCmd h he
  | softReset =>
    cases he
    refine K.request h fun s h => State.notInStart_keeps h ?_
    split
    · exact h
    · exact K.warmStartState h
  | reloadImage =>
    cases he
    refine K.request h fun s h => State.inMode_keeps h (State.need_keeps h fun _ => State.need_keeps h fun _ => ?_)
    split
    · exact K.restore (K.setImageBad h)
    · exact K.setImageBad h
  | restoreDefaults =>
    cases he
    exact K.request h fun s h => State.inMode_keeps h (State.need_keeps h fun _ => State.need_keeps h fun _ => K.restore h)
  | _ => cases hi

/-! ### The stored image -/

theorem State.linkFault_image (overrun : Bool) : (s.linkFault overrun).image = s.image := by
  unfold State.linkFault
  split <;> rfl

theorem State.overrun_image : s.overrun.image = s.image := by
  rw [State.overrun, State.finish_image, State.linkFault_image]
  rfl

theorem State.request_bytes {addr tag kind : Nat} {f : State → State × Rsp}
    (hf : ∀ s' : State, (f s').1.image.bytes = s'.image.bytes) :
    (s.request addr tag kind f).image.bytes = s.image.bytes := by
  unfold State.request
  split
  · rfl
  · split
    · rw [State.overrun_image]
    · simpa using hf s.heard

theorem State.query_image {tag kind : Nat} {f : State → Rsp} : (s.query tag kind f).image = s.image := by
  unfold State.query
  split
  · rfl
  · split
    · exact State.overrun_image
    · simp

/-- Only the end of an image write, and a power failure during one, change the bytes of the stored image (R187). -/
theorem exec_image_bytes {i : Instr} (hdone : ∀ ok, i = .imageWriteDone ok → s.image.writing = none)
    (hcold : ∀ e p, i = .coldStart e p → s.image.writing = none) (he : exec i s = .next t) :
    t.image.bytes = s.image.bytes := by
  cases i with
  | getStatus | queryLocation | queryZone | queryJob | queryPort | queryMove | queryRobot | queryWatch | queryNode =>
    cases he
    rw [State.query_image]
  | getStatusClear =>
    cases he
    split
    · rfl
    · split
      · rw [State.overrun_image]
      · simp [State.clearFlags]
  | coldStart e p =>
    cases he
    simp [ImageStore.atPowerOn, hcold e p rfl]
  | imageWriteDone ok =>
    cases he
    rw [hdone ok rfl]
  | unknownRequest =>
    cases he
    exact State.request_bytes fun _ => rfl
  | queryReticle =>
    cases he
    refine State.request_bytes fun s' => ?_
    split
    · rfl
    · dsimp only
      split <;> rfl
  | softReset | declare | retire | hold | unhold | clearFault | clearFaultZone | scanRange | cancelScan
    | setExposure | deliver | returnJob | cancelJob | maskPort | unmaskPort | relocate | recoverRobot | setWatch
    | releaseMove | cancelMove | clearWatchFlags | busReset | loadOpen | loadEntry | loadCommit | loadDiscard | storeImage
    | reloadImage | restoreDefaults | enterMaintenance | exitMaintenance | enterStandalone | exitStandalone
    | forceFailSafe | exitFailSafe | passThroughMoveLeg | passThroughOrder =>
    cases he
    refine State.request_bytes fun s' => ?_
    simp only [State.notInStart, State.inService, State.inMode, State.named, State.tableNamed, State.windowMode,
      State.need, State.takeJob, State.passLeg, State.passQueue, State.restore]
    repeat' split
    all_goals rfl
  | exchangeAnswered | exchangeUnanswered | rollRetryExpiry | moveTimeoutExpiry | yieldExpiry
    | passTimerExpiry | intervalExpiry | stepWaitExpiry | interlockLineChange =>
    cases he
    rw [State.run, State.finish_image]
  | frameCheckFailed =>
    cases he
    split
    · rw [State.finish_image, State.linkFault_image]
    · rfl
  | replyOverrun =>
    cases he
    split
    · rfl
    · split
      · rw [State.overrun_image]
      · rfl
  | lineSignalUp =>
    cases he
    split
    · simp
    · rfl
  | lineSignalLost | abortSymbol => cases he; rfl
  | abortResync | frameTransmitted => cases he; simp
  | linkSilenceExpiry =>
    cases he
    split
    · rfl
    · rw [State.run, State.finish_image]

end Commands

/-- A cold start begins part time at 0 (R190). -/
theorem Part.coldStart_now (image : List Byte) (e p : Bool) : (Part.coldStart image e p).now = 0 :=
  congrArg (fun x => x.1) ((kept_live _).coldStartOf (image := image) (e := e) (p := p) rfl)

end Sys2Proof.Machine
end

section
open Sys2Proof Sys2Proof.Machine

/-- Settles O14: the end of an event writes neither tables nor time (`kept_live`), nor does any command but those that
rewrite the tables (`KeptTime.exec`), and none but a write's end touches the image (`exec_image_bytes`). -/
theorem changesOnlyWhere : Obligations.ChangesOnlyWhere := by
  refine ⟨fun s => ?_, fun i s t he => ⟨fun hi => ?_, ?_, fun hdone hcold => exec_image_bytes hdone hcold he⟩⟩
  · have howed : s.finish.owed = s.owed := State.owed_transmit _
    simp [Part.close_now, Part.close_tables, Part.close_gens, howed]
  · have hplain : rewritesTables i = false := by
      cases i <;> first | rfl | exact hi.elim
    exact ((kept_runsOn s.part.now s.part.tables s.part.gens).exec hplain ⟨Nat.le_refl _, rfl, rfl⟩ he).2
  · split
    · cases he
      simp [Part.close_now, Part.coldStart_now]
    · rename_i hcold
      cases hi : rewritesTables i with
      | true => exact (kept_later s.part.now).rewrites hi (fun e p h => hcold e p h) (Nat.le_refl _) he
      | false => exact ((kept_runsOn s.part.now s.part.tables s.part.gens).exec hi ⟨Nat.le_refl _, rfl, rfl⟩ he).1
end

section
/-! SUPPORT. A move broken off by its timeout (R130): no location that it leaves UNKNOWN comes to be known again, no record
that it leaves IN_DOUBT finds a place, and the robot waits for its recovery. -/

namespace Sys2Proof.Machine

variable {c d e : Part}

/-! ### What the wreck of a move leaves -/

/-- Between `c` and `d` locations have become UNKNOWN and records have gone IN_DOUBT, and nothing has been taken back. -/
structure Part.Doubts (c d : Part) : Prop where
  occ : ∀ a, d.occ a = c.occ a ∨ d.occ a = .unknown
  gone : ∀ n q r, c.rec? n = some q → q.gone r .inDoubt → ∃ q', d.rec? n = some q' ∧ q'.gone r .inDoubt
  out : c.out <+: d.out

theorem Part.Doubts.refl (c : Part) : c.Doubts c := ⟨fun _ => .inl rfl, fun _ q _ hq hr => ⟨q, hq, hr⟩, List.prefix_rfl⟩

theorem Part.Doubts.trans (h : c.Doubts d) (h' : d.Doubts e) : c.Doubts e where
  occ a := (h'.occ a).elim (fun ha => ha ▸ h.occ a) .inr
  gone n q r hq hr := by
    obtain ⟨q', hq', hr'⟩ := h.gone n q r hq hr
    exact h'.gone n q' r hq' hr'
  out := h.out.trans h'.out

theorem Part.Doubts.unknown (h : c.Doubts d) {a : Nat} (ha : c.occ a = .unknown) : d.occ a = .unknown :=
  (h.occ a).elim (·.trans ha) id

theorem Part.doubts_of_inv (hinv : d.inv = c.inv) (hout : c.out <+: d.out) : c.Doubts d where
  occ a := .inl (Part.occ_of_inv hinv a)
  gone n q _ hq hr := ⟨q, (Part.rec_of_inv hinv n).trans hq, hr⟩
  out := hout

theorem Part.setOcc_unknown_doubts (hs : c.sound) (l : Nat) : c.Doubts (c.setOcc l .unknown) where
  occ a := by
    rw [Part.setOcc_occ hs]
    split
    · exact .inr rfl
    · exact .inl rfl
  gone n q r hq hr := ⟨q, (Part.setOcc_rec ..).trans hq, hr⟩
  out := by rw [(Part.setOcc_framed l .unknown).2.2.2]

theorem Part.vacate_unknown_doubts (hs : c.sound) (n : Nat) : c.Doubts (c.vacate n .unknown) := by
  unfold Part.vacate
  repeat' split
  · exact Part.setOcc_unknown_doubts hs _
  · exact .refl c
  · exact .refl c

theorem Part.makeInDoubt_doubts (hs : c.sound) (k : Nat) : c.Doubts (c.makeInDoubt k) := by
  cases hk : c.rec? k with
  | none =>
    have hsame : c.makeInDoubt k = c := by
      unfold Part.makeInDoubt Part.vacate
      rw [hk]
      dsimp only
      unfold Part.updRec
      rw [hk]
      dsimp only
      unfold Part.limboAccount
      rw [hk]
    rw [hsame]
    exact .refl c
  | some r =>
    obtain ⟨q, o, honly, hgone⟩ := Part.makeInDoubt_only hk
    refine (Part.vacate_unknown_doubts hs k).trans
      ⟨fun a => .inl (honly.occ_eq a), fun n p s hp hs' => ?_, honly.out_eq ▸ List.prefix_append _ _⟩
    by_cases hn : n = k
    · subst hn
      obtain rfl : p = r := Option.some.inj (hp.symm.trans ((Part.vacate_rec ..).trans hk))
      obtain ⟨hid, hrest⟩ := hgone
      exact ⟨q, honly.self, hid.trans hs'.1, hrest⟩
    · exact ⟨p, (honly.others n hn).trans hp, hs'⟩

theorem Part.doubt_doubts (hs : c.sound) (l : Nat) : c.Doubts (c.doubt l) := by
  unfold Part.doubt
  split
  · rename_i k _
    have hends : c.MoveOnly (c.endCommitments k .readDisplaced) := Part.endCommitments_moveOnly _ _
    exact (Part.doubts_of_inv hends.inv_eq hends.out_prefix).trans
      (Part.makeInDoubt_doubts (kept_sound.endCommitments hs) k)
  · exact .refl c

/-- A location left UNKNOWN (R130): what stood there is IN_DOUBT, and no move's reticle is spared. -/
theorem Part.clear_unknown (hs : c.sound) (l : Nat) :
    c.Doubts (c.clear l none .unknown) ∧ (c.clear l none .unknown).occ l = .unknown := by
  have heq : c.clear l none .unknown = (c.doubt l).setOcc l .unknown :=
    if_neg fun h => by simp [h.2] at h
  have hd : (c.doubt l).sound := kept_sound.doubt hs
  rw [heq]
  exact ⟨(Part.doubt_doubts hs l).trans (Part.setOcc_unknown_doubts hd l), by rw [Part.setOcc_occ hd, if_pos rfl]⟩

theorem Part.cloud_doubts (hs : c.sound) (l : Nat) : c.Doubts (c.cloud l) ∧ (c.cloud l).occ l = .unknown := by
  obtain ⟨hclear, hocc⟩ := Part.clear_unknown hs l
  have hport : (c.clear l none .unknown).PortOnly (c.cloud l) := Part.leavePort_portOnly l
  exact ⟨hclear.trans (Part.doubts_of_inv hport.inv_eq hport.jobOnly.out_prefix),
    (Part.occ_of_inv hport.inv_eq l).trans hocc⟩

theorem Part.clouds_doubts (ls : List Nat) (hs : c.sound) :
    c.Doubts (ls.foldl Part.cloud c) ∧ ∀ l ∈ ls, (ls.foldl Part.cloud c).occ l = .unknown := by
  induction ls generalizing c with
  | nil => exact ⟨.refl c, nofun⟩
  | cons l ls ih =>
    obtain ⟨hl, hocc⟩ := Part.cloud_doubts hs l
    obtain ⟨hls, hoccs⟩ := ih (kept_sound.cloud hs)
    refine ⟨hl.trans hls, fun a ha => ?_⟩
    rcases List.mem_cons.1 ha with rfl | ha
    · exact hls.unknown hocc
    · exact hoccs a ha

/-- The reticle of a broken-off move IN_DOUBT, ahead of its locations. -/
def Part.reticleLost (c : Part) (m : Move) : Part :=
  match m.reticle with
  | some n => c.makeInDoubt n
  | none => c

theorem Part.reticleLost_spec (hs : c.sound) (m : Move) : (c.reticleLost m).sound ∧ c.Doubts (c.reticleLost m) ∧
    ∀ n r, m.reticle = some n → c.rec? n = some r → ∃ q, (c.reticleLost m).rec? n = some q ∧ q.gone r .inDoubt := by
  unfold Part.reticleLost
  cases m.reticle with
  | none => exact ⟨hs, .refl c, nofun⟩
  | some k =>
    refine ⟨kept_sound.makeInDoubt hs, Part.makeInDoubt_doubts hs k, fun n r hn hr => ?_⟩
    obtain rfl : k = n := Option.some.inj hn
    obtain ⟨q, o, honly, hgone⟩ := Part.makeInDoubt_only hr
    exact ⟨q, honly.self, hgone⟩

/-- What a broken-off move leaves (R130, R136): its reticle IN_DOUBT, its locations and the robot's hand UNKNOWN. -/
theorem Part.wreck_spec (hs : c.sound) (m : Move) :
    (∀ n r, m.reticle = some n → c.rec? n = some r → ∃ q, (c.wreck m).rec? n = some q ∧ q.gone r .inDoubt) ∧
    (∀ l ∈ m.wreckage, (c.wreck m).occ l = .unknown) ∧ (c.wreck m).occ (handOf m.robot) = .unknown ∧
    c.out <+: (c.wreck m).out := by
  obtain ⟨hs1, hdoubts1, hgone⟩ := Part.reticleLost_spec hs m
  obtain ⟨hdoubts2, hocc⟩ := Part.clouds_doubts m.wreckage hs1
  obtain ⟨hdoubts3, hhand⟩ := Part.clear_unknown (Kept0.foldl hs1 (fun _ _ h => kept_sound.cloud h) m.wreckage)
    (handOf m.robot)
  refine ⟨fun n r hn hr => ?_, fun l hl => hdoubts3.unknown (hocc l hl), hhand,
    ((hdoubts1.trans hdoubts2).trans hdoubts3).out⟩
  obtain ⟨q, hq, hqr⟩ := hgone n r hn hr
  exact (hdoubts2.trans hdoubts3).gone n q r hq hqr

/-- The wreck of a move reaches no robot and no move that has been granted. -/
theorem Part.wreck_cascade (hs : c.sound) (m : Move) : c.Cascade (c.wreck m) := by
  have K := cascades_cascade hs
  have h1 : c.Cascade (c.reticleLost m) := by
    unfold Part.reticleLost
    split
    · exact K.makeInDoubt (.refl c)
    · exact .refl c
  exact K.clear (Kept0.foldl h1 (fun _ _ h => K.ports (Part.leavePort_portOnly _) (K.clear h)) _)

/-! ### The timeout -/

theorem Part.Framed.robot_eq (h : c.Framed d) (x : Side) : d.robot x = c.robot x := by
  unfold Part.robot
  rw [h.mv]

/-- The blocks as the robot of a move that has timed out is SUSPECT and told to stop, before the move's end. -/
def Part.stopped (c : Part) (m : Move) : Part :=
  (((c.wreck m).setRobot m.robot { (c.wreck m).robot m.robot with
    state := .suspect, current := none, recovery := m.recoveryOf }).robotOrder m.robot .abortMotion).say
    (.moveFault m.robot (some m.num) none .timeout)

theorem Part.stopped_same (m : Move) : (c.stopped m).inv = (c.wreck m).inv ∧
    (c.stopped m).mv.moves = (c.wreck m).mv.moves ∧
    (c.stopped m).out = (c.wreck m).out ++ [Subject.moveFault m.robot (some m.num) none .timeout] ∧
    (c.stopped m).robot m.robot = { (c.wreck m).robot m.robot with
      state := .suspect, current := none, recovery := m.recoveryOf } := by
  let r : Robot := { (c.wreck m).robot m.robot with state := .suspect, current := none, recovery := m.recoveryOf }
  let b := (c.wreck m).setRobot m.robot r
  obtain ⟨hinv, hmv, -, -, hout⟩ := Part.queueOrder_same (c := b) (b.robotAddr m.robot) ⟨.abortMotion, none⟩
  obtain ⟨hinv', -, -, -, hout', -, hmoves'⟩ := Part.setRobot_same (c := c.wreck m) m.robot r
  refine ⟨hinv.trans hinv', (congrArg MoveScheduler.moves hmv).trans hmoves', congrArg (· ++ [_]) (hout.trans hout'), ?_⟩
  refine (Part.robot_of_mv (c := b) (d := c.stopped m) hmv m.robot).trans ?_
  rw [Part.setRobot_robot, if_pos rfl]

/-- A move that has timed out is in the list no more. -/
theorem Part.timeOut_gone (hs : c.sound) {m : Move} (hm : c.move? m.num = some m) : (c.timeOut m).move? m.num = none := by
  obtain ⟨hmem, -⟩ := (Part.move_eq_some hs.moves.2.1).1 hm
  refine List.find?_eq_none.2 fun k hk hnum => Part.endMove_gone hk ?_
  have hframed : (c.stopped m).Framed (c.timeOut m) := (framed_holds _).endMove (.refl _)
  have hkc : k ∈ c.mv.moves := (Part.wreck_cascade hs m).sublist.subset ((Part.stopped_same m).2.1 ▸ hframed.moves hk)
  exact List.inj_on_of_nodup_map hs.moves.2.1 hkc hmem (by simpa using hnum)

/-- What a timeout leaves (R130). -/
theorem Part.timeOut_spec (hs : c.sound) (m : Move) :
    (c.timeOut m).robot m.robot = { c.robot m.robot with
      state := .suspect, current := none, recovery := m.recoveryOf } ∧
    (∀ n r, m.reticle = some n → c.rec? n = some r → ∃ q, (c.timeOut m).rec? n = some q ∧ q.gone r .inDoubt) ∧
    (∀ l ∈ m.wreckage, (c.timeOut m).occ l = .unknown) ∧ (c.timeOut m).occ (handOf m.robot) = .unknown ∧
    ∃ u v : List Subject, (c.timeOut m).out = c.out ++ u ++ Subject.moveFault m.robot (some m.num) none .timeout :: v := by
  obtain ⟨hinv, -, hout, hrobot⟩ := Part.stopped_same (c := c) m
  obtain ⟨hgone, hocc, hhand, u, hu⟩ := Part.wreck_spec hs m
  have hframed : (c.stopped m).Framed (c.timeOut m) := (framed_holds _).endMove (.refl _)
  have hrecs : (c.timeOut m).inv.recs = (c.stopped m).inv.recs := (ends_recs (c.stopped m).inv.recs).endMove rfl
  have hocc' : ∀ l, (c.timeOut m).occ l = (c.wreck m).occ l := fun l =>
    (hframed.occ_eq l).trans (Part.occ_of_inv hinv l)
  refine ⟨?_, fun n r hn hr => ?_, fun l hl => (hocc' l).trans (hocc l hl), (hocc' _).trans hhand, ?_⟩
  · rw [hframed.robot_eq, hrobot, (Part.wreck_cascade hs m).robot_eq]
  · obtain ⟨q, hq, hqr⟩ := hgone n r hn hr
    refine ⟨q, Eq.trans ?_ hq, hqr⟩
    unfold Part.rec?
    rw [hrecs, hinv]
  · obtain ⟨v, hv⟩ := hframed.out
    exact ⟨u, v, by rw [← hv, hout, ← hu, List.append_assoc, List.append_assoc, List.append_assoc, List.singleton_append]⟩

end Sys2Proof.Machine
end

section
/-! SUPPORT. A zone's standing, and what follows its change: the notices, and the accounts of the reticles in its slots
(R45, R46, R47, R51, R64, R66). -/

namespace Sys2Proof.Machine

variable {c d : Part}

/-! ### The standing -/

/-- Disabled by failure or by a supply fault, of a zone's record `r`. -/
theorem Part.zoneDisabled_putZone (h : c.sound) (z : Nat) (r : Zone) :
    (c.putZone z r).zoneDisabled z = ((c.zoneCfg z).enabled && (r.failures == 2 || r.supplyFault)) := by
  have hput : (c.putZone z r).zone z = r := Store.getD_setD_self h.zones z r
  unfold Part.zoneDisabled
  rw [hput]
  rfl

theorem Part.protective_putZone (h : c.sound) (z : Nat) (r : Zone) : (c.putZone z r).protective z =
    ((c.zoneCfg z).enabled && !r.overdue && !((c.zoneCfg z).enabled && (r.failures == 2 || r.supplyFault))) := by
  have hput : (c.putZone z r).zone z = r := Store.getD_setD_self h.zones z r
  unfold Part.protective
  rw [Part.zoneDisabled_putZone h, hput]
  rfl

theorem Part.zoneSettled_same (z : Nat) : c.zoneSettled z (c.zoneDisabled z) (c.protective z) = c := by
  unfold Part.zoneSettled
  cases c.zoneDisabled z <;> simp

/-- The notice of a zone that enters or leaves PURGE_DISABLED (R66). -/
def Part.standingNotice (c : Part) (z : Nat) (dis : Bool) : List Subject :=
  if c.zoneDisabled z && !dis then [.zoneDisabled z ((c.zone z).failures == 2) (c.zone z).supplyFault]
  else if !c.zoneDisabled z && dis then [.zoneRestored z]
  else []

/-- The blocks as the reticles and the slots of a zone follow the change of its standing. -/
def Part.followed (c : Part) (z : Nat) (prot : Bool) : Part :=
  if c.protective z = prot then c
  else if c.protective z && c.zoneHasVacant z then (c.fixZone z).signal .slotAvailable
  else c.fixZone z

theorem Part.followed_framed (z : Nat) (prot : Bool) : c.Framed (c.followed z prot) := by
  have h0 := Part.Framed.refl c
  unfold Part.followed
  split
  · exact h0
  · split
    · exact (h0.fixZone z).signal
    · exact h0.fixZone z

/-- The notice of a change of standing goes out ahead of everything that follows it. -/
theorem Part.zoneSettled_eq (z : Nat) (dis prot : Bool) : c.zoneSettled z dis prot =
    { c with out := c.out ++ c.standingNotice z dis }.followed z prot := by
  unfold Part.zoneSettled Part.standingNotice
  split
  · rfl
  · split
    · rfl
    · rw [List.append_nil]
      rfl

theorem Part.zoneSettled_framed (z : Nat) (dis prot : Bool) : c.Framed (c.zoneSettled z dis prot) := by
  have h : c.Framed { c with out := c.out ++ c.standingNotice z dis } :=
    { Part.Framed.refl c with out := List.prefix_append _ _ }
  have h' := Part.followed_framed (c := { c with out := c.out ++ c.standingNotice z dis }) z prot
  rw [Part.zoneSettled_eq]
  exact {
    occ := h'.occ, hints := h'.hints, flags := h'.flags, cursor := h'.cursor, zones := h'.zones, tables := h'.tables,
    ctl := h'.ctl, now := h'.now, mv := h'.mv, moves := h'.moves, out := h.out.trans h'.out }

theorem Part.Framed.zone_eq (h : c.Framed d) (z : Nat) : d.zone z = c.zone z := by
  unfold Part.zone
  rw [h.zones]

theorem Part.Framed.protective_eq (h : c.Framed d) (z : Nat) : d.protective z = c.protective z := by
  unfold Part.protective Part.zoneDisabled Part.zoneCfg
  rw [h.zone_eq, h.tables]

theorem Part.Framed.residents_eq (h : c.Framed d) (z : Nat) : d.residents z = c.residents z := by
  unfold Part.residents
  rw [h.occ]

/-! ### A change of a zone's record -/

theorem Part.updZone_framed (z : Nat) (f : Zone → Zone) : (c.putZone z (f (c.zone z))).Framed (c.updZone z f) :=
  Part.zoneSettled_framed ..

theorem Part.putZone_other {y z : Nat} (r : Zone) (h : y ≠ z) : (c.putZone z r).zone y = c.zone y :=
  Store.getD_setD_of_ne _ _ _ h

theorem Part.updZone_other {y z : Nat} (f : Zone → Zone) (h : y ≠ z) : (c.updZone z f).zone y = c.zone y :=
  ((Part.updZone_framed z f).zone_eq y).trans (Part.putZone_other _ h)

/-- A change of a zone's record that leaves its standing as it was has no consequence. -/
theorem Part.updZone_still {z : Nat} {f : Zone → Zone}
    (hdis : (c.putZone z (f (c.zone z))).zoneDisabled z = c.zoneDisabled z)
    (hprot : (c.putZone z (f (c.zone z))).protective z = c.protective z) : c.updZone z f = c.putZone z (f (c.zone z)) := by
  unfold Part.updZone
  rw [← hdis, ← hprot]
  exact Part.zoneSettled_same z

/-- The standing is a matter of OVERDUE, of two failures and of the supply (R62, R64). -/
theorem Part.updZone_quiet (h : c.sound) {z : Nat} {f : Zone → Zone} (hover : (f (c.zone z)).overdue = (c.zone z).overdue)
    (hfail : ((f (c.zone z)).failures == 2) = ((c.zone z).failures == 2))
    (hsupply : (f (c.zone z)).supplyFault = (c.zone z).supplyFault) : c.updZone z f = c.putZone z (f (c.zone z)) := by
  refine Part.updZone_still ?_ ?_
  · rw [Part.zoneDisabled_putZone h, hfail, hsupply]
    rfl
  · rw [Part.protective_putZone h, hfail, hsupply, hover]
    rfl

/-- The notices of a change of a zone's record begin with that of its standing. -/
theorem Part.updZone_out (z : Nat) (f : Zone → Zone) : ∃ v, (c.updZone z f).out =
    c.out ++ (c.putZone z (f (c.zone z))).standingNotice z (c.zoneDisabled z) ++ v := by
  unfold Part.updZone
  rw [Part.zoneSettled_eq]
  obtain ⟨v, hv⟩ := (Part.followed_framed z (c.protective z)).out
  exact ⟨v, hv.symm⟩

/-! ### The accounts of a zone's reticles -/

/-- The record of a reticle whose stamp has been brought in line with its protection (R46). -/
def Part.aligned (c : Part) (n : Nat) (r : Rec) : Rec :=
  match c.sheltered n r, r.stamp with
  | true, some _ => Rec.judged { r.accrue c.now (c.rateOf r) with stamp := none } c.limits false
  | false, none => { r with stamp := some c.now }
  | _, _ => r

theorem Part.aligned_protected {n t : Nat} {r : Rec} (hs : c.sheltered n r = true) (ht : r.stamp = some t) :
    c.aligned n r = Rec.judged { r.accrue c.now (c.rateOf r) with stamp := none } c.limits false := by
  simp only [Part.aligned, hs, ht]

theorem Part.aligned_exposed {n : Nat} {r : Rec} (hs : c.sheltered n r = false) (ht : r.stamp = none) :
    c.aligned n r = { r with stamp := some c.now } := by
  simp only [Part.aligned, hs, ht]

theorem Part.aligned_kept {n : Nat} {r : Rec} (h : c.sheltered n r = r.stamp.isNone) : c.aligned n r = r := by
  unfold Part.aligned
  rw [h]
  cases r.stamp <;> rfl

theorem Part.fixProtection_rec_eq (n k : Nat) :
    (c.fixProtection n).rec? k = if k = n then (c.rec? n).map (c.aligned n) else c.rec? k := by
  unfold Part.fixProtection
  cases hr : c.rec? n with
  | none => exact Part.rec_unchanged hr
  | some r =>
    rw [Option.map_some]
    dsimp only
    split
    · rename_i t hs ht
      have hlimits : ((c.accrueRec n).updRec n fun r => { r with stamp := none }).limits = c.limits := by
        obtain ⟨w, q, h⟩ := Part.updRec_eq (c := c.accrueRec n) n fun r => { r with stamp := none }
        obtain ⟨w', q', h'⟩ := Part.updRec_eq (c := c) n fun r => r.accrue c.now (c.rateOf r)
        rw [h, Part.accrueRec, h']
        rfl
      rw [Part.aligned_protected hs ht, Part.threshold_rec_eq, hlimits]
      by_cases hk : k = n
      · rw [if_pos hk, if_pos hk, Part.updRec_rec, if_pos rfl, Part.accrueRec_rec, hr]
        rfl
      · rw [if_neg hk, if_neg hk, Part.updRec_rec, if_neg hk, Part.accrueRec, Part.updRec_rec, if_neg hk]
    · rename_i hs ht
      rw [Part.updRec_rec, hr, Part.aligned_exposed hs ht]
      rfl
    · rename_i hno hno'
      have hkept : c.sheltered n r = r.stamp.isNone := by
        cases hs : c.sheltered n r <;> cases ht : r.stamp <;> simp_all
      rw [Part.aligned_kept hkept]
      exact Part.rec_unchanged hr

/-- A record is protected by its place, the Location Table and the zones alone (R45). -/
theorem Part.Framed.sheltered_eq (h : c.Framed d) {n : Nat} {q r : Rec} (hp : q.place = r.place) :
    d.sheltered n q = c.sheltered n r := by
  unfold Part.sheltered
  simp only [hp, h.occ_eq, h.flagsOf_eq, h.protective_eq]

theorem Part.Framed.aligned_eq (h : c.Framed d) (n : Nat) (r : Rec) : d.aligned n r = c.aligned n r := by
  unfold Part.aligned Part.rateOf Part.classCfg Part.limits
  rw [h.sheltered_eq rfl, h.now, h.tables]

theorem Part.aligned_place (n : Nat) (r : Rec) : (c.aligned n r).place = r.place := by
  unfold Part.aligned
  split
  · exact (Rec.judged_account ..).2.2.1.trans (r.accrue_keeps ..).2.1
  · rfl
  · rfl

/-- A record in line with its protection stays as it is. -/
theorem Part.aligned_aligned (n : Nat) (r : Rec) : c.aligned n (c.aligned n r) = c.aligned n r := by
  refine Part.aligned_kept (((Part.Framed.refl c).sheltered_eq (Part.aligned_place n r)).trans ?_)
  cases hs : c.sheltered n r <;> cases ht : r.stamp
  · rw [Part.aligned_exposed hs ht]
    rfl
  · rw [Part.aligned_kept (by rw [hs, ht]; rfl), ht]
    rfl
  · rw [Part.aligned_kept (by rw [hs, ht]; rfl), ht]
    rfl
  · rw [Part.aligned_protected hs ht, (Rec.judged_account ..).2.2.2.2.2.1]
    rfl

/-- Records rewritten one by one, each once, or in a way that a second time changes nothing. -/
theorem Part.foldl_rec {F : Part → Nat → Part} {g : Nat → Rec → Rec} (hF : ∀ e n, c.Framed e → c.Framed (F e n))
    (hrec : ∀ e n k, c.Framed e → (F e n).rec? k = if k = n then (e.rec? n).map (g n) else e.rec? k) (ns : List Nat)
    (hns : ns.Nodup ∨ ∀ n r, g n (g n r) = g n r) (hd : c.Framed d) (k : Nat) :
    (ns.foldl F d).rec? k = if k ∈ ns then (d.rec? k).map (g k) else d.rec? k := by
  induction ns generalizing d with
  | nil => rfl
  | cons n ns ih =>
    rw [List.foldl_cons, ih (hns.imp_left List.Nodup.of_cons) (hF d n hd), hrec d n k hd]
    by_cases hk : k = n
    · subst hk
      simp only [List.mem_cons, true_or, if_true, Option.map_map]
      split
      · rename_i hmem
        rcases hns with hns | hns
        · exact absurd hmem (List.nodup_cons.1 hns).1
        · exact congrArg (Option.map · _) (funext (hns k))
      · rfl
    · simp [hk]

theorem Part.fixZone_rec (z k : Nat) : (c.fixZone z).rec? k =
    if k ∈ c.residents z then (c.rec? k).map (c.aligned k) else c.rec? k :=
  Part.foldl_rec (fun _ _ h => h.fixProtection)
    (fun e n k h => by rw [Part.fixProtection_rec_eq, funext (h.aligned_eq n)]) _ (.inr Part.aligned_aligned) (.refl c) k

theorem Part.followed_rec (z k : Nat) (prot : Bool) : (c.followed z prot).rec? k =
    if c.protective z ≠ prot ∧ k ∈ c.residents z then (c.rec? k).map (c.aligned k) else c.rec? k := by
  have hsig : ∀ (e : Part) g, (e.signal g).rec? k = e.rec? k := fun e g => by simp [Part.rec?]
  unfold Part.followed
  by_cases hp : c.protective z = prot
  · rw [if_pos hp, if_neg fun h => h.1 hp]
  · rw [if_neg hp]
    split
    · rw [hsig, Part.fixZone_rec]
      simp [hp]
    · rw [Part.fixZone_rec]
      simp [hp]

/-- What a change of standing leaves of a record: the reticles of the zone follow it where the zone becomes, or ceases to
be, protective (R47). -/
theorem Part.zoneSettled_rec (z k : Nat) (dis prot : Bool) : (c.zoneSettled z dis prot).rec? k =
    if c.protective z ≠ prot ∧ k ∈ c.residents z then (c.rec? k).map (c.aligned k) else c.rec? k := by
  rw [Part.zoneSettled_eq, Part.followed_rec]
  rfl

/-! ### The reticles of a zone -/

theorem Part.mem_residents (h : c.sound) {z n : Nat} :
    n ∈ c.residents z ↔ ∃ l, l < 960 ∧ l / 60 = z ∧ (c.occ l).resident = some n := by
  have hrise := Store.rising_of_wf h.occ
  unfold Part.residents
  rw [List.mem_filterMap]
  constructor
  · rintro ⟨⟨l, o⟩, hmem, ho⟩
    obtain ⟨hmem, hl⟩ := List.mem_filter.1 hmem
    obtain ⟨hslot, hcol⟩ := Bool.and_eq_true_iff.1 hl
    refine ⟨l, of_decide_eq_true hslot, beq_iff_eq.1 hcol, ?_⟩
    rw [show c.occ l = o from Store.getD_of_mem hrise hmem]
    exact ho
  · rintro ⟨l, hl, hcol, ho⟩
    have hfind : Store.find c.inv.occ l = some (c.occ l) := by
      cases hf : Store.find c.inv.occ l with
      | none =>
        unfold Part.occ Store.getD at ho
        rw [hf] at ho
        cases ho
      | some o => simp [Part.occ, Store.getD, hf]
    refine ⟨(l, c.occ l), List.mem_filter.2 ⟨Store.mem_of_find hfind, ?_⟩, ho⟩
    simpa [isSlot, columnOf] using ⟨hl, hcol⟩

/-- While the tables agree, no reticle is found in two slots. -/
theorem Part.residents_nodup (h : c.sound) (ha : c.agrees) (z : Nat) : (c.residents z).Nodup := by
  have hrise := Store.rising_of_wf h.occ
  have hkeys : c.inv.occ.Pairwise fun a b => a.1 < b.1 := List.pairwise_map.1 ((Store.rising_iff _).1 hrise)
  refine List.pairwise_filterMap.2 ((hkeys.imp_of_mem ?_).filter _)
  rintro ⟨l, o⟩ ⟨l', o'⟩ hm hm' hlt n hn n' hn' rfl
  obtain ⟨r, hr, hp⟩ := (ha n l).2 ((congrArg Occ.resident (Store.getD_of_mem hrise hm)).trans hn)
  obtain ⟨r', hr', hp'⟩ := (ha n l').2 ((congrArg Occ.resident (Store.getD_of_mem hrise hm')).trans hn')
  obtain rfl : r = r' := Option.some.inj (hr.symm.trans hr')
  obtain rfl : l = l' := Place.loc.inj (hp.symm.trans hp')
  exact absurd hlt (Nat.lt_irrefl l)

end Sys2Proof.Machine
end

section
/-! SUPPORT. The end of a job and of a step that ON_LIMIT decides (R90, R92). -/

namespace Sys2Proof.Machine

variable {c d e : Part} {j k : Nat} {r : Job} {st : Step}

/-! ### The head step -/

theorem headFrom_step {l : List Step} {i : Nat} (h : headFrom l i = some (k, st)) : ∃ n, k = i + n ∧ l[n]? = some st := by
  induction l generalizing i with
  | nil => cases h
  | cons a t ih =>
    unfold headFrom at h
    split at h
    · obtain ⟨n, hk, hn⟩ := ih h
      exact ⟨n + 1, by omega, hn⟩
    · cases h
      exact ⟨0, rfl, rfl⟩

theorem Job.head_step (h : r.head = some (k, st)) : r.steps[k]? = some st := by
  obtain ⟨n, hk, hn⟩ := headFrom_step h
  rwa [hk, Nat.zero_add]

/-! ### The end of a job -/

/-- What frees a job and says so has it gone and said, whatever stands behind. -/
theorem Part.freed_said {g : Part} {out : JobOutcome} {n : Nat} (he : e.sound)
    (hd : d.jobs.jobs = g.jobs.jobs ∧ g.out <+: d.out) (hjobs : g.jobs.jobs = Store.erase e.jobs.jobs j)
    (hout : g.out = e.out ++ [.jobEnded j r.port r.kind out n]) :
    d.job? j = none ∧ ∃ n, Subject.jobEnded j r.port r.kind out n ∈ d.out := by
  refine ⟨?_, n, hd.2.subset (by simp [hout])⟩
  unfold Part.job?
  rw [hd.1, hjobs]
  exact Store.find_erase_self he.jobs j

theorem Part.followChain_same (p q : Nat) :
    (c.followChain j p q).jobs.jobs = c.jobs.jobs ∧ c.out <+: (c.followChain j p q).out := by
  unfold Part.followChain
  repeat' split
  · exact ⟨rfl, List.prefix_rfl⟩
  · exact ⟨rfl, List.prefix_append _ _⟩
  · exact ⟨rfl, List.prefix_append _ _⟩

/-- The end of a job frees its record and says JOB_ENDED (R90). -/
theorem Part.endJob_ends (hs : c.sound) (hb : c.job? j = some r) (out : JobOutcome) :
    (c.endJob j out).job? j = none ∧ ∃ n, Subject.jobEnded j r.port r.kind out n ∈ (c.endJob j out).out := by
  unfold Part.endJob
  rw [hb]
  dsimp only
  have hidle : (if r.active = true then (c.markSteps j (· ≠ .ended) .cancelled).sendIdle j
      else c.markSteps j (· ≠ .ended) .cancelled).sound := by
    have hmarked : (c.markSteps j (· ≠ .ended) .cancelled).sound := kept_sound.markSteps hs
    split
    · exact kept_sound.sendIdle hmarked
    · exact hmarked
  split
  · split
    · exact Part.freed_said hidle ⟨rfl, List.prefix_rfl⟩ rfl rfl
    · exact Part.freed_said hidle (Part.followChain_same _ _) rfl rfl
  · exact Part.freed_said hidle ⟨rfl, List.prefix_rfl⟩ rfl rfl

/-! ### The end of a step -/

/-- The job as one of its steps has ended. -/
def Job.withEnded (r : Job) (k : Nat) (st : Step) (res : StepResult) : Job :=
  { r with steps := r.steps.set k (st.endedAs res) }

theorem Part.markStep_job (res : StepResult) (n : Option Nat) (hb : c.job? j = some r) (hst : r.steps[k]? = some st)
    (hopen : st.state ≠ .ended) : (c.markStep j k res n).job? j = some (r.withEnded k st res) := by
  rw [Part.markStep_eq res n hb hst hopen]
  unfold Part.setStep Part.updJob
  rw [hb]
  dsimp only
  rw [hst]
  exact Store.find_put_self _ _ _

theorem Job.withEnded_finished (res : StepResult) (hst : r.steps[k]? = some st) :
    (r.withEnded k st res).finished = true ↔ ∀ i x, i ≠ k → r.steps[i]? = some x → x.state = .ended := by
  unfold Job.finished Job.withEnded
  dsimp only
  rw [List.all_eq_true]
  constructor
  · intro h i x hi hx
    refine of_decide_eq_true (h x (List.mem_of_getElem? (i := i) ?_))
    rw [List.getElem?_set_ne (Ne.symm hi)]
    exact hx
  · intro h x hx
    obtain ⟨i, hi⟩ := List.getElem?_of_mem hx
    by_cases hik : i = k
    · subst hik
      rw [List.getElem?_set_self (List.getElem?_eq_some_iff.1 hst).1] at hi
      cases hi
      rfl
    · rw [List.getElem?_set_ne (Ne.symm hik)] at hi
      exact decide_eq_true (h i x hik hi)

/-- How a job goes on after a step that has failed, while no cancellation and no early end stands over it (R90, R92). -/
theorem Part.afterStep_failed (hb : c.job? j = some r) (hcancel : r.cancel = false) (hearly : r.early = false) :
    (r.stop = true → c.afterStep j true = c.endJob j .failed) ∧
    (r.stop = false → r.finished = true → c.afterStep j true = c.endJob j .done) ∧
    (r.stop = false → r.finished = false → (c.afterStep j true).job? j = some r) := by
  have hsig : ∀ g, (c.signal g).job? j = some r := fun g => by simpa [Part.job?] using hb
  unfold Part.afterStep
  rw [hb]
  simp only [hcancel, hearly, Bool.false_eq_true, if_false, true_and]
  refine ⟨fun h => if_pos h, fun h hf => ?_, fun h hf => ?_⟩
  · rw [if_neg (by simp [h]), if_pos hf]
  · rw [if_neg (by simp [h]), if_neg (by simp [hf])]
    split <;> exact hsig _

end Sys2Proof.Machine
end

section
/-! SUPPORT. What reaches the bus when a reticle's account or a zone's standing follows: orders join the queues of the
roster's entries, and nothing else of the entries changes (R156). -/

namespace Sys2Proof.Machine

variable {c d e : Part}

/-- Orders behind those that an entry has queued. -/
def Node.queueing (v : List QOrder) (n : Node) : Node := { n with queue := n.queue ++ v }

/-- `d` differs from `c`, as to the bus, in what has joined the queues of the roster's entries alone. -/
structure Part.Posted (c d : Part) : Prop where
  bus : d.bus = { c.bus with roster := d.bus.roster }
  node : ∀ a, ∃ v, d.node? a = (c.node? a).map (·.queueing v)

theorem Part.Posted.of_bus (h : d.bus = c.bus) : c.Posted d where
  bus := by rw [h]
  node a := ⟨[], by
    unfold Part.node?
    rw [h]
    cases Store.find c.bus.roster a <;> simp [Node.queueing]⟩

theorem Part.Posted.trans (h : c.Posted d) (h' : d.Posted e) : c.Posted e where
  bus := by rw [h'.bus, h.bus]
  node a := by
    obtain ⟨v, hv⟩ := h.node a
    obtain ⟨w, hw⟩ := h'.node a
    refine ⟨v ++ w, ?_⟩
    rw [hw, hv]
    cases c.node? a <;> simp [Node.queueing]

theorem Part.queueOrder_posted (b : Option Nat) (o : QOrder) : c.Posted (c.queueOrder b o) where
  bus := by
    unfold Part.queueOrder
    repeat' split
    all_goals rfl
  node a := by
    cases hn : c.node? a with
    | some n =>
      obtain ⟨v, hv⟩ := Part.queueOrder_extends b o hn
      exact ⟨v, hv⟩
    | none =>
      refine ⟨[], ?_⟩
      unfold Part.queueOrder
      split
      · exact hn
      · rename_i b
        split
        · split
          · rename_i k hk
            have hab : a ≠ b := by
              rintro rfl
              rw [hn] at hk
              cases hk
            exact (Store.find_put_of_ne _ _ hab).trans hn
          · exact hn
        · exact hn

theorem Part.say_posted (s : Subject) : c.Posted (c.say s) := .of_bus rfl

theorem Part.portOrder_posted (p : Nat) (o : Order) : c.Posted (c.portOrder p o) := Part.queueOrder_posted ..

/-! ### The end of a move -/

theorem Part.markStep_bus (j k : Nat) (res : StepResult) (n : Option Nat) : (c.markStep j k res n).bus = c.bus := by
  unfold Part.markStep
  repeat' split
  · rfl
  · rfl
  · exact (Part.setStep_same j k _).2.2.1

theorem Part.markSteps_bus (j : Nat) (sel : StepState → Bool) (res : StepResult) :
    (c.markSteps j sel res).bus = c.bus := by
  unfold Part.markSteps
  split
  · rfl
  · refine Kept0.each (R := fun d => d.bus = c.bus) rfl fun d k hd => ?_
    repeat' split
    all_goals first | exact hd | exact (Part.markStep_bus ..).trans hd

theorem Part.followChain_bus (j p q : Nat) : (c.followChain j p q).bus = c.bus := by
  unfold Part.followChain
  repeat' split
  all_goals rfl

theorem Part.PortOnly.bus_eq (h : c.PortOnly d) : d.bus = c.bus := by
  obtain ⟨q, w, rfl⟩ := h
  rfl

theorem Part.sendIdle_posted (j : Nat) : c.Posted (c.sendIdle j) := by
  unfold Part.sendIdle
  repeat' split
  · exact .of_bus rfl
  · exact .of_bus rfl
  · exact (Part.portOrder_posted _ _).trans (.of_bus rfl)

theorem Part.endJob_posted (j : Nat) (out : JobOutcome) : c.Posted (c.endJob j out) := by
  unfold Part.endJob
  split
  · exact .of_bus rfl
  · rename_i r _
    dsimp only
    have hidle : c.Posted (if r.active = true then (c.markSteps j (· ≠ .ended) .cancelled).sendIdle j
        else c.markSteps j (· ≠ .ended) .cancelled) := by
      have hmarked : c.Posted (c.markSteps j (· ≠ .ended) .cancelled) := .of_bus (Part.markSteps_bus ..)
      split
      · exact hmarked.trans (Part.sendIdle_posted j)
      · exact hmarked
    split
    · split
      · exact hidle.trans (.of_bus rfl)
      · exact hidle.trans (.of_bus (Part.followChain_bus ..))
    · exact hidle.trans (.of_bus rfl)

theorem Part.endStep_posted (j k : Nat) (res : StepResult) (n : Option Nat) (failed : Bool) :
    c.Posted (c.endStep j k res n failed) := by
  refine (Part.Posted.of_bus (Part.markStep_bus j k res n)).trans ?_
  unfold Part.endStep Part.afterStep
  repeat' split
  all_goals first | exact Part.endJob_posted _ _ | exact .of_bus (Part.signal_bus ..) | exact .of_bus rfl

theorem Part.stepMoveEnd_posted (m : Move) (j k : Nat) (res : MoveResult) : c.Posted (c.stepMoveEnd m j k res) := by
  have hends : ∀ d, c.PortOnly d → c.Posted (d.endStep j k res.forStep m.reticle res.failsStep) := fun d hd =>
    (Part.Posted.of_bus hd.bus_eq).trans (Part.endStep_posted ..)
  have hready : ∀ p t, c.PortOnly (c.restoreReady p t) := fun p t => (portSide_portOnly c).restoreReady (.refl c)
  unfold Part.stepMoveEnd
  dsimp only
  split
  · exact .of_bus rfl
  · split
    · split
      · exact .of_bus rfl
      · refine hends _ ?_
        split
        · exact (portSide_portOnly c).returnMoveEnd (hready _ _)
        · exact hready _ _
    · have hreturn : c.Posted (c.returnMoveEnd m res) := .of_bus (Part.returnMoveEnd_portOnly m res).bus_eq
      split
      · exact (hreturn.trans (Part.sendIdle_posted j)).trans (Part.endStep_posted ..)
      · exact hends _ (Part.returnMoveEnd_portOnly m res)

theorem Part.removeMove_bus (m : Move) : (c.removeMove m).bus = c.bus := by
  unfold Part.removeMove
  dsimp only
  repeat' split
  all_goals simp

theorem Part.endMove_posted (m : Move) (res : MoveResult) : c.Posted (c.endMove m res) := by
  refine (Part.Posted.of_bus (Part.removeMove_bus m)).trans ?_
  unfold Part.endMove
  dsimp only
  repeat' split
  all_goals first
    | exact Part.stepMoveEnd_posted .. | exact .of_bus (Part.returnMoveEnd_portOnly m res).bus_eq
    | exact .of_bus (Part.rescan_bus ..) | exact .of_bus rfl

/-! ### A hold, and an account brought in line -/

theorem Part.holdActs_posted (n : Nat) (r : Rec) : c.Posted (c.holdActs n r) := by
  unfold Part.holdActs
  repeat' split
  all_goals first | exact Part.endMove_posted .. | exact Part.portOrder_posted .. | exact .of_bus rfl

theorem Part.signalReturnOf_posted (n : Nat) (r : Rec) : c.Posted (c.signalReturnOf n r) := by
  unfold Part.signalReturnOf
  repeat' split
  all_goals first | exact .of_bus (Part.signal_bus ..) | exact .of_bus rfl

theorem Part.updRec_posted (n : Nat) (f : Rec → Rec) : c.Posted (c.updRec n f) := by
  obtain ⟨w, q, h⟩ := Part.updRec_eq (c := c) n f
  exact .of_bus (by rw [h])

theorem Part.addHold_posted (n : Nat) (b : HoldReason) : c.Posted (c.addHold n b) := by
  unfold Part.addHold
  split
  · exact .of_bus rfl
  · split
    · exact .of_bus rfl
    · dsimp only
      refine Part.Posted.trans ?_ (Part.signalReturnOf_posted _ _)
      have hset : ∀ f, c.Posted (c.updRec n f) := Part.updRec_posted n
      repeat' split
      all_goals first
        | exact hset _ | exact (hset _).trans (Part.say_posted _) | exact (hset _).trans (Part.holdActs_posted ..)
        | exact ((hset _).trans (Part.say_posted _)).trans (Part.holdActs_posted ..)

theorem Part.clearHold_posted (n : Nat) (b : HoldReason) (own : Bool) : c.Posted (c.clearHold n b own) := by
  unfold Part.clearHold
  dsimp only
  repeat' split
  · exact .of_bus rfl
  · exact ((Part.updRec_posted n _).trans (Part.say_posted _)).trans (Part.signalReturnOf_posted _ _)
  · exact (Part.updRec_posted n _).trans (Part.signalReturnOf_posted _ _)
  · exact .of_bus rfl

theorem Part.threshold_posted (n : Nat) (down : Bool) : c.Posted (c.threshold n down) := by
  unfold Part.threshold
  repeat' split
  · exact .of_bus rfl
  · exact Part.addHold_posted ..
  · exact Part.clearHold_posted ..
  · exact .of_bus rfl

theorem Part.fixProtection_posted (n : Nat) : c.Posted (c.fixProtection n) := by
  unfold Part.fixProtection
  repeat' split
  · exact .of_bus rfl
  · exact ((Part.updRec_posted n _).trans (Part.updRec_posted n _)).trans (Part.threshold_posted n false)
  · exact Part.updRec_posted n _
  · exact .of_bus rfl

theorem Part.fixZone_posted (z : Nat) : c.Posted (c.fixZone z) :=
  Kept0.foldl (.of_bus rfl) (fun _ n h => h.trans (Part.fixProtection_posted n)) _

theorem Part.followed_posted (z : Nat) (prot : Bool) : c.Posted (c.followed z prot) := by
  unfold Part.followed
  repeat' split
  · exact .of_bus rfl
  · exact (Part.fixZone_posted z).trans (.of_bus (Part.signal_bus ..))
  · exact Part.fixZone_posted z

theorem Part.updZone_posted (z : Nat) (f : Zone → Zone) : c.Posted (c.updZone z f) := by
  unfold Part.updZone
  rw [Part.zoneSettled_eq]
  have hsame : ∀ d : Part, d.bus = c.bus → c.Posted (d.followed z (c.protective z)) := fun d hd =>
    (Part.Posted.of_bus hd).trans (Part.followed_posted z _)
  exact hsame _ rfl

end Sys2Proof.Machine
end

section
/-! SUPPORT. The timers of the blocks (R46, R63, R72, R92, R95, R120, R130, R159). -/

namespace Sys2Proof.Machine

variable {c d : Part} {s : State}

/-! ### The expiries of running timers -/

theorem State.run_eq {f : Part → Part} {p : Part} (h : f s.part = p) :
    Host.Outcome.next (s.run f) = (.next (State.finish { s with part := p }) : Out) := by
  subst h
  rfl

theorem Part.retryExpired_running {t : Nat} (h : c.bus.retry = some t) : c.retryExpired = (c.reach t).retryPassed := by
  unfold Part.retryExpired
  rw [h]

theorem Part.moveTimedOut_running {n t t0 : Nat} {m : Move} (hm : c.move? n = some m) (hg : m.granted = true)
    (ht : m.dispatched = some (t0, t)) : c.moveTimedOut n = (c.reach t).timeOut m := by
  unfold Part.moveTimedOut
  rw [hm]
  dsimp only
  rw [ht]
  exact if_pos hg

theorem Part.yieldExpired_running {x : Side} {y t : Nat} (h : (c.robot x).yieldTo = some (y, t)) : c.yieldExpired x =
    ((c.reach t).setRobot x { c.robot x with
      state := if (c.robot x).state = .disabled then .disabled else .suspect, yieldTo := none }).say
      (.moveFault x none none .timeout) := by
  unfold Part.yieldExpired
  dsimp only
  rw [h]

theorem Part.stepWaitExpired_running {n k t : Nat} {r : Job} {st : Step} (hr : c.job? n = some r)
    (hh : r.head = some (k, st)) (hw : st.state = .waiting) (ht : st.expiry = some t) :
    c.stepWaitExpired n = (c.reach t).endStep n k .waitTimeout none true := by
  unfold Part.stepWaitExpired
  rw [hr, Option.bind_some, hh]
  dsimp only
  rw [hw, ht]

theorem Part.passExpired_running {n : Nat} {q : Pass} (h : (c.zone n).pass = some q) :
    c.passExpired n = (c.reach (q.issued + q.limit)).passFails n .timeout := by
  unfold Part.passExpired
  rw [h]

theorem Part.intervalExpired_running {n t : Nat} (h : (c.zone n).timer = some t) :
    c.intervalExpired n = (c.reach t).intervalPassed n := by
  unfold Part.intervalExpired
  rw [h]

/-! ### A move -/

/-- The locations of a broken-off move that is no scan (R130). -/
theorem Move.mem_wreckage {m : Move} (h : m.kind ≠ .scan) (l : Nat) :
    l ∈ m.wreckage ↔ m.src = some l ∨ m.dst = some l := by
  rw [Move.wreckage, if_neg h, List.mem_append, Option.mem_toList, Option.mem_toList]

theorem Move.recoveryOf_scan {m : Move} (h : m.kind = .scan) : m.recoveryOf = m.dst.toList := if_pos h

theorem Move.recoveryOf_other {m : Move} (h : m.kind ≠ .scan) : m.recoveryOf = m.wreckage := if_neg h

/-! ### A step's wait -/

/-- A step that has waited too long ends, and ON_LIMIT decides (R92, R95). -/
theorem Part.stepWait_ends {j k : Nat} {r : Job} {st : Step} (hs : c.sound) (hr : c.job? j = some r)
    (hst : r.steps[k]? = some st) (hopen : st.state ≠ .ended) (hcancel : r.cancel = false) (hearly : r.early = false)
    (res : StepResult) (n : Option Nat) :
    (r.stop = true → (c.endStep j k res n true).job? j = none ∧
      ∃ i, Subject.jobEnded j r.port r.kind .failed i ∈ (c.endStep j k res n true).out) ∧
    (r.stop = false → (r.withEnded k st res).finished = true → (c.endStep j k res n true).job? j = none ∧
      ∃ i, Subject.jobEnded j r.port r.kind .done i ∈ (c.endStep j k res n true).out) ∧
    (r.stop = false → (r.withEnded k st res).finished = false →
      (c.endStep j k res n true).job? j = some (r.withEnded k st res)) := by
  have hmark := Part.markStep_job res n hr hst hopen
  have hsound : (c.markStep j k res n).sound := kept_sound.markStep hs
  obtain ⟨hstop, hdone, hgoes⟩ := Part.afterStep_failed hmark hcancel hearly
  refine ⟨fun h => ?_, fun h hf => ?_, fun h hf => hgoes h hf⟩
  · rw [Part.endStep, hstop h]
    exact Part.endJob_ends hsound hmark .failed
  · rw [Part.endStep, hdone h hf]
    exact Part.endJob_ends hsound hmark .done

/-! ### A pass and an interval -/

theorem Part.queueOrder_zone (a : Option Nat) (o : QOrder) (z : Nat) : (c.queueOrder a o).zone z = c.zone z := by
  unfold Part.queueOrder
  repeat' split
  all_goals rfl

/-- The record of a zone whose pass has failed (R72). -/
def Zone.failing (r : Zone) : Zone :=
  { r with pass := none, failedFlag := true, failures := min 2 (r.failures + 1) }

/-- A failed pass ends, with PURGE_FAILED ahead of what follows from the zone's standing (R72). -/
theorem Part.passFails_spec (hs : c.sound) {z : Nat} {q : Pass} (hq : (c.zone z).pass = some q) (cause : PassFail) :
    (c.passFails z cause).zone z = (c.zone z).failing ∧
    (∀ y, y ≠ z → (c.passFails z cause).zone y = c.zone y) ∧
    ∃ l, (c.passFails z cause).out =
      c.out ++ Subject.purgeFailed z q.number cause (min 2 ((c.zone z).failures + 1)) :: l := by
  let e := c.say (.purgeFailed z q.number cause (min 2 ((c.zone z).failures + 1)))
  let d := e.updZone z fun r => { r with pass := none, failedFlag := true, failures := min 2 ((c.zone z).failures + 1) }
  have hsame : (∀ y, (c.passFails z cause).zone y = d.zone y) ∧ (c.passFails z cause).out = d.out := by
    unfold Part.passFails
    rw [hq]
    dsimp only
    split
    · exact ⟨Part.queueOrder_zone _ _, (Part.queueOrder_same _ _).2.2.2.2⟩
    · exact ⟨fun _ => rfl, rfl⟩
  obtain ⟨hzone, hout⟩ := hsame
  have hesound : e.sound := kept_sound.say hs
  refine ⟨(hzone z).trans (Part.updZone_zone hesound z _), fun y hy => (hzone y).trans (Part.updZone_other _ hy), ?_⟩
  obtain ⟨l, hl⟩ := (Part.updZone_framed (c := e) z _).out
  exact ⟨l, by rw [hout, ← hl, Part.putZone_out, Part.say_out, List.append_assoc, List.singleton_append]⟩

/-- On a timeout PURGE_ABORT stands last in the manifold's queue (R72). -/
theorem Part.passFails_abort {z : Nat} {q : Pass} {n : Node} (hq : (c.zone z).pass = some q)
    (ha : (c.planOf (c.zoneCfg z).manifold).kind ≠ .none) (hn : c.node? (c.zoneCfg z).manifold = some n) :
    ∃ n', (c.passFails z .timeout).node? (c.zoneCfg z).manifold = some n' ∧
      n'.queue.getLast? = some ⟨.purgeAbort (c.zoneCfg z).channel, none⟩ := by
  let e := c.say (.purgeFailed z q.number .timeout (min 2 ((c.zone z).failures + 1)))
  let d := e.updZone z fun r => { r with pass := none, failedFlag := true, failures := min 2 ((c.zone z).failures + 1) }
  have htables : d.tables = c.tables := (Part.updZone_framed (c := e) z _).tables
  obtain ⟨v, hv⟩ := ((Part.say_posted (c := c) _).trans (Part.updZone_posted (c := e) z _)).node (c.zoneCfg z).manifold
  rw [hn] at hv
  have heq : c.passFails z .timeout = d.manifoldOrder z (.purgeAbort (c.zoneCfg z).channel) := by
    unfold Part.passFails
    rw [hq]
    rfl
  have hcfg : d.zoneCfg z = c.zoneCfg z := by
    unfold Part.zoneCfg
    rw [htables]
  have hplan : (d.planOf (c.zoneCfg z).manifold).kind ≠ .none := by
    unfold Part.planOf at *
    rwa [htables]
  rw [heq, Part.manifoldOrder, hcfg]
  exact ⟨_, Part.queueOrder_node _ hplan hv, by simp⟩

/-- Where a zone becomes OVERDUE, each of its reticles goes unprotected from then on (R46, R63). -/
theorem Part.overdue_stamps (hs : c.sound) {z l n : Nat} {q : Rec} {f : Zone → Zone} (hf : (f (c.zone z)).overdue = true)
    (hp : c.protective z = true) (hl : l < 960) (hz : l / 60 = z) (hn : (c.occ l).resident = some n)
    (hq : c.rec? n = some q) (hplace : q.place = .loc l) (hstamp : q.stamp = none) :
    (c.updZone z f).rec? n = some { q with stamp := some c.now } := by
  let e := c.putZone z (f (c.zone z))
  have hoff : e.protective z = false := by
    rw [Part.protective_putZone hs, hf]
    simp
  have hres : n ∈ e.residents z := (Part.mem_residents hs).2 ⟨l, hl, hz, hn⟩
  have hshel : e.sheltered n q = false := by
    unfold Part.sheltered
    rw [hplace]
    simp [columnOf, hz, hoff]
  have hrec : (c.updZone z f).rec? n = (e.rec? n).map (e.aligned n) :=
    (Part.zoneSettled_rec ..).trans (if_pos ⟨by rw [hoff, hp]; simp, hres⟩)
  rw [hrec, show e.rec? n = some q from hq, Option.map_some, Part.aligned_exposed hshel hstamp]
  rfl

end Sys2Proof.Machine
end

section
open Sys2Proof Sys2Proof.Machine

/-- Settles O44: a running timer's expiry is the one action that the model gives it (`State.run_eq`); what a move's timeout,
a step's wait, a pass and an interval leave follows from the rules of their ends. -/
theorem timerExpiries : Obligations.TimerExpiries := by
  refine ⟨fun s n t => ?_, fun c m hs hm hg => ?_, fun c j k r st hs hr hhead hw hcancel hearly => ?_,
    fun c z q hs hz hq => ?_, fun c z hs hz => ?_⟩
  · refine ⟨fun h => State.run_eq (Part.retryExpired_running h),
      fun m t0 hm hg ht => State.run_eq (Part.moveTimedOut_running hm hg ht),
      fun x y h => State.run_eq (Part.yieldExpired_running h),
      fun r k st hr hh hw ht => State.run_eq (Part.stepWaitExpired_running hr hh hw ht), fun q hq ht => ?_,
      fun h => State.run_eq (Part.intervalExpired_running h)⟩
    subst ht
    exact State.run_eq (Part.passExpired_running hq)
  · intro d named
    obtain ⟨hrobot, hgone, hwreck, hhand, hout⟩ := Part.timeOut_spec hs m
    refine ⟨Part.timeOut_gone hs hm, ⟨m.recoveryOf, hrobot, Move.recoveryOf_scan, fun h x => ?_⟩, hgone,
      fun h l hl => hwreck l ((Move.mem_wreckage h l).2 hl), hhand, hout⟩
    rw [Move.recoveryOf_other h]
    exact Move.mem_wreckage h x
  · have hst := Job.head_step hhead
    have hopen : st.state ≠ .ended := by simp [hw]
    obtain ⟨hstop, hdone, hgoes⟩ := Part.stepWait_ends hs hr hst hopen hcancel hearly .waitTimeout none
    refine ⟨by simpa using Part.endStep_out .waitTimeout none true hr hst hopen, hstop,
      fun h hall => hdone h ((Job.withEnded_finished _ hst).2 hall), fun h hsome => ?_⟩
    obtain ⟨i, x, hi, hx, hxopen⟩ := hsome
    have hunfinished : (r.withEnded k st .waitTimeout).finished = false :=
      Bool.eq_false_iff.2 fun hf => hxopen ((Job.withEnded_finished _ hst).1 hf i x hi hx)
    exact ⟨_, hgoes h hunfinished, fun i hi => List.getElem?_set_ne (Ne.symm hi),
      List.getElem?_set_self (List.getElem?_eq_some_iff.1 hst).1⟩
  · obtain ⟨hzone, -, hout⟩ := Part.passFails_spec hs hq .timeout
    exact ⟨hzone, hout, fun n ha hn => Part.passFails_abort hq ha hn⟩
  · intro d r
    have hd : d = _ := Part.intervalPassed.eq_def c z
    refine ⟨fun hb => ?_, fun hb hover => ?_, fun hb hover => ?_⟩
    · rw [hd, if_pos hb]
      exact Part.updZone_zone hs z _
    · rw [hd, if_neg (not_lt.2 hb), if_pos hover]
      exact Part.updZone_quiet hs rfl rfl rfl
    · have hsaid : (c.say (.purgeOverrun z)).sound := kept_sound.say hs
      rw [hd, if_neg (not_lt.2 hb), if_neg (by simpa using hover)]
      refine ⟨Part.updZone_zone hsaid z _, ?_, fun hp l n q hl hz hn hq hplace hstamp =>
        Part.overdue_stamps hsaid rfl hp hl hz hn hq hplace hstamp⟩
      obtain ⟨l, hl⟩ := (Part.updZone_framed (c := c.say (.purgeOverrun z)) z _).out
      exact ⟨l, by rw [← hl, Part.putZone_out, Part.say_out, List.append_assoc, List.singleton_append]⟩
end

section
/-! SUPPORT. The purge supply: which zones are closed to moves and which are candidates for a pass, and the issue of one
(R67 to R69). -/

namespace Sys2Proof.Machine

variable {c : Part} {y z k : Nat}

/-! ### The state of a zone -/

theorem Part.zoneDisabled_iff (z : Nat) : c.zoneDisabled z = true ↔
    (c.zoneCfg z).enabled = true ∧ ((c.zone z).failures = 2 ∨ (c.zone z).supplyFault = true) := by
  simp [Part.zoneDisabled]

/-- A zone that is purge enabled, and disabled neither by failure nor by its supply (R77). -/
theorem Part.zoneRequired_iff (z : Nat) : c.zoneRequired z = true ↔
    (c.zoneCfg z).enabled = true ∧ (c.zone z).failures ≠ 2 ∧ (c.zone z).supplyFault = false := by
  unfold Part.zoneRequired Part.zoneDisabled
  cases (c.zoneCfg z).enabled <;> simp

/-- A zone is closed to moves while PURGING, or URGENT and scheduled (R69). -/
theorem Part.zoneClosed_iff (z : Nat) : c.zoneClosed z = true ↔ ¬c.zoneDisabled z = true ∧
    ((c.zone z).pass ≠ none ∨ ((c.zoneCfg z).enabled = true ∧ (c.zone z).b ≤ -3)) := by
  unfold Part.zoneClosed Part.zoneState
  by_cases hdis : c.zoneDisabled z = true
  · simp [hdis]
  · cases hpass : (c.zone z).pass with
    | some q => simp [hdis]
    | none =>
      by_cases hurgent : (c.zone z).b ≤ -3
      · simp [hdis, hurgent]
      · by_cases hdue : (c.zone z).b ≤ -1 <;> simp [hdis, hurgent, hdue]

/-- Another pass is in progress on the zone's channel (R67). -/
theorem Part.channelBusy_iff (z : Nat) : c.channelBusy z = false ↔ ∀ x < 16, x ≠ z →
    (c.zoneCfg x).manifold = (c.zoneCfg z).manifold → (c.zoneCfg x).channel = (c.zoneCfg z).channel →
      (c.zone x).pass = none := by
  unfold Part.channelBusy
  rw [List.any_eq_false]
  refine forall_congr' fun x => ?_
  cases (c.zone x).pass <;> simp

/-- A resident of the zone stands at E_WARN or above it (R53). -/
theorem Part.wanting_iff (h : c.sound) (z : Nat) : c.wanting z = true ↔ ∃ l n r, l < 960 ∧ l / 60 = z ∧
    (c.occ l).resident = some n ∧ c.rec? n = some r ∧ c.limits.eWarn ≤ r.e := by
  unfold Part.wanting
  rw [List.any_eq_true]
  constructor
  · rintro ⟨n, hn, hwarn⟩
    obtain ⟨l, hl, hz, hres⟩ := (Part.mem_residents h).1 hn
    cases hr : c.rec? n with
    | none => simp [hr] at hwarn
    | some r => exact ⟨l, n, r, hl, hz, hres, hr, by simpa [hr] using hwarn⟩
  · rintro ⟨l, n, r, hl, hz, hres, hr, hwarn⟩
    exact ⟨n, (Part.mem_residents h).2 ⟨l, hl, hz, hres⟩, by simpa [hr] using hwarn⟩

/-! ### Candidates -/

/-- What every candidate meets, whatever its class (R67). -/
def Part.passOpen (c : Part) (z : Nat) : Prop := c.zoneRequired z = true ∧ (c.zone z).pass = none ∧
  c.ctl.stop = false ∧ c.ctl.mode ≠ .start ∧ c.channelBusy z = false

/-- No move of the list touches the zone. -/
def Part.untouched (c : Part) (z : Nat) : Prop := ∀ m ∈ c.mv.moves, m.touches z = false

/-- No granted move touches the zone. -/
def Part.unvisited (c : Part) (z : Nat) : Prop := ∀ m ∈ c.mv.moves, m.granted = true → m.touches z = false

/-- A zone's class as a candidate, 0 urgent, 1 due, 2 pull-in (R67). -/
def Part.classed (c : Part) (z k : Nat) : Prop :=
  (k = 0 ∧ (c.zone z).b ≤ -3 ∧ c.unvisited z) ∨ (k = 1 ∧ -3 < (c.zone z).b ∧ (c.zone z).b < 0 ∧ c.untouched z) ∨
    (k = 2 ∧ 0 ≤ (c.zone z).b ∧ c.untouched z ∧
      (((c.zone z).b < 4 ∧ c.wanting z = true) ∨ (c.ctl.pending = true ∧ (c.zone z).mark = false)))

theorem Part.candidacy_iff (z k : Nat) : c.candidacy z = some k ↔ c.passOpen z ∧ c.classed z k := by
  have huntouched : c.untouched z ↔ (c.mv.moves.any fun m => m.touches z) = false := by
    simp [Part.untouched, List.any_eq_false]
  have hunvisited : c.unvisited z ↔ (c.mv.moves.any fun m => m.granted && m.touches z) = false := by
    simp [Part.unvisited, List.any_eq_false]
  unfold Part.candidacy
  dsimp only
  split
  · rename_i hno
    have hclosed : ¬c.passOpen z := by
      rintro ⟨hreq, hpass, hstop, hmode, hbusy⟩
      simp [hreq, hpass, hbusy, hstop, hmode] at hno
    simp [hclosed]
  · rename_i hyes
    simp only [Bool.or_eq_true, decide_eq_true_eq, not_or, Bool.not_eq_true, Bool.not_eq_false'] at hyes
    obtain ⟨⟨⟨⟨hreq, hpass⟩, hbusy⟩, hstop⟩, hmode⟩ := hyes
    have hpass' : (c.zone z).pass = none := by simpa using hpass
    have hopen : c.passOpen z := ⟨hreq, hpass', hstop, hmode, hbusy⟩
    have hdis : c.zoneDisabled z = false := by simpa using (Bool.and_eq_true_iff.1 hreq).2
    simp only [hopen, true_and]
    unfold Part.zoneState Part.classed
    rw [huntouched, hunvisited]
    by_cases hurgent : (c.zone z).b ≤ -3
    · have hlow : ¬-3 < (c.zone z).b ∧ ¬0 ≤ (c.zone z).b := by omega
      simp [hdis, hpass, hurgent, hlow, eq_comm (a := k), and_comm]
    · by_cases hdue : (c.zone z).b ≤ -1
      · have hlow : -3 < (c.zone z).b ∧ (c.zone z).b < 0 ∧ ¬0 ≤ (c.zone z).b := by omega
        simp [hdis, hpass, hurgent, hdue, hlow, eq_comm (a := k), and_comm]
      · have hlow : ¬(c.zone z).b < 0 ∧ 0 ≤ (c.zone z).b := by omega
        simp [hdis, hpass, hurgent, hdue, hlow, eq_comm (a := k), and_comm]

/-! ### The first candidate -/

/-- `z`, a candidate of class `k`, stands ahead of every candidate below `n` (R68). -/
def Part.leads (c : Part) (n z k : Nat) : Prop := ∀ y < n, ∀ i, c.candidacy y = some i →
  k < i ∨ (k = i ∧ ((c.zone z).b < (c.zone y).b ∨ ((c.zone z).b = (c.zone y).b ∧ z ≤ y)))

/-- The better of a candidate found before and the next zone (R68). -/
def Part.better (c : Part) (best : Option Nat) (z : Nat) : Option Nat :=
  match c.candidacy z, best with
  | none, _ => best
  | some _, none => some z
  | some k, some y =>
    match c.candidacy y with
    | some l => if k < l ∨ (k = l ∧ (c.zone z).b < (c.zone y).b) then some z else best
    | none => some z

theorem Part.firstCandidate_eq : c.firstCandidate = (List.range 16).foldl c.better none := rfl

/-- The search of the first `n` zones finds the candidate that leads them, where there is one. -/
theorem Part.better_spec (n : Nat) :
    ((List.range n).foldl c.better none = none ∧ ∀ y < n, c.candidacy y = none) ∨
    ∃ z k, (List.range n).foldl c.better none = some z ∧ z < n ∧ c.candidacy z = some k ∧ c.leads n z k := by
  induction n with
  | zero => exact .inl ⟨rfl, nofun⟩
  | succ n ih =>
    rw [List.range_succ, List.foldl_append, List.foldl_cons, List.foldl_nil]
    have hlast : ∀ {y}, y < n + 1 → y < n ∨ y = n := fun h => by omega
    cases hn : c.candidacy n with
    | none =>
      have hsame : ∀ best, c.better best n = best := fun best => by simp only [Part.better, hn]
      rw [hsame]
      refine ih.imp (fun ⟨hnone, hall⟩ => ⟨hnone, fun y hy => ?_⟩) fun ⟨z, k, hz, hlt, hk, hleads⟩ =>
        ⟨z, k, hz, by omega, hk, fun y hy i hi => ?_⟩
      · rcases hlast hy with hy | rfl
        · exact hall y hy
        · exact hn
      · rcases hlast hy with hy | rfl
        · exact hleads y hy i hi
        · exact nomatch hn.symm.trans hi
    | some k =>
      right
      rcases ih with ⟨hnone, hall⟩ | ⟨z, l, hz, hlt, hl, hleads⟩
      · rw [hnone]
        refine ⟨n, k, by simp only [Part.better, hn], by omega, hn, fun y hy i hi => ?_⟩
        rcases hlast hy with hy | rfl
        · exact nomatch (hall y hy).symm.trans hi
        · exact .inr ⟨Option.some.inj (hn.symm.trans hi), .inr ⟨rfl, Nat.le_refl _⟩⟩
      · rw [hz]
        have hstep : c.better (some z) n =
            if k < l ∨ (k = l ∧ (c.zone n).b < (c.zone z).b) then some n else some z := by
          simp only [Part.better, hn, hl]
        rw [hstep]
        split
        · rename_i hahead
          refine ⟨n, k, rfl, by omega, hn, fun y hy i hi => ?_⟩
          rcases hlast hy with hy | rfl
          · have := hleads y hy i hi
            omega
          · exact .inr ⟨Option.some.inj (hn.symm.trans hi), .inr ⟨rfl, Nat.le_refl _⟩⟩
        · rename_i hbehind
          refine ⟨z, l, rfl, by omega, hl, fun y hy i hi => ?_⟩
          rcases hlast hy with hy | rfl
          · exact hleads y hy i hi
          · obtain rfl : k = i := Option.some.inj (hn.symm.trans hi)
            omega

/-- The first candidate is the one that leads the sixteen zones (R68). -/
theorem Part.firstCandidate_leads (hz : z < 16) (hk : c.candidacy z = some k) (hleads : c.leads 16 z k) :
    c.firstCandidate = some z := by
  rw [Part.firstCandidate_eq]
  rcases c.better_spec 16 with ⟨-, hall⟩ | ⟨y, i, hy, hlt, hi, hfirst⟩
  · exact nomatch (hall z hz).symm.trans hk
  · have h1 := hleads y hlt i hi
    have h2 := hfirst z hz k hk
    obtain rfl : y = z := by omega
    exact hy

theorem Part.firstCandidate_none (h : ∀ y < 16, c.candidacy y = none) : c.firstCandidate = none := by
  rw [Part.firstCandidate_eq]
  rcases c.better_spec 16 with ⟨hnone, -⟩ | ⟨y, i, -, hlt, hi, -⟩
  · exact hnone
  · exact nomatch (h y hlt).symm.trans hi

/-! ### The issue of a pass -/

/-- The record of a zone as a pass is issued to it (R68). -/
def Part.issued (c : Part) (z : Nat) : Zone := { c.zone z with
  pass := some ⟨(c.zone z).nextPass, c.now, c.sched.purgeMax⟩, nextPass := ((c.zone z).nextPass + 1) % 256 }

theorem Part.issuePass_spec (h : c.sound) (z : Nat) : (c.issuePass z).zone z = c.issued z ∧
    (∀ y, y ≠ z → (c.issuePass z).zone y = c.zone y) ∧ (c.issuePass z).tables = c.tables ∧
    (c.issuePass z).out = c.out := by
  obtain ⟨-, -, htables, -, hout⟩ := Part.queueOrder_same (c := c.putZone z (c.issued z))
    (some ((c.putZone z (c.issued z)).zoneCfg z).manifold)
    ⟨.purgeStart (c.zoneCfg z).channel (c.zone z).nextPass, none⟩
  have hzone : ∀ y, (c.issuePass z).zone y = (c.putZone z (c.issued z)).zone y := Part.queueOrder_zone _ _
  exact ⟨(hzone z).trans (Store.getD_setD_self h.zones z _), fun y hy => (hzone y).trans (Part.putZone_other _ hy),
    htables, hout⟩

/-- A zone that a pass is issued to is closed (R69). -/
theorem Part.issuePass_closed (h : c.sound) (hon : c.zoneRequired z = true) : (c.issuePass z).zoneClosed z = true := by
  obtain ⟨hzone, -, htables, -⟩ := Part.issuePass_spec h z
  obtain ⟨-, hfail, hsupply⟩ := (Part.zoneRequired_iff z).1 hon
  rw [Part.zoneClosed_iff, Part.zoneDisabled_iff, hzone]
  exact ⟨by simp [Part.issued, hfail, hsupply], .inl (by simp [Part.issued])⟩

theorem Part.issuePass_node {n : Node} (ha : (c.planOf (c.zoneCfg z).manifold).kind ≠ .none)
    (hn : c.node? (c.zoneCfg z).manifold = some n) : (c.issuePass z).node? (c.zoneCfg z).manifold = some { n with
      queue := n.queue ++ [⟨.purgeStart (c.zoneCfg z).channel (c.zone z).nextPass, none⟩] } :=
  Part.queueOrder_node (c := c.putZone z (c.issued z)) _ ha hn

end Sys2Proof.Machine
end

section
/-! SUPPORT. Supply faults, the loss of a manifold, and seal faults (R66, R75, R76). -/

namespace Sys2Proof.Machine

variable {c d e : Part} {a l y z : Nat}

/-! ### The supply of a zone -/

/-- A channel is usable: named, of a manifold that is PRESENT, and within its capability (R66). -/
theorem Part.supplyBad_iff (z : Nat) : c.supplyBad z = false ↔ (c.zoneCfg z).manifold ≠ 0 ∧
    ∃ n k, c.node? (c.zoneCfg z).manifold = some n ∧ n.state = .present ∧ n.kind = .manifold ∧ n.caps = some k ∧
      (c.zoneCfg z).channel < k.channels := by
  unfold Part.supplyBad
  dsimp only
  by_cases hzero : (c.zoneCfg z).manifold = 0
  · simp [hzero]
  · cases hn : c.node? (c.zoneCfg z).manifold with
    | none => simp [hzero]
    | some n => cases hk : n.caps <;> simp [hzero, hk, and_assoc]

/-- The record of a zone whose pass, if one was in progress, has ended with its manifold (R75). -/
def Zone.passLost (r : Zone) : Zone := { r with pass := none, failedFlag := r.failedFlag || r.pass.isSome }

/-- What is said of a pass that ends with its manifold (R75). -/
def Zone.lossNotice (r : Zone) (z : Nat) : List Subject :=
  match r.pass with
  | some q => [.purgeFailed z q.number .nodeLost r.failures]
  | none => []

theorem Zone.passLost_idle {r : Zone} (h : r.pass = none) : r.passLost = r := by
  cases r
  simp_all [Zone.passLost]

theorem Part.failOnLoss_spec (hs : c.sound) (z : Nat) : (c.failOnLoss z).zone z = (c.zone z).passLost ∧
    (∀ y, y ≠ z → (c.failOnLoss z).zone y = c.zone y) ∧ (c.failOnLoss z).out = c.out ++ (c.zone z).lossNotice z := by
  unfold Part.failOnLoss Zone.lossNotice
  cases hpass : (c.zone z).pass with
  | none => exact ⟨(Zone.passLost_idle hpass).symm, fun _ _ => rfl, (List.append_nil _).symm⟩
  | some q =>
    dsimp only
    rw [Part.updZone_quiet hs (f := fun r => { r with pass := none, failedFlag := true }) rfl rfl rfl]
    exact ⟨(Store.getD_setD_self hs.zones z _).trans (by simp [Zone.passLost, hpass]),
      fun y hy => Part.putZone_other _ hy, rfl⟩

/-! ### What a change of supply leaves of the other blocks -/

/-- `d` differs from `c` in what the zones' changes of standing write: the tables stay, and so does the bus, but for orders
that have been queued. -/
structure Part.Supplied (c d : Part) : Prop where
  sound : d.sound
  tables : d.tables = c.tables
  posted : c.Posted d

theorem Part.Supplied.trans (h : c.Supplied d) (h' : d.Supplied e) : c.Supplied e :=
  ⟨h'.sound, h'.tables.trans h.tables, h.posted.trans h'.posted⟩

theorem Part.Supplied.zoneCfg_eq (h : c.Supplied d) (z : Nat) : d.zoneCfg z = c.zoneCfg z := by
  unfold Part.zoneCfg
  rw [h.tables]

theorem Part.Supplied.starting_eq (h : c.Supplied d) : d.starting = c.starting := by
  unfold Part.starting
  rw [h.posted.bus]

theorem Part.failOnLoss_supplied (hs : c.sound) (z : Nat) : c.Supplied (c.failOnLoss z) := by
  refine ⟨kept_sound.failOnLoss hs, ?_, ?_⟩ <;> unfold Part.failOnLoss <;> split
  · exact (Part.updZone_framed z _).tables
  · rfl
  · exact (Part.updZone_posted z _).trans (Part.say_posted _)
  · exact .of_bus rfl

theorem Part.evalSupply_supplied (hs : c.sound) (z : Nat) : c.Supplied (c.evalSupply z) := by
  have hloss : c.Supplied (if c.supplyBad z && !(c.zone z).supplyFault then c.failOnLoss z else c) := by
    split
    · exact Part.failOnLoss_supplied hs z
    · exact ⟨hs, rfl, .of_bus rfl⟩
  refine ⟨kept_sound.evalSupply hs, ?_, ?_⟩ <;> unfold Part.evalSupply
  · exact (Part.updZone_framed z _).tables.trans hloss.tables
  · exact hloss.posted.trans (Part.updZone_posted z _)

/-! ### The supply fault -/

/-- The record of a zone with its supply fault set or cleared. -/
def Zone.supply (v : Bool) (r : Zone) : Zone := { r with supplyFault := v }

/-- A zone that its configuration or its failures keep out of scheduling anyway is not told of its supply (R66). -/
theorem Part.supply_silent (hs : c.sound) (v : Bool) (h : (c.zoneCfg z).enabled = false ∨ (c.zone z).failures = 2) :
    (c.updZone z (Zone.supply v)).out = c.out := by
  have hdis : (c.putZone z (Zone.supply v (c.zone z))).zoneDisabled z = c.zoneDisabled z := by
    rw [Part.zoneDisabled_putZone hs]
    unfold Part.zoneDisabled Zone.supply
    rcases h with h | h <;> simp [h]
  have hprot : (c.putZone z (Zone.supply v (c.zone z))).protective z = c.protective z := by
    rw [Part.protective_putZone hs]
    unfold Part.protective Part.zoneDisabled Zone.supply
    rcases h with h | h <;> simp [h]
  rw [Part.updZone_still hdis hprot]
  rfl

/-- A scheduled zone enters and leaves PURGE_DISABLED with its supply fault (R66). -/
theorem Part.supply_out (hs : c.sound) {v : Bool} (hv : (c.zone z).supplyFault = !v)
    (hon : (c.zoneCfg z).enabled = true) (hfail : (c.zone z).failures ≠ 2) :
    ∃ l, (c.updZone z (Zone.supply v)).out =
      c.out ++ (if v then Subject.zoneDisabled z false true else .zoneRestored z) :: l := by
  have hdis : (c.putZone z (Zone.supply v (c.zone z))).zoneDisabled z = v := by
    rw [Part.zoneDisabled_putZone hs]
    simp [Zone.supply, hon, hfail]
  have hwas : c.zoneDisabled z = !v := by simp [Part.zoneDisabled, hon, hfail, hv]
  have hput : (c.putZone z (Zone.supply v (c.zone z))).zone z = Zone.supply v (c.zone z) :=
    Store.getD_setD_self hs.zones z _
  obtain ⟨l, hl⟩ := Part.updZone_out (c := c) z (Zone.supply v)
  refine ⟨l, hl.trans ?_⟩
  unfold Part.standingNotice
  rw [hdis, hwas, hput]
  cases v <;> simp [Zone.supply, hfail]

/-- A supply found as it was (R66). -/
theorem Part.evalSupply_same (hs : c.sound) (h : c.supplyBad z = (c.zone z).supplyFault) :
    (c.evalSupply z).zone z = c.zone z ∧ (c.evalSupply z).out = c.out := by
  have heq : c.evalSupply z = c.updZone z (Zone.supply (c.zone z).supplyFault) := by
    unfold Part.evalSupply
    dsimp only
    rw [h, if_neg (by simp)]
    rfl
  rw [heq]
  refine ⟨Part.updZone_zone hs z _, ?_⟩
  rw [Part.updZone_quiet hs rfl rfl rfl]
  rfl

/-- A supply that has come back (R66). -/
theorem Part.evalSupply_good (h : c.supplyBad z = false) : c.evalSupply z = c.updZone z (Zone.supply false) := by
  unfold Part.evalSupply
  dsimp only
  rw [h, if_neg (by simp)]
  rfl

/-- A supply that has gone: the pass in progress ends first (R62, R66). -/
theorem Part.evalSupply_bad (h : c.supplyBad z = true) (hok : (c.zone z).supplyFault = false) :
    c.evalSupply z = (c.failOnLoss z).updZone z (Zone.supply true) := by
  unfold Part.evalSupply
  dsimp only
  rw [h, if_pos (by simp [hok])]
  rfl

/-- What a supply found gone leaves (R66, R75). -/
theorem Part.evalSupply_lost (hs : c.sound) (h : c.supplyBad z = true) (hok : (c.zone z).supplyFault = false) :
    (c.evalSupply z).zone z = { (c.zone z).passLost with supplyFault := true } ∧
    ((c.zoneCfg z).enabled = true → (c.zone z).failures ≠ 2 → ∃ l, (c.evalSupply z).out =
      c.out ++ (c.zone z).lossNotice z ++ Subject.zoneDisabled z false true :: l) ∧
    ((c.zoneCfg z).enabled = false ∨ (c.zone z).failures = 2 →
      (c.evalSupply z).out = c.out ++ (c.zone z).lossNotice z) := by
  have hls : (c.failOnLoss z).sound := kept_sound.failOnLoss hs
  obtain ⟨hzone, -, hout⟩ := Part.failOnLoss_spec hs z
  have hcfg := (Part.failOnLoss_supplied hs z).zoneCfg_eq z
  rw [Part.evalSupply_bad h hok]
  refine ⟨?_, fun hon hfail => ?_, fun hoff => ?_⟩
  · rw [Part.updZone_zone hls, hzone]
    rfl
  · rw [← hout]
    exact Part.supply_out hls (v := true) (by rw [hzone]; exact hok) (by rw [hcfg]; exact hon) (by rw [hzone]; exact hfail)
  · rw [← hout]
    exact Part.supply_silent hls true (by rw [hcfg, hzone]; exact hoff)

theorem Part.evalSupply_other (hs : c.sound) (h : y ≠ z) : (c.evalSupply z).zone y = c.zone y := by
  unfold Part.evalSupply
  dsimp only
  rw [Part.updZone_other _ h]
  split
  · exact (Part.failOnLoss_spec hs z).2.1 y h
  · rfl

theorem Part.evalSupply_out (hs : c.sound) (z : Nat) : c.out <+: (c.evalSupply z).out := by
  have hloss : c.out <+: (if c.supplyBad z && !(c.zone z).supplyFault then c.failOnLoss z else c).out := by
    split
    · rw [(Part.failOnLoss_spec hs z).2.2]
      exact List.prefix_append _ _
    · exact List.prefix_rfl
  unfold Part.evalSupply
  exact hloss.trans (Part.updZone_framed z _).out

/-! ### The loss of a manifold -/

/-- Zones taken one by one: each is dealt with once, as it stood before, and what is said then stays said. -/
theorem Part.foldl_zone {F : Part → Nat → Part} (hF : ∀ d n, c.Supplied d → c.Supplied (F d n))
    (hother : ∀ d n y, c.Supplied d → y ≠ n → (F d n).zone y = d.zone y)
    (hout : ∀ d n, c.Supplied d → d.out <+: (F d n).out) (ns : List Nat) (hns : ns.Nodup) (hz : z ∈ ns)
    (hd : c.Supplied d) : ∃ e, c.Supplied e ∧ e.zone z = d.zone z ∧ d.out <+: e.out ∧
      (ns.foldl F d).zone z = (F e z).zone z ∧ (F e z).out <+: (ns.foldl F d).out ∧ c.Supplied (ns.foldl F d) := by
  have hrest : ∀ (ns : List Nat) (d : Part), c.Supplied d → c.Supplied (ns.foldl F d) ∧ d.out <+: (ns.foldl F d).out ∧
      (z ∉ ns → (ns.foldl F d).zone z = d.zone z) := by
    intro ns
    induction ns with
    | nil => exact fun d hd => ⟨hd, List.prefix_rfl, fun _ => rfl⟩
    | cons n ns ih =>
      intro d hd
      obtain ⟨h1, h2, h3⟩ := ih (F d n) (hF d n hd)
      refine ⟨h1, (hout d n hd).trans h2, fun hz => ?_⟩
      obtain ⟨hne, hz⟩ := not_or.1 (mt List.mem_cons.2 hz)
      exact (h3 hz).trans (hother d n z hd hne)
  induction ns generalizing d with
  | nil => cases hz
  | cons n ns ih =>
    obtain ⟨hn, hns⟩ := List.nodup_cons.1 hns
    by_cases hzn : z = n
    · subst hzn
      obtain ⟨h1, h2, h3⟩ := hrest ns (F d z) (hF d z hd)
      exact ⟨d, hd, rfl, List.prefix_rfl, h3 hn, h2, h1⟩
    · have hz : z ∈ ns := (List.mem_cons.1 hz).resolve_left hzn
      obtain ⟨e, he, hzone, hsaid, hlast⟩ := ih hns hz (hF d n hd)
      exact ⟨e, he, hzone.trans (hother d n z hd hzn), (hout d n hd).trans hsaid, hlast⟩

/-- Orders queued make no node PRESENT. -/
theorem Part.Posted.absent (h : c.Posted d) (ha : ∀ n, c.node? a = some n → n.state ≠ .present) :
    ∀ n, d.node? a = some n → n.state ≠ .present := by
  intro n hn
  obtain ⟨v, hv⟩ := h.node a
  obtain ⟨k, hk, rfl⟩ := Option.map_eq_some_iff.1 (hv.symm.trans hn)
  exact ha k hk

/-- The passes of the zones that a lost manifold served, ahead of their supply faults (R75). -/
def Part.passesLost (c : Part) (a : Nat) : Part :=
  c.each 16 fun c z => if (c.zoneCfg z).manifold = a then c.failOnLoss z else c

theorem Part.manifoldLoss_eq (a : Nat) : c.manifoldLoss a = (c.passesLost a).rosterChanged a := rfl

/-- A zone is dealt with where the lost manifold serves it, and is left alone where it does not. -/
theorem Part.each_zone {F : Part → Nat → Part} (hs : c.sound) (hF : ∀ (d : Part) n, d.sound → d.Supplied (F d n))
    (hother : ∀ (d : Part) n y, d.sound → y ≠ n → (F d n).zone y = d.zone y)
    (hout : ∀ (d : Part) n, d.sound → d.out <+: (F d n).out)
    (a : Nat) (hz : z < 16) : let d := c.each 16 fun c z => if (c.zoneCfg z).manifold = a then F c z else c
    c.Supplied d ∧ c.out <+: d.out ∧ ((c.zoneCfg z).manifold ≠ a → d.zone z = c.zone z) ∧
    ((c.zoneCfg z).manifold = a → ∃ e, c.Supplied e ∧ e.zone z = c.zone z ∧ d.zone z = (F e z).zone z ∧
      (F e z).out <+: d.out) := by
  let G : Part → Nat → Part := fun c z => if (c.zoneCfg z).manifold = a then F c z else c
  have hG : ∀ d n, c.Supplied d → c.Supplied (G d n) := fun d n hd => by
    unfold G
    split
    · exact hd.trans (hF d n hd.sound)
    · exact hd
  have hGother : ∀ d n y, c.Supplied d → y ≠ n → (G d n).zone y = d.zone y := fun d n y hd hy => by
    unfold G
    split
    · exact hother d n y hd.sound hy
    · rfl
  have hGout : ∀ d n, c.Supplied d → d.out <+: (G d n).out := fun d n hd => by
    unfold G
    split
    · exact hout d n hd.sound
    · exact List.prefix_rfl
  obtain ⟨e, he, hzone, hsaid, hlast, hend, hsup⟩ := Part.foldl_zone hG hGother hGout (List.range 16) List.nodup_range
    (List.mem_range.2 hz) ⟨hs, rfl, .of_bus rfl⟩
  refine ⟨hsup, (hsaid.trans (hGout e z he)).trans hend, fun hne => ?_, fun heq => ⟨e, he, hzone, ?_⟩⟩
  · have hskip : G e z = e := if_neg (by rw [he.zoneCfg_eq]; exact hne)
    exact hlast.trans ((congrArg (Part.zone · z) hskip).trans hzone)
  · have htake : G e z = F e z := if_pos (by rw [he.zoneCfg_eq]; exact heq)
    rw [← htake]
    exact ⟨hlast, hend⟩

theorem Part.passesLost_spec (hs : c.sound) (a : Nat) (hz : z < 16) : c.Supplied (c.passesLost a) ∧
    c.out <+: (c.passesLost a).out ∧
    ((c.zoneCfg z).manifold ≠ a → (c.passesLost a).zone z = c.zone z) ∧
    ((c.zoneCfg z).manifold = a → (c.passesLost a).zone z = (c.zone z).passLost ∧
      (c.zone z).lossNotice z ⊆ (c.passesLost a).out) := by
  obtain ⟨hsup, hout, hskip, htake⟩ := Part.each_zone hs (fun d n hd => Part.failOnLoss_supplied hd n)
    (fun d n y hd hy => (Part.failOnLoss_spec hd n).2.1 y hy)
    (fun d n hd => (Part.failOnLoss_spec hd n).2.2 ▸ List.prefix_append _ _) a hz
  refine ⟨hsup, hout, hskip, fun heq => ?_⟩
  obtain ⟨e, he, hsame, hzone, hend⟩ := htake heq
  obtain ⟨hlost, -, hsaid⟩ := Part.failOnLoss_spec he.sound z
  rw [hsame] at hlost hsaid
  exact ⟨hzone.trans hlost, fun s h => hend.subset (hsaid ▸ List.mem_append_right _ h)⟩

/-- The supply faults of the zones that a lost manifold served (R66, R80). -/
theorem Part.rosterChanged_spec (hs : c.sound) (hz : z < 16) (ha : ∀ n, c.node? a = some n → n.state ≠ .present)
    (hpass : (c.zoneCfg z).manifold = a → (c.zone z).pass = none) : c.out <+: (c.rosterChanged a).out ∧
    ((c.zoneCfg z).manifold ≠ a → (c.rosterChanged a).zone z = c.zone z) ∧
    (c.starting = true → (c.rosterChanged a).zone z = c.zone z) ∧
    ((c.zoneCfg z).manifold = a → c.starting = false →
      (c.rosterChanged a).zone z = { c.zone z with supplyFault := true } ∧
      ((c.zoneCfg z).enabled = true → (c.zone z).failures ≠ 2 → (c.zone z).supplyFault = false →
        Subject.zoneDisabled z false true ∈ (c.rosterChanged a).out)) := by
  cases hstart : c.starting with
  | true =>
    have hsame : c.rosterChanged a = c := if_pos hstart
    rw [hsame]
    exact ⟨List.prefix_rfl, fun _ => rfl, fun _ => rfl, nofun⟩
  | false =>
    have hsame : c.rosterChanged a = c.each 16 fun c z => if (c.zoneCfg z).manifold = a then c.evalSupply z else c :=
      if_neg (by simp [hstart])
    obtain ⟨-, hout, hskip, htake⟩ := Part.each_zone hs (fun d n hd => Part.evalSupply_supplied hd n)
      (fun d n y hd hy => Part.evalSupply_other hd hy) (fun d n hd => Part.evalSupply_out hd n) a hz
    rw [hsame]
    refine ⟨hout, hskip, nofun, fun heq _ => ?_⟩
    obtain ⟨e, he, hzsame, hzone, hend⟩ := htake heq
    have hbad : e.supplyBad z = true := by
      refine Bool.eq_true_of_not_eq_false fun hgood => ?_
      obtain ⟨-, n, k, hn, hpresent, -⟩ := (Part.supplyBad_iff z).1 hgood
      rw [he.zoneCfg_eq, heq] at hn
      exact he.posted.absent ha n hn hpresent
    cases hfault : (c.zone z).supplyFault with
    | true =>
      obtain ⟨hstays, -⟩ := Part.evalSupply_same he.sound (by rw [hbad, hzsame, hfault])
      refine ⟨?_, fun _ _ h => nomatch h⟩
      rw [hzone, hstays, hzsame, ← hfault]
    | false =>
      obtain ⟨hlost, hsaid, -⟩ := Part.evalSupply_lost he.sound hbad (by rw [hzsame]; exact hfault)
      refine ⟨?_, fun hon hfail _ => ?_⟩
      · rw [hzone, hlost, hzsame, Zone.passLost_idle (hpass heq)]
      · obtain ⟨l, hl⟩ := hsaid (by rw [he.zoneCfg_eq]; exact hon) (by rw [hzsame]; exact hfail)
        exact hend.subset (hl ▸ by simp)

/-! ### Seal faults -/

theorem SlotFlags.set_same {v : SlotFlags} {f : SlotFlag} (h : v.get f = true) : v.set f = v := by
  cases v
  cases f <;> simp_all [SlotFlags.get, SlotFlags.set]

theorem Part.raiseFlag_flags (hs : c.sound) (f : SlotFlag) (hl : l < 960) :
    (c.raiseFlag l f).flagsOf l = (c.flagsOf l).set f := by
  have hslot : isSlot l = true := decide_eq_true hl
  unfold Part.raiseFlag
  cases hget : (c.flagsOf l).get f with
  | true => simp [SlotFlags.set_same hget]
  | false =>
    rw [if_pos ⟨hslot, rfl⟩]
    exact Store.getD_setD_self hs.flags _ _

/-- A seal fault of a slot sets its flag, and the reticle there goes unprotected (R46, R76). -/
theorem Part.sealed_spec (hs : c.sound) (ha : c.agrees) (hl : l < 960) : let d := (c.raiseFlag l .sealed).fixSlot l
    d.flagsOf l = { c.flagsOf l with sealed := true } ∧ d.occ l = c.occ l ∧ d.zones = c.zones ∧
    d.out = c.out ++ (if (c.flagsOf l).sealed = true then [] else [Subject.slotFlag l .sealed]) ∧
    ∀ n r, (c.occ l).resident = some n → c.rec? n = some r →
      d.rec? n = some { r with stamp := some (r.stamp.getD c.now) } := by
  intro d
  obtain ⟨hocc, -, hrecs, -⟩ := Part.raiseFlag_framed (c := c) l .sealed
  obtain ⟨v, o, heq⟩ := Part.raiseFlag_eq (c := c) l .sealed
  have hframed : (c.raiseFlag l .sealed).Framed d := (Part.Framed.refl _).fixSlot l
  have hflags := Part.raiseFlag_flags hs .sealed hl
  have hocc' : (c.raiseFlag l .sealed).occ l = c.occ l := by
    unfold Part.occ
    rw [hocc]
  have hexposed : ∀ n, (c.occ l).resident = some n → ∃ r, c.rec? n = some r ∧
      (c.raiseFlag l .sealed).RecOnly d n { r with stamp := some (r.stamp.getD c.now) } [] := fun n hn => by
    obtain ⟨r, hr, hplace⟩ := (ha n l).2 hn
    have hr' : (c.raiseFlag l .sealed).rec? n = some r := by
      unfold Part.rec?
      rw [hrecs]
      exact hr
    have hshel : (c.raiseFlag l .sealed).sheltered n r = false := by
      unfold Part.sheltered
      rw [hplace]
      simp [hflags, SlotFlags.set]
    have hd : d = (c.raiseFlag l .sealed).fixProtection n := by
      unfold d Part.fixSlot
      rw [hocc', hn]
    have hnow : (c.raiseFlag l .sealed).now = c.now := by rw [heq]
    rw [hd, ← hnow]
    exact ⟨r, hr, Part.fixProtection_exposed hr' hshel⟩
  refine ⟨(hframed.flagsOf_eq l).trans hflags, (hframed.occ_eq l).trans hocc', hframed.zones.trans (by rw [heq]), ?_,
    fun n r hn hr => ?_⟩
  · have hsaid : d.out = (c.raiseFlag l .sealed).out := by
      cases hn : (c.occ l).resident with
      | none =>
        unfold d Part.fixSlot
        rw [hocc', hn]
      | some n =>
        obtain ⟨r, -, honly⟩ := hexposed n hn
        exact honly.out_eq.trans (List.append_nil _)
    rw [hsaid, Part.raiseFlag_out .sealed hl]
    rfl
  · obtain ⟨r', hr', honly⟩ := hexposed n hn
    obtain rfl : r = r' := Option.some.inj (hr.symm.trans hr')
    exact honly.self

end Sys2Proof.Machine
end

section
/-! SUPPORT. The ends of a pass that a PURGE_DONE report brings (R51, R52, R70 to R73). -/

namespace Sys2Proof.Machine

variable {c d : Part} {l n y z : Nat} {r : Rec}

/-! ### The credit -/

/-- The record that a purge credit leaves (R51, R52). -/
def Part.purged (c : Part) (r : Rec) : Rec := (r.credited (c.classCfg r.cls).credit).judged c.limits true

theorem Part.creditZone_framed (z : Nat) : c.Framed (c.creditZone z) := by
  have hcredit := Kept0.foldl (R := c.Framed) (.refl c) (fun d n (hd : c.Framed d) =>
    hd.updRec (n := n) (f := fun r => r.credited (d.classCfg r.cls).credit))
    ((c.residents z).filter fun n => (c.rec? n).any fun r => r.stamp.isNone)
  exact Kept0.foldl hcredit (fun _ _ hd => (framed_holds c).threshold hd) _

/-- Each protected reticle of a zone is credited once, and no other (R51). -/
theorem Part.creditZone_rec (hnd : (c.residents z).Nodup) (k : Nat) : (c.creditZone z).rec? k =
    if k ∈ c.residents z ∧ ∃ r, c.rec? k = some r ∧ r.stamp = none then (c.rec? k).map c.purged else c.rec? k := by
  let due := (c.residents z).filter fun n => (c.rec? n).any fun r => r.stamp.isNone
  let e := due.foldl (fun c n => c.updRec n fun r => r.credited (c.classCfg r.cls).credit) c
  have hdue : due.Nodup := hnd.filter _
  have hframed : c.Framed e := Kept0.foldl (.refl c) (fun _ _ hd => hd.updRec) due
  have hcredit : e.rec? k = if k ∈ due then (c.rec? k).map fun r => r.credited (c.classCfg r.cls).credit else c.rec? k :=
    Part.foldl_rec (g := fun _ r => r.credited (c.classCfg r.cls).credit) (fun _ _ hd => hd.updRec)
      (fun d n k hd => by
        unfold Part.classCfg
        rw [Part.updRec_rec, hd.tables]) due (.inl hdue) (.refl c) k
  have hjudge : (c.creditZone z).rec? k = if k ∈ due then (e.rec? k).map (·.judged c.limits true) else e.rec? k :=
    Part.foldl_rec (g := fun _ r => r.judged c.limits true) (fun _ _ hd => (framed_holds c).threshold hd)
      (fun d n k hd => by
        rw [Part.threshold_rec_eq, Part.limits, hd.tables]
        rfl) due (.inl hdue) hframed k
  have hmem : k ∈ due ↔ k ∈ c.residents z ∧ ∃ r, c.rec? k = some r ∧ r.stamp = none := by
    simp [due, Option.any_eq_true]
  rw [hjudge, hcredit]
  simp only [← hmem]
  split
  · rw [Option.map_map]
    rfl
  · rfl

/-- The account that a credit leaves (R51). -/
theorem Part.purged_account (r : Rec) : (c.purged r).stamp = r.stamp ∧
    (c.purged r).e = (if r.e < (c.classCfg r.cls).credit then 0 else r.e - (c.classCfg r.cls).credit) ∧
    (c.purged r).frac = (if r.e < (c.classCfg r.cls).credit then 0 else r.frac) := by
  obtain ⟨-, -, -, he, hfrac, hstamp, -⟩ := (r.credited (c.classCfg r.cls).credit).judged_account c.limits true
  unfold Part.purged
  rw [he, hfrac, hstamp]
  unfold Rec.credited
  split <;> exact ⟨rfl, rfl, rfl⟩

/-- The account that a settlement and a credit behind it leave of a reticle that has lost its stamp (R46, R51). -/
theorem Part.purged_settled (c : Part) (r : Rec) :
    let q := r.accrue c.now (c.rateOf r)
    let p := c.purged (Rec.judged { q with stamp := none } c.limits false)
    p.stamp = none ∧ p.e = (if q.e < (c.classCfg r.cls).credit then 0 else q.e - (c.classCfg r.cls).credit) ∧
      p.frac = (if q.e < (c.classCfg r.cls).credit then 0 else q.frac) := by
  intro q p
  obtain ⟨-, hq, -⟩ := (r.accrue_account c.now (c.rateOf r)).keeps
  obtain ⟨-, hcls, -, he, hfrac, hstamp, -⟩ := Rec.judged_account { q with stamp := none } c.limits false
  obtain ⟨hpstamp, hpe, hpfrac⟩ := c.purged_account (Rec.judged { q with stamp := none } c.limits false)
  rw [hcls, he] at hpe hpfrac
  rw [hfrac] at hpfrac
  exact ⟨hpstamp.trans hstamp, hq ▸ hpe, hq ▸ hpfrac⟩

theorem Part.purged_exposure (h : c.limits.eWarn ≤ c.limits.eHold) (r : Rec) : (c.purged r).exposure = true ↔
    c.limits.eHold ≤ (c.purged r).e ∨ (r.exposure = true ∧ c.limits.eWarn ≤ (c.purged r).e) := by
  obtain ⟨-, -, -, he, -⟩ := (r.credited (c.classCfg r.cls).credit).judged_account c.limits true
  have hsame : (r.credited (c.classCfg r.cls).credit).exposure = r.exposure := by
    unfold Rec.credited
    split <;> rfl
  unfold Part.purged
  rw [Rec.judged_exposure h, he, hsame]

/-! ### A pass that succeeds -/

/-- The record of a zone whose pass has succeeded (R71). -/
def Zone.succeeding (r : Zone) : Zone :=
  { r with pass := none, b := if r.b < 4 then r.b + 1 else r.b, overdue := false, failures := 0, mark := true }

theorem Part.passSucceeds_eq (z : Nat) : c.passSucceeds z = (c.updZone z Zone.succeeding).creditZone z := rfl

theorem Part.passSucceeds_zone (hs : c.sound) (z : Nat) : (c.passSucceeds z).zone z = (c.zone z).succeeding ∧
    ∀ y, y ≠ z → (c.passSucceeds z).zone y = c.zone y := by
  have hframed := Part.creditZone_framed (c := c.updZone z Zone.succeeding) z
  rw [Part.passSucceeds_eq]
  exact ⟨(hframed.zone_eq z).trans (Part.updZone_zone hs z _),
    fun y hy => (hframed.zone_eq y).trans (Part.updZone_other _ hy)⟩

/-- A zone is protective after a success unless it is out of scheduling or without a supply (R45, R71). -/
theorem Part.succeeding_protective (hs : c.sound) (z : Nat) :
    (c.putZone z (c.zone z).succeeding).protective z = ((c.zoneCfg z).enabled && !(c.zone z).supplyFault) := by
  rw [Part.protective_putZone hs]
  unfold Zone.succeeding
  cases (c.zoneCfg z).enabled <;> simp

/-- What a success leaves of a reticle in the zone's slots: its account follows the zone's protection, and is then credited
where it stands protected (R51, R71). -/
theorem Part.passSucceeds_rec {q : Rec} (hs : c.sound) (ha : c.agrees) (hl : l < 960) (hz : l / 60 = z)
    (hn : (c.occ l).resident = some n) (hr : c.rec? n = some r)
    (hq : (if (c.putZone z (c.zone z).succeeding).protective z ≠ c.protective z then
      (c.putZone z (c.zone z).succeeding).aligned n r else r) = q) :
    (c.passSucceeds z).rec? n = some (if q.stamp = none then c.purged q else q) := by
  let e := c.putZone z (c.zone z).succeeding
  have hres : n ∈ c.residents z := (Part.mem_residents hs).2 ⟨l, hl, hz, hn⟩
  have hframed : e.Framed (c.updZone z Zone.succeeding) := Part.updZone_framed z _
  have hresidents : (c.updZone z Zone.succeeding).residents z = c.residents z := hframed.residents_eq z
  have hrec : (c.updZone z Zone.succeeding).rec? n = some q := by
    have hset : (c.updZone z Zone.succeeding).rec? n = if e.protective z ≠ c.protective z ∧ n ∈ e.residents z then
        (e.rec? n).map (e.aligned n) else e.rec? n := Part.zoneSettled_rec ..
    have hres' : n ∈ e.residents z := hres
    rw [hset, show e.rec? n = some r from hr, Option.map_some]
    simp only [hres', and_true]
    rw [← hq, apply_ite some]
  have hpurged : (c.updZone z Zone.succeeding).purged = c.purged := by
    unfold Part.purged Part.classCfg Part.limits
    rw [hframed.tables]
    rfl
  rw [Part.passSucceeds_eq, Part.creditZone_rec (hresidents ▸ Part.residents_nodup hs ha z), hresidents, hrec, hpurged]
  simp only [hres, true_and, Option.some.injEq, exists_eq_left']
  split <;> rfl

theorem Part.agrees_place (ha : c.agrees) (hn : (c.occ l).resident = some n) (hr : c.rec? n = some r) :
    r.place = .loc l := by
  obtain ⟨r', hr', hplace⟩ := (ha n l).2 hn
  obtain rfl : r = r' := Option.some.inj (hr.symm.trans hr')
  exact hplace

/-- A reticle that a success finds protected is credited (R51). -/
theorem Part.passSucceeds_protected (hs : c.sound) (ha : c.agrees) (hl : l < 960) (hz : l / 60 = z)
    (hn : (c.occ l).resident = some n) (hr : c.rec? n = some r) (hp : c.protective z = true) (ht : r.stamp = none) :
    (c.passSucceeds z).rec? n = some (c.purged r) := by
  obtain ⟨hon, -, -, hsupply⟩ := (Part.protective_iff z).1 hp
  have hstill : (c.putZone z (c.zone z).succeeding).protective z = c.protective z := by
    rw [Part.succeeding_protective hs, hp, hon, hsupply]
    rfl
  rw [Part.passSucceeds_rec hs ha hl hz hn hr (if_neg fun h => h hstill), if_pos ht]

/-- A reticle in a sealed slot is not credited (R45, R51). -/
theorem Part.passSucceeds_sealed (hs : c.sound) (ha : c.agrees) (hl : l < 960) (hz : l / 60 = z)
    (hn : (c.occ l).resident = some n) (hr : c.rec? n = some r) (hsealed : (c.flagsOf l).sealed = true)
    (ht : r.stamp ≠ none) : (c.passSucceeds z).rec? n = some r := by
  have hflags : ((c.putZone z (c.zone z).succeeding).flagsOf l).sealed = true := hsealed
  have hshel : (c.putZone z (c.zone z).succeeding).sheltered n r = false := by
    unfold Part.sheltered
    rw [Part.agrees_place ha hn hr]
    simp [hflags]
  have hkept : (c.putZone z (c.zone z).succeeding).aligned n r = r :=
    Part.aligned_kept (by rw [hshel, Option.isNone_eq_false_iff.2 (Option.isSome_iff_ne_none.2 ht)])
  rw [Part.passSucceeds_rec hs ha hl hz hn hr (q := r) (by rw [hkept, ite_self]), if_neg ht]

/-- A reticle that comes to be protected, as its zone leaves OVERDUE, is settled and then credited (R51, R71). -/
theorem Part.passSucceeds_settled (hs : c.sound) (ha : c.agrees) (hl : l < 960) (hz : l / 60 = z)
    (hn : (c.occ l).resident = some n) (hr : c.rec? n = some r) (hover : (c.zone z).overdue = true)
    (hon : (c.zoneCfg z).enabled = true) (hsupply : (c.zone z).supplyFault = false)
    (hunsealed : (c.flagsOf l).sealed = false) (ht : r.stamp ≠ none) :
    (c.passSucceeds z).rec? n = some (c.purged
      (Rec.judged { r.accrue c.now (c.rateOf r) with stamp := none } c.limits false)) := by
  obtain ⟨t, ht⟩ := Option.ne_none_iff_exists'.1 ht
  let e := c.putZone z (c.zone z).succeeding
  have hprot : e.protective z = true := by
    rw [Part.succeeding_protective hs, hon, hsupply]
    rfl
  have hwas : c.protective z = false := by
    refine Bool.eq_false_iff.2 fun h => ?_
    obtain ⟨-, hno, -⟩ := (Part.protective_iff z).1 h
    exact nomatch hover.symm.trans hno
  have hocc : (e.occ l).resident = some n := hn
  have hflags : (e.flagsOf l).sealed = false := hunsealed
  have hshel : e.sheltered n r = true := by
    unfold Part.sheltered
    rw [Part.agrees_place ha hn hr]
    simp [isSlot, columnOf, hl, hz, hocc, hflags, hprot]
  have hchanged : e.protective z ≠ c.protective z := by simp [hprot, hwas]
  rw [Part.passSucceeds_rec hs ha hl hz hn hr ((if_pos hchanged).trans (Part.aligned_protected hshel ht)), if_pos]
  · rfl
  · exact (Rec.judged_account ..).2.2.2.2.2.1

/-! ### The report -/

/-- A zone has the pass in progress that a report names (R71). -/
def Part.expects (c : Part) (a ch n z : Nat) : Prop := z < 16 ∧ (c.zoneCfg z).manifold = a ∧ (c.zoneCfg z).channel = ch ∧
  ∃ q, (c.zone z).pass = some q ∧ q.number = n

theorem Part.expects_iff {a ch n z : Nat} (hz : z < 16) : c.expects a ch n z ↔ ((c.zoneCfg z).manifold == a &&
    (c.zoneCfg z).channel == ch && ((c.zone z).pass.any fun q => q.number == n)) = true := by
  simp [Part.expects, hz, Option.any_eq_true, and_assoc]

/-- The lowest zone with the pass in progress is the one that a report answers. -/
theorem Part.passFor_some {a ch n : Nat} (hz : c.expects a ch n z) (hfirst : ∀ y < z, ¬c.expects a ch n y) :
    c.passFor a ch n = some z := by
  obtain ⟨hlt, -⟩ := id hz
  refine List.find?_range_eq_some.2 ⟨(Part.expects_iff hlt).1 hz, List.mem_range.2 hlt, fun y hy => ?_⟩
  rw [Bool.not_eq_true', ← Bool.not_eq_true, ← Part.expects_iff (hy.trans hlt)]
  exact hfirst y hy

theorem Part.passFor_none {a ch n : Nat} (h : ∀ z, ¬c.expects a ch n z) : c.passFor a ch n = none :=
  List.find?_eq_none.2 fun z hz => by
    rw [← Part.expects_iff (List.mem_range.1 hz)]
    exact h z

/-- A PURGE_DONE report of a manifold (R71 to R73). -/
theorem Part.purgeDone_answered {a ch n : Nat} (ha : (c.planOf a).kind = .manifold) (hz : c.expects a (ch % 4) n z)
    (hfirst : ∀ y < z, ¬c.expects a (ch % 4) n y) :
    c.deliverReport a (.purgeDone ch n true) = c.passSucceeds z ∧
    c.deliverReport a (.purgeDone ch n false) = c.passFails z .fail := by
  have hdeliver : ∀ ok, c.deliverReport a (.purgeDone ch n ok) = c.purgeDone a ch n ok := fun ok => if_pos ha
  simp only [hdeliver, Part.purgeDone, Part.passFor_some hz hfirst]
  exact ⟨rfl, rfl⟩

theorem Part.purgeDone_late {a ch n : Nat} (ha : (c.planOf a).kind = .manifold) (hno : ∀ z, ¬c.expects a (ch % 4) n z)
    (ok : Bool) : c.deliverReport a (.purgeDone ch n ok) = c.say (.purgeLate a (ch % 4) n ok) := by
  have hdeliver : c.deliverReport a (.purgeDone ch n ok) = c.purgeDone a ch n ok := if_pos ha
  rw [hdeliver, Part.purgeDone, Part.passFor_none hno]

end Sys2Proof.Machine
end

section
/-! SUPPORT. The purge supply in the words of the spec: its candidates, and what the loss of a manifold leaves (R67, R75). -/

namespace Sys2Proof.Machine

variable {c : Part} {a z : Nat}

/-- A candidate of the supply, condition by condition (R67). -/
theorem Part.candidate_spec (hs : c.sound) (y k : Nat) : c.candidacy y = some k ↔
    ((c.zoneCfg y).enabled = true ∧ (c.zone y).failures ≠ 2 ∧ (c.zone y).supplyFault = false) ∧
    (c.zone y).pass = none ∧ c.ctl.stop = false ∧ c.ctl.mode ≠ .start ∧
    (∀ x < 16, x ≠ y → (c.zoneCfg x).manifold = (c.zoneCfg y).manifold →
      (c.zoneCfg x).channel = (c.zoneCfg y).channel → (c.zone x).pass = none) ∧
    ((k = 0 ∧ (c.zone y).b ≤ -3 ∧ c.unvisited y) ∨
     (k = 1 ∧ -3 < (c.zone y).b ∧ (c.zone y).b < 0 ∧ c.untouched y) ∨
     (k = 2 ∧ 0 ≤ (c.zone y).b ∧ c.untouched y ∧
      (((c.zone y).b < 4 ∧ ∃ l n r, l < 960 ∧ l / 60 = y ∧ (c.occ l).resident = some n ∧ c.rec? n = some r ∧
          c.limits.eWarn ≤ r.e) ∨ (c.ctl.pending = true ∧ (c.zone y).mark = false)))) := by
  rw [Part.candidacy_iff, Part.passOpen, Part.classed, Part.zoneRequired_iff, Part.channelBusy_iff, Part.wanting_iff hs]
  simp only [and_assoc]

theorem Part.starting_iff : c.starting = true ↔ ∃ e, c.bus.enum = some e ∧ e.cause ≠ .busReset := by
  unfold Part.starting
  cases c.bus.enum <;> simp

/-- What the loss of a manifold leaves of a zone that it served (R66, R75, R80). -/
theorem Part.manifoldLoss_spec (hs : c.sound) (hz : z < 16) (ha : ∀ n, c.node? a = some n → n.state ≠ .present) :
    ((c.zoneCfg z).manifold ≠ a → (c.manifoldLoss a).zone z = c.zone z) ∧
    ((c.zoneCfg z).manifold = a →
      (c.starting = true → (c.manifoldLoss a).zone z = (c.zone z).passLost) ∧
      (c.starting = false → (c.manifoldLoss a).zone z = { (c.zone z).passLost with supplyFault := true }) ∧
      (c.zone z).lossNotice z ⊆ (c.manifoldLoss a).out ∧
      (c.starting = false → (c.zoneCfg z).enabled = true → (c.zone z).failures ≠ 2 → (c.zone z).supplyFault = false →
        Subject.zoneDisabled z false true ∈ (c.manifoldLoss a).out)) := by
  obtain ⟨hsup, -, hskip, htake⟩ := Part.passesLost_spec hs a hz
  have hcfg := hsup.zoneCfg_eq z
  have hstart := hsup.starting_eq
  obtain ⟨hout, hother, hstands, hfaults⟩ := Part.rosterChanged_spec hsup.sound hz (hsup.posted.absent ha) fun h =>
    congrArg Zone.pass (htake (hcfg ▸ h)).1
  rw [Part.manifoldLoss_eq]
  rw [hcfg] at hother hfaults
  rw [hstart] at hstands hfaults
  refine ⟨fun hne => (hother hne).trans (hskip hne), fun heq => ?_⟩
  obtain ⟨hlost, hsaid⟩ := htake heq
  rw [hlost] at hstands hfaults
  exact ⟨hstands, fun h => (hfaults heq h).1, fun s h => hout.subset (hsaid h), fun h => (hfaults heq h).2⟩

end Sys2Proof.Machine
end

section
open Sys2Proof Sys2Proof.Machine

/-- Settles O57: the supply issues to the zone that leads all candidates (`Part.firstCandidate_leads`), a supply fault follows
the channel, and an answered pass ends as `Part.passSucceeds_rec` and `Part.passFails_spec` say. -/
theorem purgePasses : Obligations.PurgePasses := by
  refine ⟨fun c z hs hz => ?_, fun c z hs hz => ?_, fun c a z hs hz hkind ha => ?_, fun c a l hs ha hkind => ?_,
    fun c a ch n hs hkind => ?_⟩
  · intro on idle still wants cand first running a
    have hcand : ∀ y k, cand y k ↔ y < 16 ∧ c.candidacy y = some k := fun y k =>
      and_congr_right fun _ => (Part.candidate_spec hs y k).symm
    refine ⟨?_, fun h => ?_, fun hroom hfirst => ?_⟩
    · rw [Part.zoneClosed_iff, Part.zoneDisabled_iff]
    · rcases h with h | h
      · exact if_neg (Nat.not_lt.2 h)
      · have hnone : c.firstCandidate = none := Part.firstCandidate_none fun y hy =>
          Option.eq_none_iff_forall_ne_some.2 fun k hk => h y k ((hcand y k).2 ⟨hy, hk⟩)
        rw [Part.supplyOnce, hnone, Option.map_none, ite_self]
    · obtain ⟨k, hk, hleads⟩ := hfirst
      obtain ⟨-, hk⟩ := (hcand z k).1 hk
      have hissue : c.supplyOnce = some (c.issuePass z) := by
        rw [Part.supplyOnce, if_pos (show c.passes < _ from hroom),
          Part.firstCandidate_leads hz hk fun y hy i hi => hleads y i ((hcand y i).2 ⟨hy, hi⟩)]
        rfl
      obtain ⟨hzone, hother, -, hout⟩ := Part.issuePass_spec hs z
      exact ⟨_, hissue, hzone, hother, Part.issuePass_closed hs ((Part.candidacy_iff z k).1 hk).1.1, hout,
        fun n hplan hn => Part.issuePass_node hplan hn⟩
  · intro r g usable d lost
    have hgood : usable → c.supplyBad z = false := (Part.supplyBad_iff z).2
    have hbad : ¬usable → c.supplyBad z = true := fun h => Bool.eq_true_of_not_eq_false (mt (Part.supplyBad_iff z).1 h)
    refine ⟨fun y hy => Part.evalSupply_other hs hy, fun hu hf => Part.evalSupply_same hs ((hgood hu).trans hf.symm),
      fun hu hf => Part.evalSupply_same hs ((hbad hu).trans hf.symm), fun hu hf => ?_,
      fun hu hf => Part.evalSupply_lost hs (hbad hu) hf⟩
    have hd : d = _ := Part.evalSupply_good (hgood hu)
    rw [hd]
    exact ⟨Part.updZone_zone hs z _, Part.supply_out hs (v := false) hf, Part.supply_silent hs false⟩
  · intro starting r g d ended
    have hd : d = c.manifoldLoss a := by
      unfold d Part.ownersLose
      rw [hkind]
    have hno : ¬starting → c.starting = false := fun h => Bool.eq_false_iff.2 (mt Part.starting_iff.1 h)
    obtain ⟨hskip, htake⟩ := Part.manifoldLoss_spec hs hz ha
    rw [hd]
    refine ⟨hskip, fun heq => ?_⟩
    obtain ⟨hstands, hfaults, hsaid, hdisabled⟩ := htake heq
    refine ⟨fun h => hstands (Part.starting_iff.2 h), fun h => hfaults (hno h), fun q hq => hsaid ?_,
      fun h => hdisabled (hno h)⟩
    have hpass : (c.zone z).pass = some q := hq
    simp [Zone.lossNotice, hpass, r]
  · intro d
    have hd : d = c.sealReport a l := if_pos hkind
    rw [hd, Part.sealReport]
    refine ⟨fun h => ?_, fun hl hserves => ?_⟩
    · refine if_neg fun ⟨hslot, hserves⟩ => ?_
      exact h.elim (fun h => absurd (of_decide_eq_true hslot) (Nat.not_lt.2 h)) fun h => h hserves
    · rw [if_pos ⟨decide_eq_true hl, hserves⟩]
      exact Part.sealed_spec hs ha hl
  · intro hit
    refine ⟨fun z hz hfirst => ?_, Part.purgeDone_late hkind⟩
    obtain ⟨hok, hfail⟩ := Part.purgeDone_answered hkind hz hfirst
    obtain ⟨-, -, -, q, hq, hnum⟩ := id hz
    obtain ⟨hzone, hother⟩ := Part.passSucceeds_zone hs z
    obtain ⟨hfzone, hfother, hfout⟩ := Part.passFails_spec hs hq .fail
    rw [hok, hfail]
    refine ⟨hzone, hfzone, hnum ▸ hfout, fun y hy => ⟨hother y hy, hfother y hy⟩,
      fun ha hlimits l m r hl hlz hn hr => ⟨fun hp ht => ?_, Part.passSucceeds_sealed hs ha hl hlz hn hr,
        fun hover hon hsupply hunsealed ht => ?_⟩⟩
    · obtain ⟨hstamp, he, hfrac⟩ := c.purged_account r
      exact ⟨_, Part.passSucceeds_protected hs ha hl hlz hn hr hp ht, hstamp.trans ht, he, hfrac,
        Part.purged_exposure hlimits r⟩
    · exact ⟨_, Part.passSucceeds_settled hs ha hl hlz hn hr hover hon hsupply hunsealed ht, c.purged_settled r⟩
end

section
/-! SUPPORT. What a broken-off move writes (R130, R136): occupancies, records, the ends of moves, steps, jobs and returns,
and orders behind those queued. Nothing of the zones, the tables, the modes and the robots is among it, and neither a move
nor a job is added. -/

namespace Sys2Proof.Machine

/-- `R` is kept by every write of the breaking off of a move: of a record, all but its ID may change. -/
structure Strikes (R : Part → Prop) : Prop where
  say : ∀ {c : Part} {n}, R c → R (c.say n)
  work : ∀ {c : Part} {w}, R c → R { c with work := w }
  watch : ∀ {c : Part} {w}, R c → R { c with watch := w }
  updJob : ∀ {c : Part} {j f}, R c → R (c.updJob j f)
  dropJob : ∀ {c : Part} {j}, R c → R (c.dropJob j)
  putPort : ∀ {c : Part} {p r}, R c → R (c.putPort p r)
  order : ∀ {c : Part} {a o}, R c → R (c.queueOrder a o)
  rescanList : ∀ {c : Part} {l}, R c → R { c with inv := { c.inv with rescan := l } }
  filterMoves : ∀ {c : Part} {p}, R c → R { c with mv := { c.mv with moves := c.mv.moves.filter p } }
  putOcc : ∀ {c : Part} {l o}, R c → R (c.putOcc l o)
  updRec : ∀ {c : Part} {n f}, (∀ r, (f r).id = r.id) → R c → R (c.updRec n f)

section Strikes

variable {R : Part → Prop} (K : Strikes R) {c : Part}
include K

/-! ### The ends of steps, jobs, returns and moves -/

theorem Strikes.signal {g : Sig} (h : R c) : R (c.signal g) := by
  unfold Part.signal
  split
  · exact h
  · exact K.work h

theorem Strikes.ports : PortSide R := ⟨K.signal, K.putPort⟩

theorem Strikes.markStep {j k : Nat} {res : StepResult} {n : Option Nat} (h : R c) : R (c.markStep j k res n) := by
  unfold Part.markStep Part.setStep
  repeat' split
  all_goals first | exact h | exact K.say (K.updJob h)

theorem Strikes.markSteps {j : Nat} {sel : StepState → Bool} {res : StepResult} (h : R c) :
    R (c.markSteps j sel res) := by
  unfold Part.markSteps
  split
  · exact h
  · refine Kept0.each h fun d k hd => ?_
    repeat' split
    all_goals first | exact hd | exact K.markStep hd

theorem Strikes.sendIdle {j : Nat} (h : R c) : R (c.sendIdle j) := by
  unfold Part.sendIdle
  repeat' split
  · exact h
  · exact h
  · exact K.putPort (K.order h)

theorem Strikes.followChain {j p q : Nat} (h : R c) : R (c.followChain j p q) := by
  unfold Part.followChain
  repeat' split
  all_goals first | exact K.putPort h | exact K.say h

theorem Strikes.unbindWatch {j : Nat} (h : R c) : R (c.unbindWatch j) := K.watch h

theorem Strikes.endJob {j : Nat} {out : JobOutcome} (h : R c) : R (c.endJob j out) := by
  have hmarked : R (c.markSteps j (· ≠ .ended) .cancelled) := K.markSteps h
  unfold Part.endJob
  split
  · exact h
  · dsimp only
    repeat' first
      | with_reducible assumption | with_reducible refine K.followChain ?_ | with_reducible refine K.putPort ?_
      | with_reducible refine K.dropJob (K.unbindWatch (K.say ?_)) | with_reducible refine K.sendIdle ?_ | split

theorem Strikes.afterStep {j : Nat} {failed : Bool} (h : R c) : R (c.afterStep j failed) := by
  unfold Part.afterStep
  repeat' split
  all_goals first | exact h | exact K.endJob h | exact K.signal h

theorem Strikes.endStep {j k : Nat} {res : StepResult} {n : Option Nat} {failed : Bool} (h : R c) :
    R (c.endStep j k res n failed) := K.afterStep (K.markStep h)

theorem Strikes.stepMoveEnd {m : Move} {j k : Nat} {res : MoveResult} (h : R c) : R (c.stepMoveEnd m j k res) := by
  have hready : ∀ {p t}, R (c.restoreReady p t) := K.ports.restoreReady h
  unfold Part.stepMoveEnd
  dsimp only
  repeat' split
  all_goals first
    | exact h | exact K.endStep hready | exact K.endStep (K.ports.returnMoveEnd hready)
    | exact K.endStep (K.sendIdle (K.ports.returnMoveEnd h)) | exact K.endStep (K.ports.returnMoveEnd h)

theorem Strikes.rescan {l : Nat} (h : R c) : R (c.rescan l) := by
  unfold Part.rescan
  split
  · exact K.rescanList h
  · exact h

theorem Strikes.removeMove {m : Move} (h : R c) : R (c.removeMove m) := by
  have hgone : ∀ p : Move → Bool, R { c with mv := { c.mv with moves := c.mv.moves.filter p } } := fun _ => K.filterMoves h
  unfold Part.removeMove
  dsimp only
  refine K.signal ?_
  repeat' split
  · exact K.signal (K.signal (hgone _))
  · exact K.signal (hgone _)
  · exact K.signal (hgone _)
  · exact hgone _

theorem Strikes.endMove {m : Move} {res : MoveResult} (h : R c) : R (c.endMove m res) := by
  have hrem : R (c.removeMove m) := K.removeMove h
  unfold Part.endMove
  dsimp only
  repeat' split
  all_goals first
    | exact hrem | exact K.stepMoveEnd hrem | exact K.ports.returnMoveEnd hrem | exact K.rescan hrem | exact K.say hrem

theorem Strikes.endPendingOf {n : Nat} {cause : CancelCause} (h : R c) : R (c.endPendingOf n cause) :=
  Kept0.foldl h (fun _ _ hd => K.endMove hd) _

theorem Strikes.cancelMove {m : Move} {cause : CancelCause} (h : R c) : R (c.cancelMove m cause) := by
  unfold Part.cancelMove
  dsimp only
  split
  · exact K.endMove (K.updRec (fun r => by split <;> rfl) h)
  · exact K.endMove h

theorem Strikes.cancelActive {j : Nat} {r : Job} (h : R c) : R (c.cancelActive j r) := by
  have hmarked : ∀ {sel res}, R ((c.updJob j fun r => { r with cancel := true }).markSteps j sel res) :=
    K.markSteps (K.updJob h)
  unfold Part.cancelActive
  dsimp only
  repeat' split
  all_goals first | exact h | exact K.afterStep (K.cancelMove hmarked) | exact K.afterStep hmarked

/-! ### Holds and accounts -/

theorem Strikes.signalReturnOf {n : Nat} {r : Rec} (h : R c) : R (c.signalReturnOf n r) := by
  unfold Part.signalReturnOf
  repeat' split
  all_goals first | exact h | exact K.signal h

theorem Strikes.holdActs {n : Nat} {r : Rec} (h : R c) : R (c.holdActs n r) := by
  unfold Part.holdActs
  repeat' split
  all_goals first | exact h | exact K.endMove h | exact K.order h

theorem Strikes.addHold {n : Nat} {b : HoldReason} (h : R c) : R (c.addHold n b) := by
  have hset : ∀ {st jb}, R (c.updRec n fun r => { r.setHold b true with state := st, job := jb }) :=
    K.updRec (fun r => r.setHold_id b true) h
  unfold Part.addHold
  split
  · exact h
  · split
    · exact h
    · dsimp only
      refine K.signalReturnOf ?_
      repeat' split
      all_goals first
        | exact hset | exact K.say hset | exact K.holdActs hset | exact K.holdActs (K.say hset)

theorem Strikes.clearHold {n : Nat} {b : HoldReason} {own : Bool} (h : R c) : R (c.clearHold n b own) := by
  have hset : R (c.updRec n fun r => r.setHold b false) := K.updRec (fun r => r.setHold_id b false) h
  unfold Part.clearHold
  dsimp only
  repeat' split
  · exact h
  · exact K.signalReturnOf (K.say hset)
  · exact K.signalReturnOf hset
  · exact h

theorem Strikes.threshold {n : Nat} {down : Bool} (h : R c) : R (c.threshold n down) := by
  unfold Part.threshold
  repeat' split
  · exact h
  · exact K.addHold h
  · exact K.clearHold h
  · exact h

theorem Strikes.accrueRec {n : Nat} (h : R c) : R (c.accrueRec n) := K.updRec (fun r => r.accrue_id _ _) h

theorem Strikes.fixProtection {n : Nat} (h : R c) : R (c.fixProtection n) := by
  unfold Part.fixProtection
  repeat' split
  · exact h
  · exact K.threshold (K.updRec (fun _ => rfl) (K.accrueRec h))
  · exact K.updRec (fun _ => rfl) h
  · exact h

theorem Strikes.limboAccount {n : Nat} (h : R c) : R (c.limboAccount n) := by
  unfold Part.limboAccount
  repeat' split
  · exact h
  · exact K.threshold (K.accrueRec h)
  · exact K.updRec (fun _ => rfl) h

/-! ### What stood at the locations of a broken-off move -/

theorem Strikes.setOcc {l : Nat} {o : Occ} (h : R c) : R (c.setOcc l o) := by
  unfold Part.setOcc
  dsimp only
  repeat' split
  all_goals first | exact K.signal (K.putOcc h) | exact K.putOcc h

theorem Strikes.vacate {n : Nat} {o : Occ} (h : R c) : R (c.vacate n o) := by
  unfold Part.vacate
  repeat' split
  · exact K.setOcc h
  · exact h
  · exact h

theorem Strikes.makeInDoubt {n : Nat} (h : R c) : R (c.makeInDoubt n) :=
  K.limboAccount (K.updRec (fun _ => rfl) (K.vacate h))

theorem Strikes.endOffer {n : Nat} {res : StepResult} (h : R c) : R (c.endOffer n res) := by
  unfold Part.endOffer
  dsimp only
  repeat' split
  all_goals first | exact h | exact K.endStep h | exact K.order h | exact K.endStep (K.order h)

theorem Strikes.endCommitments {n : Nat} {cause : CancelCause} (h : R c) : R (c.endCommitments n cause) := by
  unfold Part.endCommitments
  dsimp only
  repeat' split
  · exact h
  · exact K.endOffer (K.endPendingOf (K.ports.endReturnOf h))
  · exact K.endOffer (K.endPendingOf h)

theorem Strikes.doubt {l : Nat} (h : R c) : R (c.doubt l) := by
  unfold Part.doubt
  split
  · exact K.makeInDoubt (K.endCommitments h)
  · exact h

theorem Strikes.clear {l : Nat} {own : Option Nat} {o : Occ} (h : R c) : R (c.clear l own o) := by
  unfold Part.clear
  split
  · exact h
  · exact K.setOcc (K.doubt h)

theorem Strikes.wreck {m : Move} (h : R c) : R (c.wreck m) := by
  have hclouds : ∀ {d}, R d → R (m.wreckage.foldl Part.cloud d) := fun hd =>
    Kept0.foldl hd (fun _ _ h => K.ports.leavePort (K.clear h)) _
  unfold Part.wreck
  split
  · exact K.clear (hclouds (K.makeInDoubt h))
  · exact K.clear (hclouds h)

theorem Strikes.interrupt {rescan : Bool} {m : Move} (h : R c) : R (c.interrupt rescan m) := by
  unfold Part.interrupt
  dsimp only
  split
  · exact K.endMove (Kept0.foldl (K.wreck h) (fun _ _ h => K.rescan h) _)
  · exact K.endMove (K.wreck h)

theorem Strikes.interruptAll {rescan : Bool} (h : R c) : R (c.interruptAll rescan) :=
  Kept0.foldl h (fun _ _ h => K.interrupt h) _

end Strikes

/-! ### What is left as it was -/

/-- `d` differs from `c` in what the breaking off of moves writes: the zones, the tables, the modes and the robots are the same,
moves have only left the list, notices have only joined, and so have orders. -/
structure Part.Struck (c d : Part) : Prop where
  zones : d.zones = c.zones
  tables : d.tables = c.tables
  gens : d.gens = c.gens
  ctl : d.ctl = c.ctl
  now : d.now = c.now
  window : d.window = c.window
  mv : d.mv = { c.mv with moves := d.mv.moves }
  moves : d.mv.moves.Sublist c.mv.moves
  out : c.out <+: d.out
  posted : c.Posted d

variable {c d e : Part}

theorem Part.Struck.refl (c : Part) : c.Struck c :=
  ⟨rfl, rfl, rfl, rfl, rfl, rfl, rfl, List.Sublist.refl _, List.prefix_rfl, .of_bus rfl⟩

/-- A write of the records, the jobs, the watch points or the signals alone is within the frame. -/
theorem Part.Struck.of_same (h : c.Struck d) (h1 : e.zones = d.zones) (h2 : e.tables = d.tables) (h3 : e.gens = d.gens)
    (h4 : e.ctl = d.ctl) (h5 : e.now = d.now) (h6 : e.window = d.window) (h7 : e.mv = d.mv) (h8 : e.out = d.out)
    (h9 : e.bus = d.bus) : c.Struck e where
  zones := h1.trans h.zones
  tables := h2.trans h.tables
  gens := h3.trans h.gens
  ctl := h4.trans h.ctl
  now := h5.trans h.now
  window := h6.trans h.window
  mv := h7 ▸ h.mv
  moves := h7 ▸ h.moves
  out := h8 ▸ h.out
  posted := h.posted.trans (.of_bus h9)

theorem struck_strikes (c : Part) : Strikes c.Struck where
  say h := { h with
    out := h.out.trans (List.prefix_append _ _)
    posted := h.posted.trans (Part.say_posted _) }
  work h := h.of_same rfl rfl rfl rfl rfl rfl rfl rfl rfl
  watch h := h.of_same rfl rfl rfl rfl rfl rfl rfl rfl rfl
  updJob {d j f} h := by
    unfold Part.updJob
    split
    · exact h
    · exact h.of_same rfl rfl rfl rfl rfl rfl rfl rfl rfl
  dropJob h := h.of_same rfl rfl rfl rfl rfl rfl rfl rfl rfl
  putPort h := h.of_same rfl rfl rfl rfl rfl rfl rfl rfl rfl
  order {d a o} h := by
    obtain ⟨r, hr⟩ : ∃ r, d.queueOrder a o = { d with bus := { d.bus with roster := r } } := by
      unfold Part.queueOrder
      repeat' split
      all_goals exact ⟨_, rfl⟩
    have hposted := h.posted.trans (Part.queueOrder_posted a o)
    rw [hr] at hposted ⊢
    exact { h with posted := hposted }
  rescanList h := h.of_same rfl rfl rfl rfl rfl rfl rfl rfl rfl
  filterMoves h := { h with
    mv := by rw [h.mv]
    moves := List.filter_sublist.trans h.moves
    posted := h.posted.trans (.of_bus rfl) }
  putOcc h := h.of_same rfl rfl rfl rfl rfl rfl rfl rfl rfl
  updRec {d n f} _ h := by
    obtain ⟨w, q, hq⟩ := Part.updRec_eq (c := d) n f
    rw [hq]
    exact h.of_same rfl rfl rfl rfl rfl rfl rfl rfl rfl

theorem Part.Struck.robot_eq (h : c.Struck d) (x : Side) : d.robot x = c.robot x := by
  unfold Part.robot
  rw [h.mv]

theorem Part.Struck.zone_eq (h : c.Struck d) (z : Nat) : d.zone z = c.zone z := by
  unfold Part.zone
  rw [h.zones]

theorem Part.interruptAll_struck (c : Part) (rescan : Bool) : c.Struck (c.interruptAll rescan) :=
  (struck_strikes c).interruptAll (.refl c)

end Sys2Proof.Machine
end

section
/-! SUPPORT. The passes in progress (R61, R68): what begins one, what ends one, and that no other write reaches them. -/

namespace Sys2Proof.Machine

variable {c d : Part}

theorem Part.putZone_zone_of_wf (h : Store.wf Zone.cold c.zones = true) (z y : Nat) (r : Zone) :
    (c.putZone z r).zone y = if y = z then r else c.zone y := by
  split
  · rename_i hy
    exact hy ▸ Store.getD_setD_self h z r
  · rename_i hy
    exact Part.putZone_other r hy

/-! ### Zone by zone -/

/-- Zones written one by one by number, each with no regard to the others. -/
theorem Part.each_zone_of_wf {f : Part → Nat → Part} {g : Zone → Zone}
    (hf : ∀ d z, Store.wf Zone.cold d.zones = true → Store.wf Zone.cold (f d z).zones = true ∧
      ∀ y, (f d z).zone y = if y = z then g (d.zone z) else d.zone y)
    (h : Store.wf Zone.cold c.zones = true) (n : Nat) : Store.wf Zone.cold (c.each n f).zones = true ∧
      ∀ z, (c.each n f).zone z = if z < n then g (c.zone z) else c.zone z := by
  induction n with
  | zero => exact ⟨h, fun z => (if_neg z.not_lt_zero).symm⟩
  | succ n ih =>
    obtain ⟨hwf, hzone⟩ := ih
    have hlast : c.each (n + 1) f = f (c.each n f) n := by
      unfold Part.each
      rw [List.range_succ, List.foldl_append]
      rfl
    obtain ⟨hwf', hzone'⟩ := hf (c.each n f) n hwf
    rw [hlast]
    refine ⟨hwf', fun z => ?_⟩
    rw [hzone', hzone, hzone]
    grind

theorem Part.abortPass_zone (h : Store.wf Zone.cold c.zones = true) (z : Nat) :
    Store.wf Zone.cold (c.abortPass z).zones = true ∧
      ∀ y, (c.abortPass z).zone y = if y = z then { c.zone z with pass := none } else c.zone y := by
  unfold Part.abortPass
  cases hp : (c.zone z).pass with
  | none =>
    rw [if_neg (by simp)]
    refine ⟨h, fun y => ?_⟩
    split
    · rename_i hy
      rw [hy, ← hp]
    · rfl
  | some q =>
    rw [if_pos (by simp)]
    refine ⟨?_, fun y => (Part.queueOrder_zone _ _ y).trans (Part.putZone_zone_of_wf h z y _)⟩
    have hput := Store.wf_setD h z { c.zone z with pass := none }
    unfold Part.manifoldOrder Part.order Part.queueOrder
    repeat' split
    all_goals exact hput

theorem Part.abortPasses_zone (h : Store.wf Zone.cold c.zones = true) : Store.wf Zone.cold c.abortPasses.zones = true ∧
    ∀ z, c.abortPasses.zone z = if z < 16 then { c.zone z with pass := none } else c.zone z :=
  Part.each_zone_of_wf (g := fun r => { r with pass := none }) (fun _ z hd => Part.abortPass_zone hd z) h 16

theorem Part.clearMarks_zone (h : Store.wf Zone.cold c.zones = true) (z : Nat) :
    c.clearMarks.zone z = if z < 16 then { c.zone z with mark := false } else c.zone z :=
  (Part.each_zone_of_wf (g := fun r => { r with mark := false })
    (fun _ z hd => ⟨Store.wf_setD hd _ _, fun y => Part.putZone_zone_of_wf hd z y _⟩) h 16).2 z

/-! ### The count -/

theorem Part.passes_of_zones (h : d.zones = c.zones) : d.passes = c.passes := by
  unfold Part.passes Part.zone
  rw [h]

theorem Part.passes_le (h : ∀ y, (d.zone y).pass.isSome → (c.zone y).pass.isSome) : d.passes ≤ c.passes :=
  (List.monotone_filter_right _ h).length_le

theorem Part.passes_le_succ (z : Nat) (h : ∀ y, y ≠ z → (d.zone y).pass.isSome → (c.zone y).pass.isSome) :
    d.passes ≤ c.passes + 1 := by
  -- the zones of the one that have a pass are among those of the other, and `z`
  have hsub : (List.range 16).filter (fun y => (d.zone y).pass.isSome) ⊆
      z :: (List.range 16).filter fun y => (c.zone y).pass.isSome := fun y hy => by
    obtain ⟨hy16, hpass⟩ := List.mem_filter.1 hy
    by_cases hyz : y = z
    · exact List.mem_cons.2 (.inl hyz)
    · exact List.mem_cons_of_mem _ (List.mem_filter.2 ⟨hy16, h y hyz hpass⟩)
  exact (List.subperm_of_subset (List.nodup_range.filter _) hsub).length_le

theorem Part.passes_eq_zero (h : ∀ z < 16, (c.zone z).pass = none) : c.passes = 0 := by
  unfold Part.passes
  rw [List.length_eq_zero_iff, List.filter_eq_nil_iff]
  intro z hz
  simp [h z (List.mem_range.1 hz)]

/-! ### The bound -/

/-- The zone table is in canonical form, and no more passes are in progress than PURGE_CONCURRENCY allows. -/
def Part.passesBound (c : Part) : Prop := Store.wf Zone.cold c.zones = true ∧ c.passesSound

theorem Part.passesBound_of_sched (hz : d.zones = c.zones) (ht : d.tables.zone.sched = c.tables.zone.sched)
    (h : c.passesBound) : d.passesBound := by
  refine ⟨hz ▸ h.1, ?_⟩
  unfold Part.passesSound Part.sched
  rw [Part.passes_of_zones hz, ht]
  exact h.2

theorem Part.passesBound.tables {t : Tables} (h : c.passesBound) (ht : t.zone = c.tables.zone) :
    Part.passesBound { c with tables := t } :=
  Part.passesBound_of_sched (c := c) rfl (congrArg ZoneTable.sched ht) h

/-- The bound is a matter of the zones and of the schedule alone. -/
theorem free_passesBound : KeptFree Part.passesBound where
  out h := h
  work h := h
  watch h := h
  putOcc h := h
  setHint h := h
  putFlags h := h
  clearHints h := h
  rescanList h := h
  setCursor h := h
  dropRec h := h
  updRec {c n f} _ h := by
    obtain ⟨w, q, e⟩ := Part.updRec_eq (c := c) n f
    rw [e]
    exact h
  newRec _ _ h := h
  putZone {c z r} hr h := ⟨Store.wf_setD h.1 _ _, Nat.le_trans (Part.passes_le fun y hy => by
    rw [Part.putZone_zone_of_wf h.1] at hy
    split at hy
    · rename_i hyz
      exact hyz ▸ hr.2 hy
    · exact hy) h.2⟩
  beginPass {c z q n} hc h := ⟨Store.wf_setD h.1 _ _,
    Nat.le_trans (Part.passes_le_succ z fun y hyz hy => by rwa [Part.putZone_other _ hyz] at hy) hc⟩
  updJob {c j f} _ h := by
    unfold Part.updJob
    split <;> exact h
  newJob _ _ h := h
  dropJob h := h
  putPort h := h
  offers h := h
  putNode h := h
  dropNode h := h
  exchange h := h
  putRobot {c x r} h := by cases x <;> exact h
  filterMoves h := h
  mapMoves _ h := h
  admitMove _ _ _ h := h

/-- Every write of a whole event keeps the bound, those of the live tables and the starts apart. -/
theorem kept_passesBound : KeptTime Part.passesBound where
  __ := free_passesBound.kept
  ctl h := h
  window h := h
  bus _ h := h
  robots h := h
  now _ h := h

end Sys2Proof.Machine
end

section
/-! SUPPORT. The bound on the passes in progress as tables become live (R61, R68, R175, R188, R191): a zone table that its
validation takes leaves room for them, and no other table bears on them. -/

namespace Sys2Proof.Machine

variable {c d : Part}

/-! ### Single tables -/

theorem Part.passesBound.gens {g : List Nat} (h : c.passesBound) : Part.passesBound { c with gens := g } := h

theorem Part.passesBound.liveSlotMap {t : Store SlotCfg} (h : c.passesBound) : (c.liveSlotMap t).passesBound := by
  unfold Part.liveSlotMap
  dsimp only
  split
  · exact kept_passesBound.signal (h.tables rfl)
  · exact h.tables rfl

/-- The port table reaches the zones of no part, whatever the bound that they keep. -/
theorem Part.livePorts_struck (t : Store PortCfg) :
    Part.Struck { c with tables := { c.tables with ports := t } } (c.livePorts t) := by
  unfold Part.livePorts
  refine Kept0.each (.refl _) fun d p hd => ?_
  repeat' split
  · exact (struck_strikes _).cancelActive hd
  · exact hd
  · exact hd

theorem Part.livePorts_zones (t : Store PortCfg) : (c.livePorts t).zones = c.zones := (c.livePorts_struck t).zones

theorem Part.passesBound.livePorts {t : Store PortCfg} (h : c.passesBound) : (c.livePorts t).passesBound := by
  have hs := c.livePorts_struck t
  exact Part.passesBound_of_sched hs.zones (by rw [hs.tables]) h

/-- The bound as a zone table becomes live is the new one from its first write on. -/
theorem Part.liveZones_passesBound {t : ZoneTable} {eval : Bool} (hwf : Store.wf Zone.cold c.zones = true)
    (hle : c.passes ≤ t.sched.concurrency) : (c.liveZones t eval).passesBound := by
  have K := kept_passesBound
  unfold Part.liveZones
  extract_lets c1
  refine Kept0.each ⟨hwf, hle⟩ fun d z h => ?_
  extract_lets old new r timer moved fault c2
  have h2 : c2.passesBound := K.zoneSettled (K.putZone ⟨id, id⟩ h)
  clear_value c2
  split
  · exact K.signal h2
  · exact h2

theorem Part.passesBound.liveClasses {t : List ClassCfg} (h : c.passesBound) : (c.liveClasses t).passesBound :=
  (Kept0.foldl h (fun _ _ h => kept_passesBound.settle h) _ : Part.passesBound _).tables rfl

theorem Part.passesBound.liveLimits {t : Limits} (h : c.passesBound) : (c.liveLimits t).passesBound := by
  have K := kept_passesBound
  have h1 : Part.passesBound { c with tables := { c.tables with limits := t } } := h.tables rfl
  exact K.disableChange (K.disableChange (Kept0.foldl h1 (fun _ _ h => K.threshold h) _))

theorem Part.passesBound.livePlan {t : Store PlanEntry} (h : c.passesBound) : (c.livePlan t).passesBound := by
  have K := kept_passesBound
  unfold Part.livePlan
  extract_lets changed c1 _ c2
  have h1 : c1.passesBound := Kept0.foldl h (fun _ _ h => K.dropPlanned h) _
  have h2 : c2.passesBound := h1.tables rfl
  exact Kept0.foldl h2 (fun _ _ h => K.rosterChanged (K.addPlanned h)) _

/-- The validation of a zone table looks at the passes in progress (R61). -/
theorem Part.passes_le_of_badZones {t : ZoneTable} (h : c.badZones t = none) : c.passes ≤ t.sched.concurrency := by
  unfold Part.badZones at h
  rw [Option.orElse_eq_none] at h
  simpa using h.2

/-- A zone table that has room for the passes in progress, and any other table. -/
theorem Part.passesBound.commit {w : Shadow} (h : c.passesBound)
    (hroom : ∀ t, w = .zone t → c.passes ≤ t.sched.concurrency) : (c.commit w).passesBound := by
  have hlive : (c.makeLive w).passesBound := by
    cases w with
    | slotMap t => exact h.liveSlotMap
    | port t => exact h.livePorts
    | zone t => exact Part.liveZones_passesBound h.1 (hroom t rfl)
    | cls t => exact h.liveClasses
    | limits t => exact h.liveLimits
    | plan t => exact h.livePlan
    | filter t => exact h.tables rfl
  exact hlive.gens

/-! ### All seven -/

theorem Part.liveSlotMap_zones (t : Store SlotCfg) : (c.liveSlotMap t).zones = c.zones := by
  unfold Part.liveSlotMap
  dsimp only
  split
  · exact Part.signal_zones _ _
  · rfl

theorem Part.commit_zones (w : Shadow) : (c.commit w).zones = (c.makeLive w).zones := rfl

/-- The seven tables of one event: the zones are as they were until the zone table is live, which has room for the passes. -/
theorem Part.commitAll_passesBound {t : Tables} (hwf : Store.wf Zone.cold c.zones = true)
    (hle : c.passes ≤ t.zone.sched.concurrency) : (c.commitAll t).passesBound := by
  obtain ⟨c1, hc1⟩ : ∃ d, d = (c.commit (.slotMap t.slotMap)).commit (.port t.ports) := ⟨_, rfl⟩
  have hzones : c1.zones = c.zones := by
    rw [hc1, Part.commit_zones, Part.makeLive, Part.livePorts_zones, Part.commit_zones, Part.makeLive, Part.liveSlotMap_zones]
  have hlive : (c1.liveZones t.zone true).passesBound :=
    Part.liveZones_passesBound (by rwa [hzones]) (by rwa [Part.passes_of_zones hzones])
  have hzone : (c1.commit (.zone t.zone)).passesBound := hlive.gens
  unfold Part.commitAll Tables.shadows
  simp only [List.foldl_cons, List.foldl_nil, ← hc1]
  have hcls := hzone.commit (w := .cls t.classes) fun _ h => nomatch h
  have hlimits := hcls.commit (w := .limits t.limits) fun _ h => nomatch h
  have hplan := hlimits.commit (w := .plan t.plan) fun _ h => nomatch h
  exact hplan.commit fun _ h => nomatch h

theorem Part.passes_le_of_badTables {t : Tables} (h : c.badTables t = none) : c.passes ≤ t.zone.sched.concurrency := by
  have hzone := List.findSome?_eq_none_iff.1 h (.zone t.zone) (by simp [Tables.shadows])
  exact Part.passes_le_of_badZones (Option.map_eq_none_iff.1 hzone)

/-! ### The starts -/

theorem Part.passesBound.withStatesOf {was : Part} (h : c.passesBound) : (c.withStatesOf was).passesBound :=
  kept_passesBound.putRobot (kept_passesBound.putRobot h)

theorem Part.passesBound.replan {a : Nat} {e : PlanEntry} (h : c.passesBound) : (c.replan a e).passesBound := by
  unfold Part.replan
  dsimp only
  repeat' split
  all_goals exact h

theorem Part.passesBound.warmPlan {t : Store PlanEntry} (h : c.passesBound) : (c.warmPlan t).passesBound := by
  have K := kept_passesBound
  unfold Part.warmPlan
  extract_lets all new gone added changed c1 _ c2 c3 c4
  have h1 : c1.passesBound := Part.passesBound.withStatesOf (Kept0.foldl h (fun _ _ h => K.dropPlanned h) _)
  have h2 : c2.passesBound := h1.tables rfl
  have h3 : c3.passesBound := Kept0.foldl h2 (fun _ _ h => K.addPlanned h) _
  have h4 : c4.passesBound := Kept0.foldl h3 (fun _ _ h => h.replan) _
  refine Kept0.each h4 fun d col hd => ?_
  split
  · exact hd
  · exact K.clearHints hd

theorem Part.passesBound.warmRobot {x : Side} {was : Bool} (h : c.passesBound) : (c.warmRobot x was).passesBound := by
  unfold Part.warmRobot
  dsimp only
  repeat' split
  all_goals first | exact kept_passesBound.putRobot h | exact h

theorem Part.warmTables_passesBound {t : Tables} {gens : List Nat} {bad : Bool}
    (hwf : Store.wf Zone.cold c.zones = true) (hpass : c.passes = 0) : (c.warmTables t gens bad).passesBound := by
  unfold Part.warmTables
  extract_lets wasA wasB c1 _ tables _ c2 c3
  have h1 : c1.passesBound := (Part.liveZones_passesBound hwf (hpass ▸ Nat.zero_le _)).warmPlan
  clear_value c1
  have h2 : c2.passesBound := h1.tables rfl
  clear_value c2
  have h3 : c3.passesBound := Kept0.foldl h2 (fun _ _ h => kept_passesBound.threshold h) _
  exact h3.warmRobot.warmRobot

/-- The blocks at a warm start before its tables are live (R191): what the outgoing tables end has ended. -/
def Part.warmEnded (c : Part) : Part :=
  let c2 := c.emptyQueues.abortPasses.warmJobs.interruptAll true
  let c4 := (Part.warmInventory { c2 with mv := { c2.mv with moves := [], nextNum := 0, lastSeq := 0 } }).warmWatch
  { c4 with ctl := c4.ctl.warm, window := none, work := [], bus := { c4.bus with enum := some ⟨.warm, []⟩ } }

theorem Part.warmStart_eq (image : List Byte) : c.warmStart image =
    (((c.warmEnded.warmTables (startTables image).1 (startTables image).2.1 (startTables image).2.2).resetRobot
      .a).resetRobot .b).beginEnum .warm := rfl

theorem Part.warmJobs_zones : c.warmJobs.zones = c.zones :=
  Kept0.each (R := fun d => d.zones = c.zones) rfl fun _ _ h => h

theorem Part.emptyQueues_zones : c.emptyQueues.zones = c.zones := by
  have hqueue : ∀ (d : Part) a q, d.zones = c.zones → (d.undelivered a q).zones = c.zones := fun d a q hd =>
    Kept0.foldl (R := fun d => d.zones = c.zones) hd (fun d o hd => by split <;> exact hd) q
  have hall : (c.bus.roster.foldl (fun c e => c.undelivered e.1 e.2.queue) c).zones = c.zones :=
    Kept0.foldl (R := fun d => d.zones = c.zones) rfl (fun d e hd => hqueue d _ _ hd) _
  exact hall

theorem Part.warmEnded_zones : c.warmEnded.zones = c.emptyQueues.abortPasses.zones := by
  unfold Part.warmEnded Part.warmWatch Part.warmInventory
  dsimp only
  rw [(Part.interruptAll_struck _ true).zones, Part.warmJobs_zones]

/-- A warm start aborts every pass before its tables are live (R80, R191). -/
theorem Part.warmEnded_idle (hwf : Store.wf Zone.cold c.zones = true) : Store.wf Zone.cold c.warmEnded.zones = true ∧
    ∀ z < 16, (c.warmEnded.zone z).pass = none := by
  have hempty : Store.wf Zone.cold c.emptyQueues.zones = true := by
    rw [Part.emptyQueues_zones]
    exact hwf
  obtain ⟨hwf', hzone⟩ := Part.abortPasses_zone hempty
  unfold Part.zone at hzone ⊢
  rw [Part.warmEnded_zones]
  exact ⟨hwf', fun z hz => by rw [hzone, if_pos hz]⟩

theorem Part.warmStart_passesBound {image : List Byte} (hwf : Store.wf Zone.cold c.zones = true) :
    (c.warmStart image).passesBound := by
  have K := kept_passesBound
  obtain ⟨hwf', hpass⟩ := Part.warmEnded_idle hwf
  rw [Part.warmStart_eq]
  exact K.beginEnum (K.resetRobot (K.resetRobot (Part.warmTables_passesBound hwf' (Part.passes_eq_zero hpass))))

theorem Part.coldStart_passesBound (image : List Byte) (e p : Bool) : (Part.coldStart image e p).passesBound := by
  refine kept_passesBound.coldStartOf ⟨coldZones_wf (startTables_rising image).1, ?_⟩
  have hzero : (Part.coldWith (startTables image).1 (startTables image).2.1 (startTables image).2.2).passes = 0 :=
    Part.passes_eq_zero fun z _ => congrArg Zone.pass (coldZones_zone _ (startTables_rising image).1 z)
  unfold Part.passesSound
  rw [hzero]
  exact Nat.zero_le _

/-! ### The commands -/

variable {s t : State}

/-- The commands that rewrite tables keep the bound. -/
theorem Part.passesBound.rewrites {i : Instr} (hi : rewritesTables i = true) (h : s.part.passesBound)
    (he : exec i s = .next t) : t.part.passesBound := by
  have K := kept_passesBound
  have hwarm : ∀ {s : State} {w}, s.part.passesBound → (s.warmStart w).part.passesBound := fun {s} _ h => by
    unfold State.warmStart
    simp only [State.flush_part]
    exact K.say (K.out (Part.warmStart_passesBound h.1))
  have hrestore : ∀ {s : State} {tabs c}, c.passesBound → c.zones = s.part.zones →
      (s.restore tabs c).1.part.passesBound := fun {s tabs c} h hz => by
    unfold State.restore
    split
    · exact h
    · rename_i hbad
      exact Part.commitAll_passesBound h.1 (Part.passes_of_zones hz ▸ Part.passes_le_of_badTables hbad)
  cases i with
  | coldStart e p =>
    cases he
    exact K.finish (Part.coldStart_passesBound _ e p)
  | loadCommit =>
    cases he
    refine K.request h fun s h => State.notInStart_keeps h (State.tableNamed_keeps h fun _ => ?_)
    split
    · exact h
    · refine State.need_keeps h fun _ => State.need_keeps h fun _ => ?_
      split
      · exact h
      · rename_i w _ hbad
        exact Part.passesBound.commit (c := { s.part with window := none }) h fun t ht => by
          rw [ht] at hbad
          exact Part.passes_le_of_badZones hbad
  | reloadImage =>
    cases he
    refine K.request h fun s h => State.inMode_keeps h (State.need_keeps h fun _ => State.need_keeps h fun _ => ?_)
    split
    · exact hrestore h rfl
    · exact h
  | restoreDefaults =>
    cases he
    exact K.request h fun s h => State.inMode_keeps h (State.need_keeps h fun _ => State.need_keeps h fun _ =>
      hrestore h rfl)
  | softReset =>
    cases he
    refine K.request h fun s h => State.notInStart_keeps h ?_
    split
    · exact h
    · exact hwarm h
  | imageWriteDone ok =>
    cases he
    split
    · exact h
    · rename_i copy _
      have h1 : (s.part.imageWritten copy.2 ok).passesBound := K.say (K.ctl h)
      dsimp only
      split
      · exact K.finish (hwarm h1)
      · exact K.finish h1
  | _ => cases hi

end Sys2Proof.Machine
end

section
open Sys2Proof Sys2Proof.Machine

/-- Settles O7: the supply begins a pass only below PURGE_CONCURRENCY, every other write of a command adds none, a zone table
becomes live only with room for those in progress, and a start ends them all. -/
theorem passesKept : Obligations.PassesKept := by
  unfold Obligations.PassesKept
  intro s t hs hpasses hstep
  have hbound : s.part.passesBound := ⟨hs.zones, hpasses⟩
  suffices hnext : t.part.passesBound from hnext.2
  unfold Machine.step at hstep
  split at hstep
  · rename_i i rest _
    cases hi : rewritesTables i with
    | false => exact kept_passesBound.exec (s := { s with pending := rest }) hi hbound hstep
    | true => exact Part.passesBound.rewrites (s := { s with pending := rest }) hi hbound hstep
  · cases hstep
    exact kept_passesBound.now (Nat.le_succ _) hbound
end

section
/-! SUPPORT. A robot's candidate (R65, R118): the first of its moves that may run, express moves ahead of the others. -/

namespace Sys2Proof.Machine

/-- The first element that `q` takes, those that `p` prefers ahead of the others: it stands behind none that `q` takes but
unpreferred ones where it is preferred itself, and ahead of no preferred one where it is not. -/
theorem find?_preferred {α : Type} (p q : α → Bool) (l : List α) (m : α) :
    ((l.find? fun a => p a && q a) <|> l.find? q) = some m ↔ ∃ older newer, l = older ++ m :: newer ∧ q m = true ∧
      (∀ k ∈ older, q k = true → p m = true ∧ p k = false) ∧ ∀ k ∈ newer, q k = true → p k = true → p m = true := by
  constructor
  · intro h
    cases hboth : l.find? (fun a => p a && q a) with
    | some k =>
      rw [hboth] at h
      obtain rfl : k = m := Option.some.inj h
      obtain ⟨hk, older, newer, hl, holder⟩ := List.find?_eq_some_iff_append.1 hboth
      obtain ⟨hp, hq⟩ := Bool.and_eq_true_iff.1 hk
      exact ⟨older, newer, hl, hq, fun a ha hqa => ⟨hp, by simpa [hqa] using holder a ha⟩, fun _ _ _ _ => hp⟩
    | none =>
      rw [hboth] at h
      obtain ⟨hq, older, newer, hl, holder⟩ := List.find?_eq_some_iff_append.1 (show l.find? q = some m from h)
      refine ⟨older, newer, hl, hq, fun a ha hqa => absurd hqa (by simpa using holder a ha), fun a ha hqa hpa => ?_⟩
      exact absurd (List.find?_eq_none.1 hboth a (by simp [hl, ha])) (by simp [hpa, hqa])
  · rintro ⟨older, newer, hl, hq, holder, hnewer⟩
    cases hp : p m with
    | true =>
      have hboth : l.find? (fun a => p a && q a) = some m := by
        refine List.find?_eq_some_iff_append.2 ⟨by simp [hp, hq], older, newer, hl, fun a ha => ?_⟩
        cases hqa : q a with
        | true => simp [(holder a ha hqa).2]
        | false => simp
      rw [hboth]
      rfl
    | false =>
      have hnone : ∀ a ∈ older, q a ≠ true := fun a ha hqa => absurd (holder a ha hqa).1 (by simp [hp])
      have hboth : l.find? (fun a => p a && q a) = none := by
        refine List.find?_eq_none.2 fun a ha hpq => ?_
        obtain ⟨hpa, hqa⟩ := Bool.and_eq_true_iff.1 hpq
        rcases List.mem_append.1 (hl ▸ ha) with ha | ha
        · exact hnone a ha hqa
        · rcases List.mem_cons.1 ha with rfl | ha
          · exact absurd hpa (by simp [hp])
          · exact absurd (hnewer a ha hqa hpa) (by simp [hp])
      have hfirst : l.find? q = some m :=
        List.find?_eq_some_iff_append.2 ⟨hq, older, newer, hl, fun a ha => by simpa using hnone a ha⟩
      rw [hboth, hfirst]
      rfl

variable {c : Part}

theorem Move.touches_iff (m : Move) (z : Nat) :
    m.touches z = true ↔ ∃ l < 960, l / 60 = z ∧ (m.src = some l ∨ m.dst = some l) := by
  unfold Move.touches isSlot columnOf
  constructor
  · intro h
    rcases Bool.or_eq_true_iff.1 h with h | h
    · cases hl : m.src with
      | none => simp [hl] at h
      | some l =>
        simp only [hl, Bool.and_eq_true, decide_eq_true_eq, beq_iff_eq] at h
        exact ⟨l, h.1, h.2, .inl rfl⟩
    · cases hl : m.dst with
      | none => simp [hl] at h
      | some l =>
        simp only [hl, Bool.and_eq_true, decide_eq_true_eq, beq_iff_eq] at h
        exact ⟨l, h.1, h.2, .inr rfl⟩
  · rintro ⟨l, hl, hz, h | h⟩ <;> simp [h, hl, hz]

theorem Part.touchesClosed_false_iff (m : Move) :
    c.touchesClosed m = false ↔ ∀ z < 16, m.touches z = true → c.zoneClosed z = false := by
  unfold Part.touchesClosed
  simp

theorem Mode.grants_iff (m : Mode) (k : MoveKind) : m.grants k = true ↔ m = .normal ∨ m = .maintenance ∨
    (m = .standalone ∧ (k = .relocate ∨ k = .scan ∨ k = .manual)) := by
  cases m <;> cases k <;> simp [Mode.grants]

/-- A move that its robot may be granted (R118): PENDING, of a kind that the mode grants, touching no closed zone. -/
def Part.fits (c : Part) (x : Side) (m : Move) : Bool :=
  m.robot == x && m.state == .pending && c.ctl.mode.grants m.kind && !c.touchesClosed m

theorem Part.fits_iff (x : Side) (m : Move) : c.fits x m = true ↔ m.robot = x ∧ m.state = .pending ∧
    (c.ctl.mode = .normal ∨ c.ctl.mode = .maintenance ∨
      (c.ctl.mode = .standalone ∧ (m.kind = .relocate ∨ m.kind = .scan ∨ m.kind = .manual))) ∧
    ∀ z < 16, m.touches z = true → c.zoneClosed z = false := by
  unfold Part.fits
  rw [Bool.and_eq_true, Bool.and_eq_true, Bool.and_eq_true, beq_iff_eq, beq_iff_eq, Mode.grants_iff, Bool.not_eq_true',
    Part.touchesClosed_false_iff, and_assoc, and_assoc]

theorem Part.candidate_eq (x : Side) : c.candidate x = if (c.robot x).state = .idle then
    (c.mv.moves.find? fun m => m.express && c.fits x m) <|> c.mv.moves.find? (c.fits x) else none := rfl

theorem Part.candidate_none_iff {x : Side} (h : (c.robot x).state = .idle) :
    c.candidate x = none ↔ ∀ m ∈ c.mv.moves, ¬c.fits x m = true := by
  rw [Part.candidate_eq, if_pos h, Option.orElse_eq_none, List.find?_eq_none, List.find?_eq_none]
  refine ⟨And.right, fun hnone => ⟨fun m hm => ?_, hnone⟩⟩
  rw [Bool.and_eq_true]
  exact fun hboth => hnone m hm hboth.2

end Sys2Proof.Machine
end

section
open Sys2Proof Sys2Proof.Machine

/-- Settles O55: the candidate is the first express move that fits, and with none the first that fits. -/
theorem candidateChosen : Obligations.CandidateChosen := by
  unfold Obligations.CandidateChosen
  refine ⟨Move.touches_iff, fun c x => ⟨fun h => if_neg h, fun h => ?_, fun h m => ?_⟩⟩
  · rw [Part.candidate_none_iff h]
    simp only [Part.fits_iff]
  · rw [Part.candidate_eq, if_pos h, find?_preferred]
    simp only [Part.fits_iff]
end

section
/-! SUPPORT. The completion of a pending standalone entry (R77, R177, R180). -/

namespace Sys2Proof.Machine

variable {c : Part}

theorem Part.marksComplete_iff : c.marksComplete = true ↔ ∀ z < 16, ((c.zoneCfg z).enabled = true ∧
    (c.zone z).failures ≠ 2 ∧ (c.zone z).supplyFault = false) → (c.zone z).mark = true := by
  unfold Part.marksComplete
  rw [List.all_eq_true]
  refine forall_congr' fun z => ?_
  rw [List.mem_range, ← Part.zoneRequired_iff]
  cases c.zoneRequired z <;> simp

/-- The blocks as STANDALONE is entered from a mode `m` for a cause (R177, R180, R181). -/
theorem Part.enterStandalone_eq (cause : ModeCause) : c.enterStandalone cause = { c with
    ctl := { c.ctl with mode := .standalone, ret := some c.ctl.mode, pending := false }
    window := none
    out := c.out ++ Subject.modeChange .standalone c.ctl.mode cause FailCauses.none (some c.ctl.mode) none ::
      c.window.toList.map fun w => .windowDiscarded w.shadow.table .standalone } := by
  obtain ⟨now, tables, gens, inv, zones, jobs, mv, watch, bus, window, ctl, out, work⟩ := c
  cases window <;> simp [Part.enterStandalone, Part.setMode, Part.discardWindow, Part.say]

end Sys2Proof.Machine
end

section
open Sys2Proof Sys2Proof.Machine

/-- Settles O37: each request is its owner's operation behind its tests, and a complete entry is the first thing that is
left to do in an event. -/
theorem modeRequests : Obligations.ModeRequests := by
  unfold Obligations.ModeRequests
  refine ⟨fun s tag hl => ⟨fun hm => ?_, fun hm => ?_, fun hm hp => ?_, fun hm hp => ?_, fun hm => ?_, fun hm => ?_,
    fun a hm ha => ?_, fun hm => ?_, fun hm he hs => ?_, fun hm hi => ?_⟩, fun c => ?_⟩
  · have hmode : s.part.ctl.mode = .normal := hm
    exact State.request_accepted hl (by simp [State.inMode, hm, hmode, Part.setMode, Part.say])
  · have hmode : s.part.ctl.mode = .maintenance := hm
    exact State.request_accepted hl (by simp [State.inMode, hm, hmode, Part.setMode, Part.say])
  · refine State.request_accepted hl ?_
    rcases hm with hm | hm <;> simp [State.need, hm, hp, Part.beginStandalone]
  · refine State.request_refused hl ?_
    rcases hm with hm | hm <;> simp [State.need, hm, hp]
  · exact State.request_accepted hl (by simp [State.inMode, State.need, hm])
  · exact State.request_accepted hl (by simp [State.inMode, State.need, hm])
  · exact State.request_refused hl (by simp [State.inMode, State.need, hm, Nat.not_lt.2 ha])
  · exact State.request_accepted hl (by simp [State.inService, hm])
  · exact State.request_accepted hl (by simp [State.inMode, State.need, hm, he, hs])
  · refine State.request_refused hl ?_
    rcases hi with hi | hi <;> simp [State.inMode, State.need, hm, hi]
  · intro required complete
    have hcomplete : complete ↔ c.ctl.pending ∧ (c.ctl.mode = .normal ∨ c.ctl.mode = .maintenance) ∧ c.marksComplete := by
      rw [Part.marksComplete_iff]
    rw [hcomplete]
    refine ⟨fun h => if_neg h, fun h => ?_⟩
    have hsome : c.standaloneOnce = some _ := if_pos h
    refine ⟨_, hsome, ?_, ?_⟩
    · rw [Part.nextAct, hsome]
      rfl
    · rw [Part.enterStandalone_eq]
      simp
end

section
/-! SUPPORT. Every dispatched move broken off (R130, R136): none is left in the list, what each names is UNKNOWN and its reticle
IN_DOUBT. -/

namespace Sys2Proof.Machine

variable {c d e : Part}

/-! ### The moves -/

theorem Part.interruptAll_of_none (h : ∀ m ∈ c.mv.moves, m.granted = false) (rescan : Bool) :
    c.interruptAll rescan = c := by
  unfold Part.interruptAll
  rw [List.filter_eq_nil_iff.2 fun m hm => by simp [h m hm]]
  rfl

theorem Part.interrupts_gone (rescan : Bool) (ms : List Move) {m : Move} (hm : m ∈ ms) :
    m ∉ (ms.foldl (Part.interrupt rescan) c).mv.moves := by
  induction ms generalizing c with
  | nil => cases hm
  | cons k ks ih =>
    rcases List.mem_cons.1 hm with rfl | hm
    · have hrest : (c.interrupt rescan m).Struck (ks.foldl (Part.interrupt rescan) (c.interrupt rescan m)) :=
        Kept0.foldl (.refl _) (fun _ _ h => (struck_strikes _).interrupt h) _
      exact fun hin => Part.endMove_gone (hrest.moves.subset hin) rfl
    · exact ih hm

theorem Part.interruptAll_granted (rescan : Bool) : ∀ m ∈ (c.interruptAll rescan).mv.moves, m.granted = false := by
  intro m hm
  refine Bool.eq_false_iff.2 fun hg => ?_
  have hin : m ∈ c.mv.moves := (c.interruptAll_struck rescan).moves.subset hm
  exact Part.interrupts_gone rescan _ (List.mem_filter.2 ⟨hin, hg⟩) hm

/-! ### The locations and the reticles -/

theorem Part.wreck_doubts (hs : c.sound) (m : Move) : c.Doubts (c.wreck m) := by
  obtain ⟨hs1, hdoubts1, -⟩ := Part.reticleLost_spec hs m
  obtain ⟨hdoubts2, -⟩ := Part.clouds_doubts m.wreckage hs1
  obtain ⟨hdoubts3, -⟩ := Part.clear_unknown (Kept0.foldl hs1 (fun _ _ h => kept_sound.cloud h) m.wreckage)
    (handOf m.robot)
  exact (hdoubts1.trans hdoubts2).trans hdoubts3

theorem Part.endMove_doubts (m : Move) (res : MoveResult) : c.Doubts (c.endMove m res) := by
  have hframed : c.Framed (c.endMove m res) := (framed_holds c).endMove (.refl c)
  have hrecs : (c.endMove m res).inv.recs = c.inv.recs := (ends_recs c.inv.recs).endMove rfl
  exact ⟨fun a => .inl (hframed.occ_eq a), fun n q _ hq hgone => ⟨q, by rw [Part.rec?, hrecs]; exact hq, hgone⟩, hframed.out⟩

theorem Part.interrupt_doubts (hs : c.sound) (m : Move) : c.Doubts (c.interrupt false m) :=
  (Part.wreck_doubts hs m).trans (Part.endMove_doubts m .interrupted)

theorem Part.interrupts_doubts (hs : c.sound) (ms : List Move) : c.Doubts (ms.foldl (Part.interrupt false) c) := by
  induction ms generalizing c with
  | nil => exact .refl c
  | cons k ks ih => exact (Part.interrupt_doubts hs k).trans (ih (kept_sound.interrupt hs))

/-- What a move names has become UNKNOWN, and its reticle IN_DOUBT (R136). -/
structure Part.Wrecked (c d : Part) (m : Move) : Prop where
  occ : ∀ l ∈ m.wreckage, d.occ l = .unknown
  hand : d.occ (handOf m.robot) = .unknown
  reticle : ∀ n r, m.reticle = some n → c.rec? n = some r → ∃ q, d.rec? n = some q ∧ q.gone r .inDoubt

theorem Part.Wrecked.trans {m : Move} (h : c.Wrecked d m) (hd : d.Doubts e) : c.Wrecked e m where
  occ l hl := hd.unknown (h.occ l hl)
  hand := hd.unknown h.hand
  reticle n r hn hr := by
    obtain ⟨q, hq, hgone⟩ := h.reticle n r hn hr
    exact hd.gone n q r hq hgone

theorem Part.interrupt_wrecked (hs : c.sound) (m : Move) : c.Wrecked (c.interrupt false m) m := by
  obtain ⟨hgone, hocc, hhand, -⟩ := Part.wreck_spec hs m
  exact Part.Wrecked.trans ⟨hocc, hhand, hgone⟩ (Part.endMove_doubts m .interrupted)

/-- The breaking off of a move takes no record away, and leaves each its ID. -/
theorem strikes_record (n : Nat) (x : RetId) : Strikes fun c => ∃ r, c.rec? n = some r ∧ r.id = x where
  say h := h
  work h := h
  watch h := h
  updJob {c j f} h := by
    unfold Part.updJob
    split <;> exact h
  dropJob h := h
  putPort h := h
  order {c a o} h := by
    unfold Part.queueOrder
    repeat' split
    all_goals exact h
  rescanList h := h
  filterMoves h := h
  putOcc h := h
  updRec {c k f} hf h := by
    obtain ⟨r, hr, hid⟩ := h
    rw [Part.updRec_rec]
    split
    · rename_i hk
      exact ⟨f r, by rw [← hk, hr]; rfl, (hf r).trans hid⟩
    · exact ⟨r, hr, hid⟩

theorem Part.interrupts_wrecked (hs : c.sound) (ms : List Move) {m : Move} (hm : m ∈ ms) :
    c.Wrecked (ms.foldl (Part.interrupt false) c) m := by
  induction ms generalizing c with
  | nil => cases hm
  | cons k ks ih =>
    have hs' : (c.interrupt false k).sound := kept_sound.interrupt hs
    rcases List.mem_cons.1 hm with rfl | hm
    · exact (Part.interrupt_wrecked hs m).trans (Part.interrupts_doubts hs' ks)
    · obtain ⟨hocc, hhand, hgone⟩ := ih hs' hm
      refine ⟨hocc, hhand, fun n r hn hr => ?_⟩
      obtain ⟨r', hr', hid⟩ := (strikes_record n r.id).interrupt (rescan := false) (m := k) ⟨r, hr, rfl⟩
      obtain ⟨q, hq, hqid, hq'⟩ := hgone n r' hn hr'
      exact ⟨q, hq, hqid.trans hid, hq'⟩

theorem Part.interruptAll_wrecked (hs : c.sound) {m : Move} (hm : m ∈ c.mv.moves) (hg : m.granted = true) :
    c.Wrecked (c.interruptAll false) m :=
  Part.interrupts_wrecked hs _ (List.mem_filter.2 ⟨hm, hg⟩)

end Sys2Proof.Machine
end

section
/-! SUPPORT. The changes of mode (R77, R136, R177, R178, R182, R184, R186). -/

namespace Sys2Proof.Machine

variable {c d e : Part}

/-! ### The ports take up their work -/

theorem Part.signal_eq (g : Sig) : ∃ w, c.signal g = { c with work := w } ∧ c.work ⊆ w ∧ g ∈ w := by
  unfold Part.signal
  split
  · exact ⟨c.work, rfl, List.Subset.refl _, by assumption⟩
  · exact ⟨c.work ++ [g], rfl, List.subset_append_left _ _, by simp⟩

theorem Part.signalPorts_eq (n : Nat) : ∃ w, (c.each n fun c p => (c.signal (.handle p)).signal (.attempt p)) =
    { c with work := w } ∧ ∀ p < n, Sig.handle p ∈ w ∧ Sig.attempt p ∈ w := by
  induction n with
  | zero => exact ⟨c.work, rfl, nofun⟩
  | succ n ih =>
    obtain ⟨w, hw, hall⟩ := ih
    obtain ⟨w1, hw1, hsub1, hin1⟩ := Part.signal_eq (c := { c with work := w }) (.handle n)
    obtain ⟨w2, hw2, hsub2, hin2⟩ := Part.signal_eq (c := { c with work := w1 }) (.attempt n)
    refine ⟨w2, ?_, fun p hp => ?_⟩
    · unfold Part.each at hw ⊢
      rw [List.range_succ, List.foldl_append, hw]
      exact (congrArg (Part.signal · (.attempt n)) hw1).trans hw2
    · rcases Nat.lt_succ_iff_lt_or_eq.1 hp with hp | rfl
      · exact ⟨hsub2 (hsub1 (hall p hp).1), hsub2 (hsub1 (hall p hp).2)⟩
      · exact ⟨hsub2 hin1, hin2⟩

/-- The ports take up their work by signals alone (R89, R94, R101). -/
theorem Part.resume_eq (c : Part) : ∃ w, c.resume = { c with work := w } ∧
    ∀ p < 8, Sig.handle p ∈ w ∧ Sig.attempt p ∈ w := by
  unfold Part.resume Part.signalPorts
  exact Part.signalPorts_eq 8

theorem Part.resume_same (c : Part) : c.resume.ctl = c.ctl ∧ c.resume.zones = c.zones ∧ c.resume.out = c.out ∧
    c.resume.mv = c.mv ∧ c.resume.bus = c.bus := by
  obtain ⟨w, hw, -⟩ := c.resume_eq
  rw [hw]
  exact ⟨rfl, rfl, rfl, rfl, rfl⟩

theorem Part.ctl_of_fixed (h : d.fixed = c.fixed) : d.ctl = c.ctl := congrArg (fun x => x.2.2.2.2) h

/-! ### The exit from STANDALONE -/

theorem Part.abortPass_out (z : Nat) : (c.abortPass z).out = c.out := by
  unfold Part.abortPass
  split
  · exact (Part.queueOrder_same _ _).2.2.2.2
  · rfl

theorem Part.abortPasses_out : c.abortPasses.out = c.out := by
  unfold Part.abortPasses
  exact Kept0.each (R := fun d => d.out = c.out) rfl fun _ z h => (Part.abortPass_out z).trans h

theorem Part.clearMarks_out : c.clearMarks.out = c.out := by
  unfold Part.clearMarks
  exact Kept0.each (R := fun d => d.out = c.out) rfl fun _ _ h => h

/-- The blocks as STANDALONE gives way to its return mode, before the marks and the passes (R182). -/
def Part.returned (c : Part) : Part :=
  { c with
    ctl := { c.ctl with mode := c.ctl.ret.getD .normal, ret := none }
    out := c.out ++ [Subject.modeChange (c.ctl.ret.getD .normal) c.ctl.mode .request
      (if c.ctl.ret = some .failSafe then c.ctl.causes else FailCauses.none) none none] }

theorem Part.leaveStandalone_eq (a : Bool) : c.leaveStandalone a =
    (if a then c.returned.abortPasses else c.returned).clearMarks.resume := by
  have hcauses : ({ c with ctl := { c.ctl with ret := none } }.setMode (c.ctl.ret.getD .normal) .request) = c.returned := by
    unfold Part.setMode Part.returned Part.say
    cases c.ctl.ret <;> simp
  unfold Part.leaveStandalone
  rw [hcauses]

theorem Part.leaveStandalone_ctl (a : Bool) :
    (c.leaveStandalone a).ctl = { c.ctl with mode := c.ctl.ret.getD .normal, ret := none } := by
  have K := kept_fixed c.returned.fixed
  rw [Part.leaveStandalone_eq, (Part.resume_same _).1]
  refine (Part.ctl_of_fixed (c := c.returned) (K.clearMarks ?_)).trans rfl
  split
  · exact K.abortPasses rfl
  · rfl

theorem Part.leaveStandalone_out (a : Bool) : (c.leaveStandalone a).out = c.returned.out := by
  rw [Part.leaveStandalone_eq, (Part.resume_same _).2.2.1, Part.clearMarks_out]
  split
  · exact Part.abortPasses_out
  · rfl

theorem Part.leaveStandalone_zone (hs : c.sound) (a : Bool) {z : Nat} (hz : z < 16) :
    (c.leaveStandalone a).zone z = { c.zone z with mark := false, pass := if a then none else (c.zone z).pass } := by
  have hwf : Store.wf Zone.cold c.returned.zones = true := hs.zones
  have hzone : c.returned.zone z = c.zone z := rfl
  have hresumed : ∀ d : Part, d.resume.zone z = d.zone z := fun d => by
    unfold Part.zone
    rw [d.resume_same.2.1]
  rw [Part.leaveStandalone_eq, hresumed]
  cases a with
  | false =>
    have hmarks := Part.clearMarks_zone hwf z
    rw [if_pos hz, hzone] at hmarks
    exact hmarks
  | true =>
    obtain ⟨hwf', hpass⟩ := Part.abortPasses_zone hwf
    have hmarks := Part.clearMarks_zone hwf' z
    rw [if_pos hz, hpass, if_pos hz, hzone] at hmarks
    exact hmarks

/-! ### Orders to the robots -/

/-- A robot as its move is interrupted at fail-safe entry (R136). -/
def Robot.halted (r : Robot) (busy : Option Move) (recovery : List Nat) : Robot :=
  if r.state = .busy ∨ r.state = .yielding then
    { r with
      state := .suspect, current := none, yieldTo := none
      recovery := if busy.isSome then recovery else r.recovery }
  else { r with yieldTo := none }

theorem Part.stopRobot_eq (x : Side) (busy : Option Move) (recovery : List Nat) :
    c.stopRobot x busy recovery = c.putRobot x ((c.robot x).halted busy recovery) := by
  unfold Part.stopRobot Robot.halted
  dsimp only
  split <;> rfl

theorem Part.putRobot_robot_eq (x y : Side) (r : Robot) : (c.putRobot x r).robot y = if y = x then r else c.robot y := by
  cases x <;> cases y <;> rfl

theorem Part.Posted.robotPresent_eq (h : c.Posted d) (ht : d.tables = c.tables) (x : Side) :
    d.robotPresent x = c.robotPresent x := by
  unfold Part.robotPresent Part.presentAt Part.robotAddr
  rw [ht]
  cases c.tables.nodeFor .robot x.index with
  | none => rfl
  | some p =>
    obtain ⟨v, hv⟩ := h.node p
    simp only [Option.bind_some, hv]
    cases c.node? p <;> rfl

/-- An order has joined the queue of a node as `n`, orders of the same event standing ahead of it and behind it. -/
def Part.Told (c : Part) (p : Nat) (n : Node) (o : Order) : Prop :=
  ∃ n', c.node? p = some n' ∧ n'.state = n.state ∧ ∃ u v, n'.queue = n.queue ++ u ++ ⟨o, none⟩ :: v

theorem Part.Told.trans {p : Nat} {n : Node} {o : Order} (h : c.Told p n o) (hd : c.Posted d) : d.Told p n o := by
  obtain ⟨n', hn', hstate, u, v, hq⟩ := h
  obtain ⟨w, hw⟩ := hd.node p
  refine ⟨n'.queueing w, by rw [hw, hn']; rfl, hstate, u, v ++ w, ?_⟩
  rw [Node.queueing, hq]
  simp

/-- An order to a planned robot's node, whatever orders have joined before it. -/
theorem Part.robotOrder_told {x : Side} {p : Nat} {n : Node} (o : Order) (h : c.Posted d) (ht : d.tables = c.tables)
    (haddr : c.robotAddr x = some p) (hn : c.node? p = some n) (hkind : (c.planOf p).kind = .robot) :
    (d.robotOrder x o).Told p n o := by
  obtain ⟨u, hu⟩ := h.node p
  have haddr' : d.robotAddr x = some p := by rw [Part.robotAddr, ht]; exact haddr
  have hkind' : (d.planOf p).kind ≠ .none := by
    rw [Part.planOf, ht]
    exact fun h => nomatch hkind.symm.trans h
  have hdn : d.node? p = some (n.queueing u) := by rw [hu, hn]; rfl
  refine ⟨{ n.queueing u with queue := n.queue ++ u ++ [⟨o, none⟩] }, ?_, rfl, u, [], rfl⟩
  unfold Part.robotOrder
  rw [haddr']
  exact Part.queueOrder_node _ hkind' hdn

/-! ### The entry into FAIL_SAFE -/

theorem Part.abortMotion_same (x : Side) : (c.abortMotion x).inv = c.inv ∧ (c.abortMotion x).mv = c.mv ∧
    (c.abortMotion x).tables = c.tables ∧ (c.abortMotion x).out = c.out := by
  unfold Part.abortMotion
  split
  · obtain ⟨hinv, hmv, htables, -, hout⟩ := Part.queueOrder_same (c := c) (c.robotAddr x) ⟨.abortMotion, none⟩
    exact ⟨hinv, hmv, htables, hout⟩
  · exact ⟨rfl, rfl, rfl, rfl⟩

theorem Part.abortMotion_posted (x : Side) : c.Posted (c.abortMotion x) := by
  unfold Part.abortMotion
  split
  · exact Part.queueOrder_posted ..
  · exact .of_bus rfl

/-- The blocks at fail-safe entry as the moves have been interrupted and the robots told, before the robots' own records. -/
def Part.halting (c : Part) : Part := ((c.interruptAll false).abortMotion .a).abortMotion .b

theorem Part.stopAll_eq : c.stopAll = (c.halting.putRobot .a ((c.robot .a).halted (c.currentOf .a) (c.stopRecovery .a))).putRobot
    .b ((c.robot .b).halted (c.currentOf .b) (c.stopRecovery .b)) := by
  have hrobot : ∀ x, c.halting.robot x = c.robot x := fun x =>
    (Part.robot_of_mv ((Part.abortMotion_same .b).2.1.trans (Part.abortMotion_same .a).2.1) x).trans
      ((c.interruptAll_struck false).robot_eq x)
  have hstop : c.stopAll = (c.halting.stopRobot .a (c.currentOf .a) (c.stopRecovery .a)).stopRobot .b (c.currentOf .b)
    (c.stopRecovery .b) := rfl
  rw [hstop, Part.stopRobot_eq, Part.stopRobot_eq, Part.putRobot_robot_eq, if_neg (by decide), hrobot, hrobot]

theorem Part.stopAll_robot (x : Side) :
    c.stopAll.robot x = (c.robot x).halted (c.currentOf x) (c.stopRecovery x) := by
  rw [Part.stopAll_eq]
  cases x <;> rfl

theorem Part.stopAll_same : c.stopAll.inv = (c.interruptAll false).inv ∧
    c.stopAll.mv.moves = (c.interruptAll false).mv.moves ∧ c.stopAll.out = (c.interruptAll false).out := by
  obtain ⟨hinv, hmv, -, hout⟩ := Part.abortMotion_same (c := c.interruptAll false) .a
  obtain ⟨hinv', hmv', -, hout'⟩ := Part.abortMotion_same (c := (c.interruptAll false).abortMotion .a) .b
  rw [Part.stopAll_eq, Part.putRobot_inv, Part.putRobot_inv, Part.putRobot_mv_moves, Part.putRobot_mv_moves,
    Part.putRobot_out, Part.putRobot_out]
  unfold Part.halting
  rw [hinv', hinv, hmv', hmv, hout', hout]
  exact ⟨rfl, rfl, rfl⟩

theorem Part.stopAll_ctl : c.stopAll.ctl = c.ctl := Part.ctl_of_fixed ((kept_fixed c.fixed).stopAll rfl)

/-- ABORT_MOTION reaches the node of each robot that is PRESENT (R136). -/
theorem Part.stopAll_told {x : Side} {p : Nat} {n : Node} (hx : c.robotPresent x = true) (haddr : c.robotAddr x = some p)
    (hn : c.node? p = some n) (hkind : (c.planOf p).kind = .robot) : c.stopAll.Told p n .abortMotion := by
  have hstruck := c.interruptAll_struck false
  have hposted : c.Posted (c.interruptAll false) := hstruck.posted
  have hsend : ∀ d, c.Posted d → d.tables = c.tables → (d.abortMotion x).Told p n .abortMotion := fun d hd ht => by
    unfold Part.abortMotion
    rw [if_pos ((hd.robotPresent_eq ht x).trans hx)]
    exact Part.robotOrder_told _ hd ht haddr hn hkind
  have hhalting : c.halting.Told p n .abortMotion := by
    cases x with
    | a => exact (hsend _ hposted hstruck.tables).trans (Part.abortMotion_posted .b)
    | b => exact hsend _ (hposted.trans (Part.abortMotion_posted .a)) ((Part.abortMotion_same .a).2.2.1.trans hstruck.tables)
  rw [Part.stopAll_eq]
  exact hhalting

/-- The causes that stand at a fail-safe entry: those of the entry, and the lines active (R184). -/
def ModeController.standing (k : ModeController) (causes : FailCauses) : FailCauses :=
  ⟨causes.enclosure || k.enclosure, causes.stop || k.stop, causes.forced, causes.imageBad⟩

/-- The blocks as FAIL_SAFE is entered, before the other blocks act (R177, R184). -/
def Part.failing (c : Part) (cause : ModeCause) (k : FailCauses) : Part :=
  { c with
    ctl := { c.ctl with mode := .failSafe, ret := none, pending := false, causes := c.ctl.standing k }
    out := c.out ++ (if c.ctl.pending then [Subject.standaloneCancelled cause] else []) ++
      [Subject.modeChange .failSafe c.ctl.mode cause (c.ctl.standing k) none none] }

theorem Part.enterFailSafe_eq (cause : ModeCause) (k : FailCauses) :
    c.enterFailSafe cause k = (c.failing cause k).stopAll := by
  unfold Part.enterFailSafe Part.failing Part.setMode Part.say
  cases c.ctl.pending <;> simp [ModeController.standing]

theorem Part.enterFailSafe_ctl (cause : ModeCause) (k : FailCauses) : (c.enterFailSafe cause k).ctl =
    { c.ctl with mode := .failSafe, ret := none, pending := false, causes := c.ctl.standing k } := by
  rw [Part.enterFailSafe_eq]
  exact Part.stopAll_ctl

theorem Part.enterFailSafe_robot (cause : ModeCause) (k : FailCauses) (x : Side) :
    (c.enterFailSafe cause k).robot x = (c.robot x).halted (c.currentOf x) (c.stopRecovery x) := by
  rw [Part.enterFailSafe_eq]
  exact Part.stopAll_robot x

theorem Part.enterFailSafe_out (cause : ModeCause) (k : FailCauses) :
    ∃ rest : List Subject, (c.enterFailSafe cause k).out = c.out ++
      (if c.ctl.pending then [Subject.standaloneCancelled cause] else []) ++
      Subject.modeChange .failSafe c.ctl.mode cause (c.ctl.standing k) none none :: rest := by
  obtain ⟨rest, hrest⟩ := ((c.failing cause k).interruptAll_struck false).out
  refine ⟨rest, ?_⟩
  rw [Part.enterFailSafe_eq, Part.stopAll_same.2.2, ← hrest]
  simp [Part.failing]

theorem Part.enterFailSafe_wrecked (hs : c.sound) (cause : ModeCause) (k : FailCauses) {m : Move} (hm : m ∈ c.mv.moves)
    (hg : m.granted = true) : c.Wrecked (c.enterFailSafe cause k) m := by
  have hs' : (c.failing cause k).sound := kept_sound.ctl (c := { c with out := (c.failing cause k).out })
    (k := (c.failing cause k).ctl) (kept_sound.out hs)
  obtain ⟨hocc, hhand, hgone⟩ := Part.interruptAll_wrecked hs' (m := m) hm hg
  have hinv : (c.enterFailSafe cause k).inv = ((c.failing cause k).interruptAll false).inv := by
    rw [Part.enterFailSafe_eq]
    exact Part.stopAll_same.1
  refine ⟨fun l hl => (Part.occ_of_inv hinv l).trans (hocc l hl), (Part.occ_of_inv hinv _).trans hhand,
    fun n r hn hr => ?_⟩
  obtain ⟨q, hq, hqr⟩ := hgone n r hn hr
  exact ⟨q, (Part.rec_of_inv hinv n).trans hq, hqr⟩

theorem Part.stopRecovery_of_busy {x : Side} {i : Nat} {m : Move} (hi : (c.robot x).current = some i)
    (hm : c.move? i = some m) : c.currentOf x = some m ∧ c.stopRecovery x = m.wreckage := by
  have hcurrent : c.currentOf x = some m := by
    unfold Part.currentOf
    rw [hi]
    exact hm
  unfold Part.stopRecovery
  rw [hcurrent]
  exact ⟨rfl, rfl⟩

/-! ### The exit from FAIL_SAFE -/

/-- A HAND_SNAPSHOT to a robot that is PRESENT and not already awaited (R186). -/
def Part.asked (c : Part) (x : Side) : Part :=
  if c.robotPresent x ∧ (c.robot x).awaited = false then c.askHand x else c

/-- The blocks as MAINTENANCE follows FAIL_SAFE, before the other blocks act (R177, R186). -/
def Part.safeAgain (c : Part) : Part :=
  { c with
    ctl := { c.ctl with mode := .maintenance, causes := FailCauses.none }
    out := c.out ++ [Subject.modeChange .maintenance c.ctl.mode .request FailCauses.none none none] }

/-- The blocks at the exit as the robots have been asked and sent, before the ports take up their work. -/
def Part.restarted (c : Part) : Part := (((c.safeAgain.asked .a).asked .b).parkAgain .a).parkAgain .b

theorem Part.leaveFailSafe_eq : c.leaveFailSafe = c.restarted.resume := rfl

/-- What the requests to the robots at the exit leave: the notices, the tables, and the robots awaited but for those asked;
and orders have only joined the queues. -/
structure Part.Asks (c d : Part) : Prop where
  out : d.out = c.out
  tables : d.tables = c.tables
  posted : c.Posted d

theorem Part.Asks.trans (h : c.Asks d) (h' : d.Asks e) : c.Asks e :=
  ⟨h'.out.trans h.out, h'.tables.trans h.tables, h.posted.trans h'.posted⟩

theorem Part.robotOrder_asks (x : Side) (o : Order) : c.Asks (c.robotOrder x o) := by
  obtain ⟨-, -, htables, -, hout⟩ := Part.queueOrder_same (c := c) (c.robotAddr x) ⟨o, none⟩
  exact ⟨hout, htables, Part.queueOrder_posted ..⟩

theorem Part.asked_asks (x : Side) : c.Asks (c.asked x) := by
  unfold Part.asked
  split
  · exact Part.Asks.trans ⟨by simp, by simp, .of_bus (by simp)⟩ (Part.robotOrder_asks x .handSnapshot)
  · exact ⟨rfl, rfl, .of_bus rfl⟩

theorem Part.parkAgain_asks (x : Side) : c.Asks (c.parkAgain x) := by
  have hset : ∀ r, c.Asks (c.setRobot x r) := fun r => by
    obtain ⟨-, hbus, htables, -, hout, -, -⟩ := Part.setRobot_same (c := c) x r
    exact ⟨hout, htables, .of_bus hbus⟩
  unfold Part.parkAgain
  dsimp only
  split
  · exact (hset _).trans (Part.robotOrder_asks x _)
  · exact ⟨rfl, rfl, .of_bus rfl⟩

theorem Part.robotOrder_robot (x y : Side) (o : Order) : (c.robotOrder x o).robot y = c.robot y :=
  Part.robot_of_mv (Part.queueOrder_same _ _).2.1 y

theorem Part.asked_robot (x y : Side) : (c.asked x).robot y =
    if y = x ∧ c.robotPresent x = true ∧ (c.robot x).awaited = false then { c.robot x with awaited := true }
    else c.robot y := by
  unfold Part.asked
  by_cases hask : c.robotPresent x = true ∧ (c.robot x).awaited = false
  · rw [if_pos hask]
    refine (Part.robotOrder_robot ..).trans ((Part.putRobot_robot_eq ..).trans ?_)
    simp [hask]
  · rw [if_neg hask, if_neg fun h => hask h.2]

theorem Part.parkAgain_awaited (x y : Side) : ((c.parkAgain x).robot y).awaited = (c.robot y).awaited := by
  unfold Part.parkAgain
  dsimp only
  split
  · unfold Part.parkTravel
    rw [Part.robotOrder_robot, Part.setRobot_robot]
    split
    · rename_i hy
      rw [hy]
    · rfl
  · rfl

theorem Part.leaveFailSafe_awaited (x : Side) : (c.leaveFailSafe.robot x).awaited =
    (((c.safeAgain.asked .a).asked .b).robot x).awaited := by
  rw [Part.leaveFailSafe_eq, Part.robot_of_mv c.restarted.resume_same.2.2.2.1]
  exact (Part.parkAgain_awaited .b x).trans (Part.parkAgain_awaited .a x)

theorem Part.asked_twice_robot (x : Side) : (((c.asked .a).asked .b).robot x) =
    if c.robotPresent x = true ∧ (c.robot x).awaited = false then { c.robot x with awaited := true } else c.robot x := by
  have hpresent : (c.asked .a).robotPresent .b = c.robotPresent .b :=
    (Part.asked_asks .a).posted.robotPresent_eq (Part.asked_asks .a).tables .b
  have hb : (c.asked .a).robot .b = c.robot .b := (Part.asked_robot ..).trans (if_neg fun h => nomatch h.1)
  rw [Part.asked_robot, hpresent, hb]
  cases x with
  | a => simp [Part.asked_robot]
  | b => simp [hb]

theorem Part.leaveFailSafe_ctl :
    c.leaveFailSafe.ctl = { c.ctl with mode := .maintenance, causes := FailCauses.none } := by
  have K := kept_fixed c.safeAgain.fixed
  have hask : ∀ {d : Part} x, d.fixed = c.safeAgain.fixed → (d.asked x).fixed = c.safeAgain.fixed := fun {d} x h => by
    unfold Part.asked
    split
    · exact K.askHand h
    · exact h
  have hfixed : c.restarted.fixed = c.safeAgain.fixed := by
    unfold Part.restarted
    exact K.parkAgain (K.parkAgain (hask .b (hask .a rfl)))
  rw [Part.leaveFailSafe_eq, c.restarted.resume_same.1, Part.ctl_of_fixed hfixed]
  rfl

theorem Part.restarted_asks : c.safeAgain.Asks c.restarted :=
  (((Part.asked_asks .a).trans (Part.asked_asks .b)).trans (Part.parkAgain_asks .a)).trans (Part.parkAgain_asks .b)

theorem Part.leaveFailSafe_out : c.leaveFailSafe.out = c.safeAgain.out := by
  rw [Part.leaveFailSafe_eq, c.restarted.resume_same.2.2.1, Part.restarted_asks.out]

/-- HAND_SNAPSHOT reaches the node of each robot that is PRESENT and not awaited (R186). -/
theorem Part.leaveFailSafe_told {x : Side} {p : Nat} {n : Node} (hx : c.robotPresent x = true)
    (hawaited : (c.robot x).awaited = false) (haddr : c.robotAddr x = some p) (hn : c.node? p = some n)
    (hkind : (c.planOf p).kind = .robot) : c.leaveFailSafe.Told p n .handSnapshot := by
  have hsend : ∀ d, c.safeAgain.Asks d → d.robot x = c.robot x → (d.asked x).Told p n .handSnapshot := fun d hd hr => by
    unfold Part.asked
    rw [if_pos ⟨(hd.posted.robotPresent_eq hd.tables x).trans hx, by rw [hr]; exact hawaited⟩]
    have hput : c.safeAgain.Asks (d.putRobot x { d.robot x with awaited := true }) :=
      hd.trans ⟨by simp, by simp, .of_bus (by simp)⟩
    exact Part.robotOrder_told _ hput.posted hput.tables haddr hn hkind
  have hsame : c.safeAgain.Asks c.safeAgain := ⟨rfl, rfl, .of_bus rfl⟩
  have hasked : ((c.safeAgain.asked .a).asked .b).Told p n .handSnapshot := by
    cases x with
    | a => exact (hsend _ hsame rfl).trans (Part.asked_asks .b).posted
    | b => exact hsend _ (Part.asked_asks .a) ((Part.asked_robot ..).trans (if_neg fun h => nomatch h.1))
  have hresumed : c.restarted.Posted c.restarted.resume := .of_bus c.restarted.resume_same.2.2.2.2
  rw [Part.leaveFailSafe_eq]
  exact ((hasked.trans (Part.parkAgain_asks .a).posted).trans (Part.parkAgain_asks .b).posted).trans hresumed

/-! ### The end of START -/

/-- What the lines and the image have shown by the end of START (R178). -/
def ModeController.startCauses (k : ModeController) : FailCauses := ⟨k.seenEnclosure, k.seenStop, false, k.imageBad⟩

/-- The start interlock seen is cleared (R178). -/
def ModeController.startSeen (k : ModeController) : ModeController := { k with seenEnclosure := false, seenStop := false }

/-- The first cause that keeps the end of START out of NORMAL (R178). -/
def ModeController.startBar (k : ModeController) : Option ModeCause :=
  if k.imageBad then some .imageBad else if k.seenStop then some .stop
  else if k.seenEnclosure then some .enclosure else none

theorem Part.leaveStart_eq : c.leaveStart = match c.ctl.startBar with
    | some first => Part.enterFailSafe { c with ctl := c.ctl.startSeen } first c.ctl.startCauses
    | none => (Part.setMode { c with ctl := c.ctl.startSeen } .normal .startDone).resume := by
  unfold Part.leaveStart ModeController.startBar
  dsimp only
  split
  · rfl
  · split
    · rfl
    · split <;> rfl

theorem ModeController.startBar_some {k : ModeController} {first : ModeCause}
    (h : (k.imageBad = true ∧ first = .imageBad) ∨ (k.imageBad = false ∧ k.seenStop = true ∧ first = .stop) ∨
      (k.imageBad = false ∧ k.seenStop = false ∧ k.seenEnclosure = true ∧ first = .enclosure)) :
    k.startBar = some first := by
  rcases h with ⟨h1, rfl⟩ | ⟨h1, h2, rfl⟩ | ⟨h1, h2, h3, rfl⟩ <;> simp [ModeController.startBar, *]

theorem Part.leaveStart_barred {first : ModeCause} (h : c.ctl.startBar = some first) :
    c.leaveStart = Part.enterFailSafe { c with ctl := c.ctl.startSeen } first c.ctl.startCauses := by
  rw [Part.leaveStart_eq, h]

theorem Part.leaveStart_free (h : c.ctl.startBar = none) : ∃ w, c.leaveStart = { c with
      ctl := { c.ctl.startSeen with mode := .normal }
      out := c.out ++ [Subject.modeChange .normal c.ctl.mode .startDone FailCauses.none none none]
      work := w } ∧ ∀ p < 8, Sig.handle p ∈ w ∧ Sig.attempt p ∈ w := by
  obtain ⟨w, hw, hall⟩ := Part.resume_eq (Part.setMode { c with ctl := c.ctl.startSeen } .normal .startDone)
  refine ⟨w, ?_, hall⟩
  rw [Part.leaveStart_eq, h]
  exact hw

/-- What the end of START makes of the modes is a matter of the Mode Controller alone. -/
theorem Part.leaveStart_ctl (h : d.ctl = c.ctl) : d.leaveStart.ctl = c.leaveStart.ctl := by
  cases hbar : c.ctl.startBar with
  | some first =>
    rw [Part.leaveStart_barred hbar, Part.leaveStart_barred (h ▸ hbar), Part.enterFailSafe_ctl, Part.enterFailSafe_ctl, h]
  | none =>
    obtain ⟨w, hw, -⟩ := Part.leaveStart_free hbar
    obtain ⟨w', hw', -⟩ := Part.leaveStart_free (h ▸ hbar : d.ctl.startBar = none)
    rw [hw, hw', h]

/-- The end of an enumeration changes the mode at the end of a start alone (R152, R178). -/
theorem Part.nextRoll_ctl {e : EnumCause} (h : c.bus.enum = some ⟨e, []⟩) :
    c.nextRoll.ctl = if e = .busReset then c.ctl else c.leaveStart.ctl := by
  have hend : c.nextRoll = c.endEnum e := by
    unfold Part.nextRoll
    rw [h]
  have hacts : ∀ d : Part, d.ctl = c.ctl → (d.enumEnds e).ctl = c.ctl := fun d hd =>
    (Part.ctl_of_fixed ((kept_fixed d.fixed).enumEnds rfl)).trans hd
  rw [hend]
  unfold Part.endEnum
  dsimp only
  split
  · exact hacts _ rfl
  · exact Part.leaveStart_ctl (hacts _ rfl)

end Sys2Proof.Machine
end

section
/-! SUPPORT. A robot at fail-safe entry, field by field (R136). -/

namespace Sys2Proof.Machine

variable {r : Robot} {busy : Option Move} {recovery : List Nat}

theorem Robot.halted_moving (h : r.state = .busy ∨ r.state = .yielding) : r.halted busy recovery = { r with
    state := .suspect, current := none, yieldTo := none
    recovery := if busy.isSome then recovery else r.recovery } := if_pos h

theorem Robot.halted_other (h1 : r.state ≠ .busy) (h2 : r.state ≠ .yielding) :
    r.halted busy recovery = { r with yieldTo := none } := if_neg (not_or.2 ⟨h1, h2⟩)

/-- A halted robot has no yield, is neither BUSY nor YIELDING, and keeps its interval, its span and its awaited mark. -/
theorem Robot.halted_keeps : (r.halted busy recovery).yieldTo = none ∧ (r.halted busy recovery).state ≠ .busy ∧
    (r.halted busy recovery).state ≠ .yielding ∧ (r.halted busy recovery).held = r.held ∧
    (r.halted busy recovery).span = r.span ∧ (r.halted busy recovery).awaited = r.awaited := by
  by_cases h : r.state = .busy ∨ r.state = .yielding
  · rw [Robot.halted_moving h]
    exact ⟨rfl, nofun, nofun, rfl, rfl, rfl⟩
  · obtain ⟨h1, h2⟩ := not_or.1 h
    rw [Robot.halted_other h1 h2]
    exact ⟨rfl, h1, h2, rfl, rfl, rfl⟩

theorem Move.mem_wreckage_all (m : Move) (l : Nat) :
    l ∈ m.wreckage ↔ m.kind ≠ .scan ∧ (m.src = some l ∨ m.dst = some l) := by
  by_cases h : m.kind = .scan
  · simp [Move.wreckage, h]
  · rw [Move.mem_wreckage h]
    simp [h]

end Sys2Proof.Machine
end

section
open Sys2Proof Sys2Proof.Machine

/-- Settles O38: each change of mode is the write of the Mode Controller and its notice, and behind them what the other blocks
do; the entry into FAIL_SAFE breaks off the dispatched moves one by one, and no later one restores what an earlier left. -/
theorem modeChangesAct : Obligations.ModeChangesAct := by
  unfold Obligations.ModeChangesAct
  intro c a cause k causes
  have hmoves : (c.enterFailSafe cause k).mv.moves = ((c.failing cause k).interruptAll false).mv.moves := by
    rw [Part.enterFailSafe_eq]
    exact Part.stopAll_same.2.1
  refine ⟨Part.leaveStandalone_ctl a, fun z hz hs => ?_, Part.leaveStandalone_out a, Part.enterFailSafe_ctl cause k,
    fun x => ?_, fun m hm => ?_, fun hnone => ?_, fun hs m hm hg => ?_, fun x => ?_, fun x p n hx ha hn hk => ?_,
    Part.enterFailSafe_out cause k, Part.leaveFailSafe_ctl, Part.leaveFailSafe_out, fun x hx => ?_,
    fun x p n hx haw ha hn hk => ⟨?_, Part.leaveFailSafe_told hx haw ha hn hk⟩, ?_⟩
  · rw [Part.leaveStandalone_zone hs a hz]
    exact ⟨rfl, rfl⟩
  · rw [Part.enterFailSafe_robot]
    obtain ⟨hyield, hbusy, hyielding, -⟩ := Robot.halted_keeps (r := c.robot x) (busy := c.currentOf x)
      (recovery := c.stopRecovery x)
    exact ⟨hyield, hbusy, hyielding⟩
  · exact Part.interruptAll_granted false m (hmoves ▸ hm)
  · rw [hmoves, Part.interruptAll_of_none (c := c.failing cause k) hnone]
    rfl
  · obtain ⟨hocc, hhand, hgone⟩ := Part.enterFailSafe_wrecked hs cause k hm hg
    exact ⟨fun hk l hl => hocc l ((Move.mem_wreckage hk l).2 hl), hhand, fun n r hn hr => hgone n r hn hr⟩
  · intro r q
    have hq : q = r.halted (c.currentOf x) (c.stopRecovery x) := Part.enterFailSafe_robot cause k x
    obtain ⟨-, -, -, hheld, hspan, hawaited⟩ := Robot.halted_keeps (r := r) (busy := c.currentOf x)
      (recovery := c.stopRecovery x)
    rw [hq]
    refine ⟨hheld, hspan, hawaited, fun h => ?_, fun h1 h2 => Robot.halted_other h1 h2, fun m i hb hi hm l => ?_⟩
    · rw [Robot.halted_moving h]
      exact ⟨rfl, rfl⟩
    · obtain ⟨hcurrent, hrecovery⟩ := Part.stopRecovery_of_busy hi hm
      rw [Robot.halted_moving (.inl hb), hcurrent, hrecovery]
      exact Move.mem_wreckage_all m l
  · rw [Part.enterFailSafe_eq]
    exact Part.stopAll_told (c := c.failing cause k) hx ha hn hk
  · rw [Part.leaveFailSafe_awaited, Part.asked_twice_robot, if_neg fun h => ?_]
    · rfl
    · exact hx.elim (fun hx => Bool.false_ne_true (hx.symm.trans h.1)) fun hx => Bool.false_ne_true (h.2.symm.trans hx)
  · rw [Part.leaveFailSafe_awaited, Part.asked_twice_robot, if_pos ⟨hx, haw⟩]
  · intro ended seen q normal
    refine ⟨fun hi hstop hencl => ?_, fun first hfirst => ?_, fun e he => Part.nextRoll_ctl he⟩
    · have hbar : c.ctl.startBar = none := by simp [ModeController.startBar, hi, hstop, hencl]
      obtain ⟨w, hw, hall⟩ := Part.leaveStart_free hbar
      have hq : q = _ := hw
      rw [hq]
      exact ⟨rfl, hall, rfl⟩
    · intro all safe left
      have hq : q = left.enterFailSafe first seen := Part.leaveStart_barred (ModeController.startBar_some hfirst)
      refine ⟨hq, ?_, ?_⟩
      · rw [hq]
        exact Part.enterFailSafe_ctl first seen
      · rw [hq]
        exact Part.enterFailSafe_out first seen
end

section
/-! SUPPORT. The blocks at a warm start (R20, R80, R109, R137, R162, R191): no move, no job, no pass and no cursor is left, and
no owner begins one as the tables of the start become live. -/

namespace Sys2Proof.Machine

variable {c d : Part} {idle : Prop} {x : Option Enumeration}

/-! ### Nothing in progress -/

/-- Nothing is in progress at a start whose enumeration is `x`: no move, no job and no cursor; and no pass, where the zone
table was in canonical form (`idle`). -/
structure Part.Restarting (idle : Prop) (x : Option Enumeration) (c : Part) : Prop where
  moves : c.mv.moves = []
  jobs : c.jobs.jobs = []
  cursor : c.inv.cursor.active = false
  enum : c.bus.enum = x
  passes : idle → Store.wf Zone.cold c.zones = true ∧ ∀ z < 16, (c.zone z).pass = none

theorem Part.Restarting.of_same (h : c.Restarting idle x) (hmoves : d.mv.moves = c.mv.moves)
    (hjobs : d.jobs.jobs = c.jobs.jobs) (hcursor : d.inv.cursor = c.inv.cursor) (henum : d.bus.enum = c.bus.enum)
    (hzones : d.zones = c.zones) : d.Restarting idle x where
  moves := hmoves.trans h.moves
  jobs := hjobs.trans h.jobs
  cursor := hcursor ▸ h.cursor
  enum := henum.trans h.enum
  passes hidle := by
    unfold Part.zone
    rw [hzones]
    exact h.passes hidle

theorem strikes_restarting (idle : Prop) (x : Option Enumeration) : Strikes (Part.Restarting idle x) where
  say h := h.of_same rfl rfl rfl rfl rfl
  work h := h.of_same rfl rfl rfl rfl rfl
  watch h := h.of_same rfl rfl rfl rfl rfl
  updJob {c j f} h := by
    have hnone : c.job? j = none := by
      unfold Part.job?
      rw [h.jobs]
      rfl
    unfold Part.updJob
    rw [hnone]
    exact h
  dropJob {c j} h := { h with jobs := by unfold Part.dropJob; dsimp only; rw [h.jobs]; rfl }
  putPort h := h.of_same rfl rfl rfl rfl rfl
  order {c a o} h := by
    unfold Part.queueOrder
    repeat' split
    · exact h
    · exact h.of_same rfl rfl rfl rfl rfl
    · exact h
    · exact h
  rescanList h := h.of_same rfl rfl rfl rfl rfl
  filterMoves {c p} h := { h with moves := by dsimp only; rw [h.moves]; rfl }
  putOcc h := h.of_same rfl rfl rfl rfl rfl
  updRec {c n f} _ h := by
    obtain ⟨w, q, hq⟩ := Part.updRec_eq (c := c) n f
    rw [hq]
    exact h.of_same rfl rfl rfl rfl rfl

theorem Part.Restarting.roster {r : Store Node} (h : c.Restarting idle x) :
    Part.Restarting idle x { c with bus := { c.bus with roster := r } } := h.of_same rfl rfl rfl rfl rfl

theorem Part.Restarting.putNode {a : Nat} {n : Node} (h : c.Restarting idle x) : (c.putNode a n).Restarting idle x :=
  h.roster

theorem Part.Restarting.dropNode {a : Nat} (h : c.Restarting idle x) : (c.dropNode a).Restarting idle x := h.roster

theorem Part.Restarting.putRobot {y : Side} {r : Robot} (h : c.Restarting idle x) : (c.putRobot y r).Restarting idle x := by
  cases y <;> exact h.of_same rfl rfl rfl rfl rfl

theorem Part.Restarting.tables {t : Tables} (h : c.Restarting idle x) : Part.Restarting idle x { c with tables := t } :=
  h.of_same rfl rfl rfl rfl rfl

theorem Part.Restarting.putZone {z : Nat} {r : Zone} (hr : (c.zone z).keeps r) (h : c.Restarting idle x) :
    (c.putZone z r).Restarting idle x := { h with
  passes := fun hidle => by
    obtain ⟨hwf, hnone⟩ := h.passes hidle
    refine ⟨Store.wf_setD hwf _ _, fun y hy => ?_⟩
    rw [Part.putZone_zone_of_wf hwf]
    split
    · rename_i hyz
      have hold : (c.zone z).pass = none := hyz ▸ hnone y hy
      exact Option.not_isSome_iff_eq_none.1 fun hp => by simpa [hold] using hr.2 hp
    · exact hnone y hy }

/-! ### The zones -/

theorem Part.Restarting.zoneSettled {z : Nat} {dis prot : Bool} (h : c.Restarting idle x) :
    (c.zoneSettled z dis prot).Restarting idle x := by
  have K := strikes_restarting idle x
  have hfix : ∀ {d : Part}, d.Restarting idle x → (d.fixZone z).Restarting idle x := fun hd =>
    Kept0.foldl hd (fun _ _ h => K.fixProtection h) _
  have hnotice : ∀ {o}, Part.Restarting idle x { c with out := o } := h.of_same rfl rfl rfl rfl rfl
  rw [Part.zoneSettled_eq]
  unfold Part.followed
  split
  · exact hnotice
  · split
    · exact K.signal (hfix hnotice)
    · exact hfix hnotice

theorem Part.Restarting.updZone {z : Nat} {f : Zone → Zone} (hf : (c.zone z).keeps (f (c.zone z)))
    (h : c.Restarting idle x) : (c.updZone z f).Restarting idle x := (h.putZone hf).zoneSettled

theorem Part.Restarting.failOnLoss {z : Nat} (h : c.Restarting idle x) : (c.failOnLoss z).Restarting idle x := by
  unfold Part.failOnLoss
  split
  · exact (strikes_restarting idle x).say (h.updZone ⟨id, nofun⟩)
  · exact h

theorem Part.Restarting.manifoldLoss {a : Nat} (h : c.Restarting idle x) : (c.manifoldLoss a).Restarting idle x := by
  have heval : ∀ {d : Part} {z}, d.Restarting idle x → (d.evalSupply z).Restarting idle x := fun {d z} hd => by
    unfold Part.evalSupply
    dsimp only
    refine Part.Restarting.updZone ⟨id, id⟩ ?_
    split
    · exact hd.failOnLoss
    · exact hd
  have hlost : (c.passesLost a).Restarting idle x := Kept0.each h fun d z hd => by
    split
    · exact hd.failOnLoss
    · exact hd
  rw [Part.manifoldLoss_eq]
  unfold Part.rosterChanged
  split
  · exact hlost
  · refine Kept0.each hlost fun d z hd => ?_
    split
    · exact heval hd
    · exact hd

theorem Part.Restarting.liveZones {t : ZoneTable} {eval : Bool} (h : c.Restarting idle x) :
    (c.liveZones t eval).Restarting idle x := by
  unfold Part.liveZones
  extract_lets c1
  refine Kept0.each h.tables fun d z hd => ?_
  extract_lets old new r timer moved fault c2
  have h2 : c2.Restarting idle x := Part.Restarting.zoneSettled (Part.Restarting.putZone ⟨id, id⟩ hd)
  clear_value c2
  split
  · exact (strikes_restarting idle x).signal h2
  · exact h2

/-! ### The plan -/

theorem Part.Restarting.setRobot {y : Side} {r : Robot} (h : c.Restarting idle x) : (c.setRobot y r).Restarting idle x := by
  have K := strikes_restarting idle x
  unfold Part.setRobot
  dsimp only
  split
  · exact K.signal (K.signal h.putRobot)
  · exact K.signal h.putRobot
  · exact h.putRobot

theorem Part.Restarting.robotLost {y : Side} (h : c.Restarting idle x) : (c.robotLost y).Restarting idle x := by
  have K := strikes_restarting idle x
  unfold Part.robotLost
  dsimp only
  split
  · exact K.signal h.setRobot
  · split
    · exact K.signal h.setRobot
    · exact K.endMove (K.say (K.signal (K.wreck h).setRobot))

theorem Part.Restarting.undelivered {a : Nat} {q : List QOrder} (h : c.Restarting idle x) :
    (c.undelivered a q).Restarting idle x :=
  Kept0.foldl h (fun d o hd => by
    split
    · exact (strikes_restarting idle x).say hd
    · exact hd) q

theorem Part.Restarting.leaveService {a : Nat} {e : PlanEntry} (h : c.Restarting idle x) :
    (c.leaveService a e).Restarting idle x := by
  have hqueue : (c.treatQueue a e.kind).Restarting idle x := by
    unfold Part.treatQueue
    split
    · exact h.putNode.undelivered
    · exact h
  unfold Part.leaveService Part.ownersLose
  split
  · split
    · exact hqueue.robotLost
    · exact hqueue
  · exact (strikes_restarting idle x).putPort hqueue
  · exact hqueue.manifoldLoss
  · exact hqueue.of_same rfl rfl rfl rfl rfl
  · exact hqueue

theorem Part.Restarting.dropPlanned {a : Nat} (h : c.Restarting idle x) : (c.dropPlanned a).Restarting idle x := by
  have habandon : (c.abandon a).Restarting idle x := by
    unfold Part.abandon
    repeat' split
    all_goals first | exact h | exact h.of_same rfl rfl rfl rfl rfl
  unfold Part.dropPlanned
  dsimp only
  split
  · exact h
  · split
    · exact h
    · refine Part.Restarting.dropNode (Part.Restarting.undelivered ?_)
      split
      · exact habandon.putNode.leaveService
      · exact habandon.putNode

theorem Part.Restarting.addPlanned {a : Nat} {e : PlanEntry} {call : Bool} (h : c.Restarting idle x) :
    (c.addPlanned a e call).Restarting idle x := by
  have hroom : c.rosterRoom.Restarting idle x := by
    unfold Part.rosterRoom
    repeat' split
    all_goals first | exact h | exact h.dropNode
  have hnode : ((if (c.node? a).isSome then c else c.rosterRoom).putNode a (e.node call)).Restarting idle x := by
    split
    · exact h.putNode
    · exact hroom.putNode
  unfold Part.addPlanned
  dsimp only
  split
  · exact h
  · split
    · exact (strikes_restarting idle x).putPort hnode
    · exact hnode

theorem Part.Restarting.replan {a : Nat} {e : PlanEntry} (h : c.Restarting idle x) : (c.replan a e).Restarting idle x := by
  have K := strikes_restarting idle x
  unfold Part.replan
  dsimp only
  repeat' split
  all_goals first | exact h | exact h.putNode | exact K.putPort h | exact K.putPort h.putNode

theorem Part.Restarting.withStatesOf (h : c.Restarting idle x) : (c.withStatesOf d).Restarting idle x := by
  unfold Part.withStatesOf
  exact h.putRobot.putRobot

theorem Part.Restarting.warmPlan {t : Store PlanEntry} (h : c.Restarting idle x) : (c.warmPlan t).Restarting idle x := by
  unfold Part.warmPlan
  extract_lets all new gone added changed c1 _ c2 c3 c4
  have h1 : c1.Restarting idle x :=
    Part.Restarting.withStatesOf (Kept0.foldl (R := Part.Restarting idle x) h (fun _ _ h => h.dropPlanned) _)
  clear_value c1
  have h2 : c2.Restarting idle x := h1.tables
  have h3 : c3.Restarting idle x := Kept0.foldl h2 (fun _ _ h => h.addPlanned) _
  have h4 : c4.Restarting idle x := Kept0.foldl h3 (fun _ _ h => h.replan) _
  refine Kept0.each h4 fun d col hd => ?_
  split
  · exact hd
  · exact hd.of_same rfl rfl rfl rfl rfl

/-! ### All seven tables -/

theorem Part.Restarting.warmTables {t : Tables} {gens : List Nat} {bad : Bool} (h : c.Restarting idle x) :
    (c.warmTables t gens bad).Restarting idle x := by
  have hrobot : ∀ {d : Part} {y was}, d.Restarting idle x → (d.warmRobot y was).Restarting idle x := fun {d y was} hd => by
    unfold Part.warmRobot
    dsimp only
    split
    · exact hd.putRobot
    · exact hd.putRobot
    · exact hd
  unfold Part.warmTables
  extract_lets wasA wasB c1 _ tables _ c2 c3
  have h1 : c1.Restarting idle x := h.liveZones.warmPlan
  clear_value c1
  have h2 : c2.Restarting idle x := h1.of_same rfl rfl rfl rfl rfl
  clear_value c2
  have h3 : c3.Restarting idle x := Kept0.foldl h2 (fun _ _ h => (strikes_restarting idle x).threshold h) _
  exact hrobot (hrobot h3)

theorem Part.Restarting.resetRobot {y : Side} (h : c.Restarting idle x) : (c.resetRobot y).Restarting idle x := by
  unfold Part.resetRobot
  dsimp only
  split <;> exact h.putRobot

theorem Part.beginEnum_eq (cause : EnumCause) : ∃ a rest ra rb roster, c.beginEnum cause = { c with
    mv := { c.mv with robotA := ra, robotB := rb }
    bus := { c.bus with roster := roster, retry := none, exchange := some (.rollCall a), enum := some ⟨cause, rest⟩ } } := by
  obtain ⟨a, rest, horder⟩ := c.callOrder_cons
  unfold Part.beginEnum
  rw [horder]
  exact ⟨a, rest, _, _, _, rfl⟩

theorem Part.Restarting.beginEnum {cause : EnumCause} (h : c.Restarting idle x) :
    ∃ rest, (c.beginEnum cause).Restarting idle (some ⟨cause, rest⟩) := by
  obtain ⟨a, rest, ra, rb, roster, hbegin⟩ := c.beginEnum_eq cause
  rw [hbegin]
  exact ⟨rest, h.moves, h.jobs, h.cursor, rfl, h.passes⟩

theorem strikes_jobless : Strikes fun c => c.jobs.jobs = [] where
  say h := h
  work h := h
  watch h := h
  updJob {c j f} h := by
    have hnone : c.job? j = none := by
      unfold Part.job?
      rw [h]
      rfl
    unfold Part.updJob
    rw [hnone]
    exact h
  dropJob {c j} h := by
    unfold Part.dropJob
    dsimp only
    rw [h]
    rfl
  putPort h := h
  order {c a o} h := by
    unfold Part.queueOrder
    repeat' split
    all_goals exact h
  rescanList h := h
  filterMoves h := h
  putOcc h := h
  updRec {c n f} _ h := by
    obtain ⟨w, q, hq⟩ := Part.updRec_eq (c := c) n f
    rw [hq]
    exact h

theorem Part.warmJobs_jobs : c.warmJobs.jobs.jobs = [] :=
  Kept0.each (R := fun d => d.jobs.jobs = []) rfl fun _ _ h => h

/-- A warm start as the dispatched moves have been broken off: the move list, the records, the modes and the bus (R191). -/
def Part.cleared (c : Part) : Part :=
  let c4 := (Part.warmInventory { c with mv := { c.mv with moves := [], nextNum := 0, lastSeq := 0 } }).warmWatch
  { c4 with ctl := c4.ctl.warm, window := none, work := [], bus := { c4.bus with enum := some ⟨.warm, []⟩ } }

theorem Part.warmEnded_eq : c.warmEnded = (c.emptyQueues.abortPasses.warmJobs.interruptAll true).cleared := rfl

theorem Part.cleared_restarting (hjobs : c.jobs.jobs = [])
    (hpasses : idle → Store.wf Zone.cold c.zones = true ∧ ∀ z < 16, (c.zone z).pass = none) :
    c.cleared.Restarting idle (some ⟨.warm, []⟩) := ⟨rfl, hjobs, rfl, rfl, hpasses⟩

theorem Part.warmEnded_restarting :
    c.warmEnded.Restarting (Store.wf Zone.cold c.zones = true) (some ⟨.warm, []⟩) := by
  have h := Part.cleared_restarting (c := c.emptyQueues.abortPasses.warmJobs.interruptAll true) (idle := False)
    (strikes_jobless.interruptAll Part.warmJobs_jobs) nofun
  rw [← Part.warmEnded_eq] at h
  exact { h with passes := Part.warmEnded_idle }

/-- Nothing is in progress as the enumeration of a warm start begins (R191). -/
theorem Part.warmStart_restarting (image : List Byte) :
    ∃ rest, (c.warmStart image).Restarting (Store.wf Zone.cold c.zones = true) (some ⟨.warm, rest⟩) := by
  rw [Part.warmStart_eq]
  exact (Part.warmEnded_restarting.warmTables.resetRobot.resetRobot).beginEnum

/-! ### The tables, the modes and the part time -/

theorem Part.fixed_tables {y : Nat × Tables × List Nat × Option Window × ModeController} (f : Tables → Tables)
    (h : c.fixed = y) : Part.fixed { c with tables := f c.tables } = (y.1, f y.2.1, y.2.2) :=
  congrArg (fun y => (y.1, f y.2.1, y.2.2)) h

theorem Part.liveZones_fixed (t : ZoneTable) (eval : Bool) :
    (c.liveZones t eval).fixed = Part.fixed { c with tables := { c.tables with zone := t } } := by
  have K := kept_fixed (Part.fixed { c with tables := { c.tables with zone := t } })
  unfold Part.liveZones
  extract_lets _ c1
  have h1 : c1.fixed = Part.fixed { c with tables := { c.tables with zone := t } } := rfl
  clear_value c1
  refine Kept0.each (R := fun d => d.fixed = Part.fixed { c with tables := { c.tables with zone := t } }) h1
    fun d z hd => ?_
  extract_lets old new r timer moved fault c2
  have h2 : c2.fixed = Part.fixed { c with tables := { c.tables with zone := t } } :=
    K.zoneSettled (K.putZone ⟨id, id⟩ hd)
  clear_value c2
  split
  · exact K.signal h2
  · exact h2

theorem Part.withStatesOf_fixed : (c.withStatesOf d).fixed = c.fixed := by
  have K := kept_fixed c.fixed
  unfold Part.withStatesOf
  exact K.putRobot (K.putRobot rfl)

theorem Part.warmPlan_fixed (t : Store PlanEntry) :
    (c.warmPlan t).fixed = Part.fixed { c with tables := { c.tables with plan := t } } := by
  have K := kept_fixed c.fixed
  have K' := kept_fixed (Part.fixed { c with tables := { c.tables with plan := t } })
  unfold Part.warmPlan
  extract_lets all new gone added changed c1 _ c2 c3 c4
  have h1 : c1.fixed = c.fixed :=
    Part.withStatesOf_fixed.trans (Kept0.foldl (R := fun d => d.fixed = c.fixed) rfl (fun _ _ h => K.dropPlanned h) _)
  clear_value c1
  have h2 : c2.fixed = Part.fixed { c with tables := { c.tables with plan := t } } :=
    Part.fixed_tables (fun t' => { t' with plan := t }) h1
  clear_value c2
  have h3 : c3.fixed = Part.fixed { c with tables := { c.tables with plan := t } } :=
    Kept0.foldl (R := fun d => d.fixed = _) h2 (fun _ _ h => K'.addPlanned h) _
  clear_value c3
  have hreplan : ∀ (d : Part) a, d.fixed = Part.fixed { c with tables := { c.tables with plan := t } } →
      (d.replan a (d.planOf a)).fixed = Part.fixed { c with tables := { c.tables with plan := t } } := fun d a hd => by
    unfold Part.replan
    dsimp only
    repeat' split
    all_goals exact hd
  have h4 : c4.fixed = Part.fixed { c with tables := { c.tables with plan := t } } :=
    Kept0.foldl (R := fun d => d.fixed = _) h3 hreplan _
  clear_value c4
  refine Kept0.each (R := fun d => d.fixed = Part.fixed { c with tables := { c.tables with plan := t } }) h4
    fun d col hd => ?_
  split
  · exact hd
  · exact K'.clearHints hd

theorem Part.warmTables_fixed (t : Tables) (gens : List Nat) (bad : Bool) :
    (c.warmTables t gens bad).fixed = (c.now, t, gens, c.window, { c.ctl with imageBad := bad }) := by
  have K := kept_fixed (c.now, t, gens, c.window, { c.ctl with imageBad := bad })
  have hrobot : ∀ {d : Part} {y was}, d.fixed = (c.now, t, gens, c.window, { c.ctl with imageBad := bad }) →
      (d.warmRobot y was).fixed = (c.now, t, gens, c.window, { c.ctl with imageBad := bad }) := fun {d y was} hd => by
    unfold Part.warmRobot
    dsimp only
    split
    · exact K.putRobot hd
    · exact K.putRobot hd
    · exact hd
  unfold Part.warmTables
  extract_lets wasA wasB c1 _ tables _ c2 c3
  have h1 : c1.fixed = Part.fixed { c with tables := { c.tables with zone := t.zone, plan := t.plan } } :=
    (Part.warmPlan_fixed t.plan).trans
      (Part.fixed_tables (fun t' => { t' with plan := t.plan }) (Part.liveZones_fixed t.zone false))
  clear_value c1
  have h2 : c2.fixed = (c.now, t, gens, c.window, { c.ctl with imageBad := bad }) :=
    congrArg (fun x => (x.1, { x.2.1 with
      slotMap := t.slotMap, ports := t.ports, classes := t.classes, limits := t.limits, filter := t.filter }, gens,
      x.2.2.2.1, { x.2.2.2.2 with imageBad := bad })) h1
  clear_value c2
  have h3 : c3.fixed = (c.now, t, gens, c.window, { c.ctl with imageBad := bad }) :=
    Kept0.foldl (R := fun d => d.fixed = _) h2 (fun _ _ h => K.threshold h) _
  clear_value c3
  exact hrobot (hrobot h3)

theorem Part.emptyQueues_fixed : c.emptyQueues.fixed = c.fixed := by
  have hsay : ∀ (d : Part) a q, d.fixed = c.fixed → (d.undelivered a q).fixed = c.fixed := fun d a q hd =>
    Kept0.foldl (R := fun d => d.fixed = c.fixed) hd (fun d o hd => by split <;> exact hd) q
  have hall : (c.bus.roster.foldl (fun c e => c.undelivered e.1 e.2.queue) c).fixed = c.fixed :=
    Kept0.foldl (R := fun d => d.fixed = c.fixed) rfl (fun d e hd => hsay d _ _ hd) _
  have hbus : ∀ (d : Part) b, Part.fixed { d with bus := b } = d.fixed := fun _ _ => rfl
  exact (hbus _ _).trans hall

theorem Part.cleared_fixed (h : c.fixed = d.fixed) : c.cleared.fixed = (d.now, d.tables, d.gens, none, d.ctl.warm) :=
  congrArg (fun y => (y.1, y.2.1, y.2.2.1, (none : Option Window), y.2.2.2.2.warm)) h

theorem Part.warmEnded_fixed : c.warmEnded.fixed = (c.now, c.tables, c.gens, none, c.ctl.warm) := by
  have h1 : c.emptyQueues.abortPasses.fixed = c.fixed := (kept_fixed c.fixed).abortPasses Part.emptyQueues_fixed
  have hjobs : ∀ d : Part, d.warmJobs.fixed = d.fixed := fun d =>
    Kept0.each (R := fun e => e.fixed = d.fixed) rfl fun _ _ h => h
  have h2 : c.emptyQueues.abortPasses.warmJobs.fixed = c.fixed := (hjobs _).trans h1
  have h3 : (c.emptyQueues.abortPasses.warmJobs.interruptAll true).fixed = c.fixed := (kept_fixed c.fixed).interruptAll h2
  rw [Part.warmEnded_eq]
  exact Part.cleared_fixed h3

theorem Part.resetRobot_fixed (y : Side) : (c.resetRobot y).fixed = c.fixed := by
  unfold Part.resetRobot
  dsimp only
  split <;> exact (kept_fixed c.fixed).putRobot rfl

theorem Part.beginEnum_fixed (cause : EnumCause) : (c.beginEnum cause).fixed = c.fixed := by
  obtain ⟨a, rest, ra, rb, roster, hbegin⟩ := c.beginEnum_eq cause
  rw [hbegin]
  rfl

/-- The tables of the image, or the defaults, are live, the window is closed, and the mode is START (R191). -/
theorem Part.warmStart_fixed (image : List Byte) : (c.warmStart image).fixed = (c.now, (startTables image).1,
    (startTables image).2.1, none, { c.ctl.warm with imageBad := (startTables image).2.2 }) := by
  have hlive : ∀ d : Part, d.fixed = (c.now, c.tables, c.gens, none, c.ctl.warm) →
      (d.now, (startTables image).1, (startTables image).2.1, d.window,
        { d.ctl with imageBad := (startTables image).2.2 }) = (c.now, (startTables image).1, (startTables image).2.1,
        none, { c.ctl.warm with imageBad := (startTables image).2.2 }) := fun d hd =>
    congrArg (fun y => (y.1, (startTables image).1, (startTables image).2.1, y.2.2.2.1,
      { y.2.2.2.2 with imageBad := (startTables image).2.2 })) hd
  rw [Part.warmStart_eq, Part.beginEnum_fixed, Part.resetRobot_fixed, Part.resetRobot_fixed, Part.warmTables_fixed]
  exact hlive _ Part.warmEnded_fixed

end Sys2Proof.Machine
end

section
/-! SUPPORT. An event that ends in START: with no move and no cursor no block has anything to do but the robots' recovery
lists, and no notice is added (R178). -/

namespace Sys2Proof.Machine

variable {c d e : Part} {x : Enumeration}

/-- START with no move and no cursor. -/
structure Part.Quiet (c : Part) : Prop where
  mode : c.ctl.mode = .start
  moves : c.mv.moves = []
  cursor : c.inv.cursor.active = false

/-- `d` differs from `c` in the signals and the robots alone. -/
def Part.Stirred (c d : Part) : Prop := ∃ w a b, d = { c with work := w, mv := { c.mv with robotA := a, robotB := b } }

theorem Part.Stirred.refl (c : Part) : c.Stirred c := ⟨c.work, c.mv.robotA, c.mv.robotB, rfl⟩

theorem Part.Stirred.of_eq (h : d = c) : c.Stirred d := h ▸ .refl c

theorem Part.Stirred.trans (h : c.Stirred d) (h' : d.Stirred e) : c.Stirred e := by
  obtain ⟨w, a, b, rfl⟩ := h
  obtain ⟨w', a', b', rfl⟩ := h'
  exact ⟨w', a', b', rfl⟩

theorem Part.Stirred.quiet (h : c.Stirred d) (hc : c.Quiet) : d.Quiet := by
  obtain ⟨w, a, b, rfl⟩ := h
  exact ⟨hc.mode, hc.moves, hc.cursor⟩

theorem Part.putRobot_stirred (y : Side) (r : Robot) : c.Stirred (c.putRobot y r) := by
  cases y with
  | a => exact ⟨c.work, r, c.mv.robotB, rfl⟩
  | b => exact ⟨c.work, c.mv.robotA, r, rfl⟩

/-! ### What each owner does -/

theorem Part.Quiet.attempt (h : c.Quiet) (p : Nat) : c.attempt p = c := by
  have hready : c.readyStep p = none := if_neg fun hp => by simp [h.mode] at hp
  unfold Part.attempt
  rw [hready]

theorem Part.Quiet.returnRests (h : c.Quiet) (p : Nat) (ret : PortReturn) : c.returnRests p ret = true := by
  simp [Part.returnRests, h.mode, Mode.admits]

theorem Part.Quiet.handleReturn (h : c.Quiet) (p : Nat) : c.handleReturn p = c := by
  unfold Part.handleReturn
  split
  · rfl
  · exact if_pos (h.returnRests p _)

theorem Part.Quiet.attemptReturn (h : c.Quiet) (p : Nat) : c.attemptReturn p = c := by
  unfold Part.attemptReturn
  split
  · rfl
  · exact if_pos (h.returnRests p _)

theorem Part.Quiet.each {f : Part → Nat → Part} {n : Nat} (h : c.Quiet) (hf : ∀ d p, d.Quiet → f d p = d) :
    c.each n f = c :=
  Kept0.each (R := fun d => d = c) rfl fun d p hd => by rw [hd]; exact hf c p h

theorem Part.Quiet.reassign (h : c.Quiet) (held : Bool) : c.reassign held = none := by
  simp [Part.reassign, h.moves]

/-- A recovery scan is refused in START: at most a location out of plan leaves its list. -/
theorem Part.Quiet.recoveryScan (h : c.Quiet) (y : Side) : Some' c.Stirred (c.recoveryScan y) := by
  have hrefused : ∀ q, c.admitAsk q = .error .wrongMode := fun q => by simp [Part.admitAsk, h.mode, Mode.admits]
  unfold Part.recoveryScan
  dsimp only
  split
  · exact Some'.none
  · split
    · split
      · exact Some'.some (Part.putRobot_stirred y _)
      · rw [hrefused]
        exact Some'.none
    · exact Some'.none

theorem Part.Quiet.recoveryOnce (h : c.Quiet) : Some' c.Stirred c.recoveryOnce :=
  Some'.orElse (h.recoveryScan .a) (h.recoveryScan .b)

/-- A signal is served with no effect but on the robots' recovery lists. -/
theorem Part.Quiet.serve (h : c.Quiet) (g : Sig) : c.Stirred (c.serve g) := by
  unfold Part.serve
  cases g with
  | attempt p => exact .of_eq (h.attempt p)
  | handle p => exact .of_eq (h.handleReturn p)
  | returnStep p => exact .of_eq (h.attemptReturn p)
  | slotAvailable => exact .of_eq (h.each fun _ p hd => hd.handleReturn p)
  | room =>
    have hscans : c.Stirred (c.each 4 fun c _ => c.recoveryOnce.getD c) :=
      Kept0.each (.refl c) fun d _ hd => hd.trans (Some'.getD (hd.quiet h).recoveryOnce (.refl d))
    refine hscans.trans (.of_eq ((hscans.quiet h).each fun d p hd => ?_))
    rw [hd.handleReturn, hd.attempt]
  | robots => exact .of_eq (by rw [h.reassign]; rfl)
  | reticle n =>
    refine .of_eq (h.each fun d p hd => ?_)
    split
    · exact hd.attempt p
    · rfl

/-- No condition holds on which an owner acts (R36, R37, R68, R89, R104, R111, R119). -/
theorem Part.Quiet.levels (h : c.Quiet) : Some' c.Stirred c.levels := by
  have hactivate : c.activateOnce = none := by simp [Part.activateOnce, Part.canActivate, h.mode]
  have hwaiting : c.waitingOnce = none := by
    have hnone : (List.range 8).find? c.waitsUnsaid = none := List.find?_eq_none.2 fun p _ => by
      unfold Part.waitsUnsaid
      split <;> simp [h.mode, Mode.admits]
    unfold Part.waitingOnce
    rw [hnone]
  have hscan : c.offerScan = none := by simp [Part.offerScan, h.mode, Mode.admits]
  have hdone : c.cursorDone = none := by simp [Part.cursorDone, h.cursor]
  have hcandidate : ∀ y, c.candidate y = none := fun y => by simp [Part.candidate, h.moves]
  have hrail : c.railOnce = none := by simp [Part.railOnce, hcandidate]
  have hfirst : c.firstCandidate = none := Part.firstCandidate_none fun z _ => by simp [Part.candidacy, h.mode]
  have hsupply : c.supplyOnce = none := by simp [Part.supplyOnce, hfirst]
  unfold Part.levels
  rw [hactivate, hwaiting, hscan, hdone, h.reassign, hrail, hsupply]
  exact Some'.orElse h.recoveryOnce Some'.none

theorem Part.Quiet.nextAct (h : c.Quiet) : Some' c.Stirred c.nextAct := by
  have hstandalone : c.standaloneOnce = none := by simp [Part.standaloneOnce, h.mode]
  unfold Part.nextAct
  rw [hstandalone]
  split
  · rename_i g rest _
    have hq : Part.Quiet { c with work := rest } := ⟨h.mode, h.moves, h.cursor⟩
    exact Some'.some (Part.Stirred.trans ⟨rest, c.mv.robotA, c.mv.robotB, rfl⟩ (hq.serve g))
  · exact h.levels

theorem Part.Quiet.settleAll (h : c.Quiet) (n : Nat) : c.Stirred (Part.settleAll n c) := by
  induction n generalizing c with
  | zero => exact .refl c
  | succ n ih =>
    unfold Part.settleAll
    split
    · rename_i d hd
      have hstirred : c.Stirred d := h.nextAct d hd
      exact hstirred.trans (ih (hstirred.quiet h))
    · exact .refl c

/-- The end of an event in START, during an enumeration: the signals, the robots, the retry timer and the FAULT summary apart, the
blocks stay. -/
theorem Part.Quiet.close (h : c.Quiet) (hx : c.bus.enum = some x) : ∃ w a b r f, c.close = { c with
    work := w, mv := { c.mv with robotA := a, robotB := b }, bus := { c.bus with retry := r }
    ctl := { c.ctl with fault := f } } := by
  obtain ⟨w, a, b, hd⟩ := h.settleAll 4096
  have hretry : ∀ d : Part, d.bus.enum = some x → ∃ r, d.retryLevel = { d with bus := { d.bus with retry := r } } :=
    fun d hd => by
      unfold Part.retryLevel
      rw [hd]
      dsimp only
      repeat' split
      all_goals exact ⟨_, rfl⟩
  have hnone : ∀ d : Part, d.bus.enum = some x → d.chooseExchange = d := fun d hd => if_pos (by simp [hd])
  obtain ⟨r, hr⟩ := hretry { c with work := w, mv := { c.mv with robotA := a, robotB := b } } hx
  unfold Part.close
  rw [hd, hr, hnone]
  · exact ⟨w, a, b, r, _, rfl⟩
  · exact hx

end Sys2Proof.Machine
end

section
/-! SUPPORT. What BUS_RESET and a warm start leave, and the one notice of a warm start (R160, R176, R191). -/

namespace Sys2Proof.Machine

variable {c d : Part} {s u y : State}

/-! ### BUS_RESET -/

/-- The blocks at BUS_RESET before the dispatched moves are broken off: queues, load window and port windows (R160). -/
def Part.busCleared (c : Part) : Part := (c.emptyQueues.discardWindow .busReset Shadow.table).each 8 Part.emptyWindow

theorem Part.busReset_eq : c.busReset =
    (((c.busCleared.interruptAll true).abortPasses.resetRobot .a).resetRobot .b).beginEnum .busReset := rfl

theorem Part.discardWindow_spec (cause : DiscardCause) (table : Shadow → TableId) :
    (c.discardWindow cause table).fixed = (c.now, c.tables, c.gens, none, c.ctl) ∧
      (c.discardWindow cause table).zones = c.zones := by
  unfold Part.discardWindow
  split
  · exact ⟨rfl, rfl⟩
  · rename_i h
    exact ⟨by simp [Part.fixed, h], rfl⟩

theorem Part.busCleared_spec : c.busCleared.fixed = (c.now, c.tables, c.gens, none, c.ctl) ∧
    c.busCleared.zones = c.zones := by
  have hwindows : ∀ d : Part, (d.each 8 Part.emptyWindow).fixed = d.fixed ∧ (d.each 8 Part.emptyWindow).zones = d.zones :=
    fun d => Kept0.each (R := fun e => e.fixed = d.fixed ∧ e.zones = d.zones) ⟨rfl, rfl⟩ fun _ _ h => h
  have hempty : ∀ d : Part, d.fixed = c.fixed →
      (d.now, d.tables, d.gens, none, d.ctl) = (c.now, c.tables, c.gens, (none : Option Window), c.ctl) := fun d hd =>
    congrArg (fun y => (y.1, y.2.1, y.2.2.1, (none : Option Window), y.2.2.2.2)) hd
  obtain ⟨hfixed, hzones⟩ := Part.discardWindow_spec (c := c.emptyQueues) .busReset Shadow.table
  unfold Part.busCleared
  refine ⟨(hwindows _).1.trans (hfixed.trans (hempty _ Part.emptyQueues_fixed)), ?_⟩
  rw [(hwindows _).2, hzones, Part.emptyQueues_zones]

theorem Part.abortPasses_mv : c.abortPasses.mv = c.mv := by
  unfold Part.abortPasses
  refine Kept0.each (R := fun d => d.mv = c.mv) rfl fun d z hd => ?_
  unfold Part.abortPass
  split
  · exact (Part.queueOrder_same _ _).2.1.trans hd
  · exact hd

theorem Part.resetRobot_same (x : Side) : (c.resetRobot x).mv.moves = c.mv.moves ∧ (c.resetRobot x).zones = c.zones := by
  unfold Part.resetRobot
  dsimp only
  split <;> exact ⟨Part.putRobot_mv_moves .., Part.putRobot_zones ..⟩

theorem Part.beginEnum_same (cause : EnumCause) : (c.beginEnum cause).mv.moves = c.mv.moves ∧
    (c.beginEnum cause).zones = c.zones ∧ ∃ e, (c.beginEnum cause).bus.enum = some e ∧ e.cause = cause := by
  obtain ⟨a, rest, ra, rb, roster, hbegin⟩ := c.beginEnum_eq cause
  rw [hbegin]
  exact ⟨rfl, rfl, _, rfl, rfl⟩

theorem Part.busReset_fixed : c.busReset.fixed = (c.now, c.tables, c.gens, none, c.ctl) := by
  have hbroken : (c.busCleared.interruptAll true).abortPasses.fixed = c.busCleared.fixed :=
    (kept_fixed c.busCleared.fixed).abortPasses ((kept_fixed c.busCleared.fixed).interruptAll rfl)
  rw [Part.busReset_eq, Part.beginEnum_fixed, Part.resetRobot_fixed, Part.resetRobot_fixed, hbroken,
    Part.busCleared_spec.1]

theorem Part.busReset_enum : ∃ e, c.busReset.bus.enum = some e ∧ e.cause = .busReset := by
  rw [Part.busReset_eq]
  exact (Part.beginEnum_same _).2.2

theorem Part.busReset_granted : ∀ m ∈ c.busReset.mv.moves, m.granted = false := by
  rw [Part.busReset_eq, (Part.beginEnum_same _).1, (Part.resetRobot_same _).1, (Part.resetRobot_same _).1,
    Part.abortPasses_mv]
  exact Part.interruptAll_granted true

theorem Part.busReset_pass (hs : c.sound) {z : Nat} (hz : z < 16) : (c.busReset.zone z).pass = none := by
  have hwf : Store.wf Zone.cold (c.busCleared.interruptAll true).zones = true := by
    rw [(c.busCleared.interruptAll_struck true).zones, Part.busCleared_spec.2]
    exact hs.zones
  obtain ⟨-, hzone⟩ := Part.abortPasses_zone hwf
  unfold Part.zone at hzone ⊢
  rw [Part.busReset_eq, (Part.beginEnum_same _).2.1, (Part.resetRobot_same _).2, (Part.resetRobot_same _).2, hzone,
    if_pos hz]

/-! ### The notice queue -/

theorem NoticeQueue.pushAll_sending (q : NoticeQueue) (time : Nat) (l : List Subject) :
    (q.pushAll time l).sending = q.sending := by
  have hpush : ∀ (q : NoticeQueue) n, (q.push time n).sending = q.sending := fun q n => by
    unfold NoticeQueue.push
    repeat' split
    all_goals rfl
  unfold NoticeQueue.pushAll
  induction l generalizing q with
  | nil => rfl
  | cons n l ih => exact (ih _).trans (hpush q n)

/-- A notice generated on an empty queue joins it, whatever is being sent (R169). -/
theorem NoticeQueue.push_empty {q : NoticeQueue} (h : q.queue = []) (time : Nat) (n : Subject) :
    (q.push time n).queue = [⟨q.next, time, n⟩] := by
  have hsize : q.size < 32 := by
    unfold NoticeQueue.size
    rw [h]
    split <;> decide
  unfold NoticeQueue.push
  simp only [if_pos hsize, h]
  rfl

/-! ### The state after a warm start -/

theorem State.finish_owed : s.finish.owed = s.owed := State.owed_transmit _

/-- The notices after an event whose one notice finds an empty queue. -/
theorem State.finish_noticed {n : Subject} (hout : s.part.close.out = [n]) (hqueue : s.notices.queue = []) :
    s.finish.noticed = s.notices.sending.toList ++ [⟨s.notices.next, s.part.close.now, n⟩] := by
  have hpush : (s.notices.pushAll s.part.close.now [n]).queue = _ := NoticeQueue.push_empty hqueue s.part.close.now n
  unfold State.finish
  rw [State.noticed_transmit]
  unfold State.noticed
  rw [State.flush_notices]
  dsimp only
  rw [hout, NoticeQueue.pushAll_sending, hpush]

/-- MODE_CHANGE of a warm start (R177, R191). -/
def State.warmNote (u : State) (o : Option Bool) : Subject :=
  .modeChange .start u.mode .warmRestart FailCauses.none none o

theorem State.warmStart_eq (o : Option Bool) : ∃ q : NoticeQueue, q.queue = [] ∧ q.sending = u.notices.sending ∧
    u.warmStart o = { u with part := { u.part.warmStart u.image.bytes with out := [u.warmNote o] }, notices := q } := by
  unfold State.warmStart
  generalize u.part.warmStart u.image.bytes = p
  refine ⟨_, ?_, ?_, rfl⟩
  · rfl
  · exact NoticeQueue.pushAll_sending ..

theorem State.warmStart_image (o : Option Bool) : (u.warmStart o).image = u.image := by
  obtain ⟨q, -, -, heq⟩ := u.warmStart_eq o
  rw [heq]

theorem State.warmStart_owed (o : Option Bool) : (u.warmStart o).owed = u.owed := by
  obtain ⟨q, -, -, heq⟩ := u.warmStart_eq o
  rw [heq]
  simp only [State.owed]

theorem State.reply_owed (r : Reply) : (s.reply r).owed = s.owed ++ [r] := (List.append_assoc ..).symm

theorem State.heard_owed : s.heard.owed = s.owed := rfl

/-- What a warm start has left by the end of its event: the start's tables, nothing in progress, and one notice. -/
structure State.Warm (u t : State) (o : Option Bool) : Prop where
  fixed : ∃ f, t.part.fixed = (u.part.now, (startTables u.image.bytes).1, (startTables u.image.bytes).2.1, none,
    { u.part.ctl.warm with imageBad := (startTables u.image.bytes).2.2, fault := f })
  rest : ∃ left, t.part.Restarting (Store.wf Zone.cold u.part.zones = true) (some ⟨.warm, left⟩)
  noticed : ∃ n, t.noticed = u.notices.sending.toList ++ [n] ∧ n.subject = u.warmNote o

theorem State.warm_finish {o : Option Bool} (hpart : y.part = (u.warmStart o).part)
    (hnotices : y.notices = (u.warmStart o).notices) : u.Warm y.finish o := by
  obtain ⟨left, hrest⟩ := Part.warmStart_restarting (c := u.part) u.image.bytes
  have hfixed := Part.warmStart_fixed (c := u.part) u.image.bytes
  obtain ⟨queue, hqueue, hsending, heq⟩ := u.warmStart_eq o
  rw [heq] at hpart hnotices
  dsimp only at hpart hnotices
  generalize u.part.warmStart u.image.bytes = q at hrest hfixed hpart
  simp only [Part.fixed, Prod.mk.injEq] at hfixed
  obtain ⟨hnow, htables, hgens, hwindow, hctl⟩ := hfixed
  have hquiet : Part.Quiet { q with out := [u.warmNote o] } := ⟨by rw [hctl]; rfl, hrest.moves, hrest.cursor⟩
  obtain ⟨w, a, b, r, f, hclose⟩ := hquiet.close hrest.enum
  rw [← hpart] at hclose
  refine ⟨⟨f, ?_⟩, ⟨left, ?_⟩, ?_⟩
  · rw [State.finish_part, hclose, hpart]
    simp only [Part.fixed, hnow, htables, hgens, hwindow, hctl]
  · rw [State.finish_part, hclose, hpart]
    exact ⟨hrest.moves, hrest.jobs, hrest.cursor, hrest.enum, hrest.passes⟩
  · have hout : y.part.close.out = [u.warmNote o] := by rw [hclose, hpart]
    have hnoticed := State.finish_noticed hout (hnotices ▸ hqueue)
    rw [hnotices, hsending] at hnoticed
    exact ⟨_, hnoticed, rfl⟩

/-- The state at the end of an image write, ahead of a deferred warm start (R187). -/
def State.writeEnded (s : State) (copy : Tables × List Nat) (ok : Bool) : State :=
  { s with part := s.part.imageWritten copy.2 ok, image := s.image.written copy ok }

theorem exec_imageWriteDone_deferred {copy : Tables × List Nat} (hw : s.image.writing = some copy)
    (hd : s.image.deferred = true) (ok : Bool) :
    exec (.imageWriteDone ok) s = .next ((s.writeEnded copy ok).warmStart (some ok)).finish := by
  refine congrArg Host.Outcome.next ?_
  simp only [hw, hd, if_true, State.writeEnded]

theorem startTables_bad (b : List Byte) : (startTables b).2.2 = !imageGood b := by
  cases h : imageGood b with
  | true => exact (startTables_of_good h).2.2
  | false => exact (startTables_of_bad h).2.2

end Sys2Proof.Machine
end

section
open Sys2Proof Sys2Proof.Machine

/-- Settles O39: BUS_RESET and the warm start are their steps one after the other; behind the warm start no block has anything
to do in START, so that its MODE_CHANGE is the one notice. -/
theorem resetRequests : Obligations.ResetRequests := by
  unfold Obligations.ResetRequests
  intro warm
  have hwarm : ∀ {s u t : State} {o}, u.Warm t o → u.part.now = s.part.now → u.part.zones = s.part.zones →
      u.mode = s.mode → u.notices = s.notices → t.image.bytes = u.image.bytes → warm s t o := by
    intro s u t o h hnow hzones hmode hnotices himage
    obtain ⟨⟨f, hfixed⟩, ⟨left, hrest⟩, n, hn, hsubject⟩ := h
    simp only [Part.fixed, Prod.mk.injEq] at hfixed
    obtain ⟨hfnow, htables, hgens, hwindow, hctl⟩ := hfixed
    refine ⟨by rw [hctl]; rfl, hwindow, hfnow.trans hnow, hrest.jobs, hrest.moves, ⟨_, hrest.enum, rfl⟩,
      fun hs => (hrest.passes (hzones ▸ hs.zones)).2, himage ▸ htables, himage ▸ hgens, ?_, n, hnotices ▸ hn, ?_⟩
    · rw [hctl, himage]
      exact startTables_bad _
    · rw [hsubject, State.warmNote, hmode]
  refine ⟨fun s tag hl => ⟨fun hm he => ?_, fun hm he => ?_, ?_, fun hm hw => ?_, fun w hm hw => ?_⟩,
    fun s ok w g hw hd => ?_⟩
  · exact State.request_accepted hl (by simp [State.inService, State.need, hm, he])
  · exact State.request_refused hl (by simp [State.inService, State.need, hm, he])
  · have hfixed := Part.busReset_fixed (c := s.part)
    simp only [Part.fixed, Prod.mk.injEq] at hfixed
    obtain ⟨-, htables, -, hwindow, hctl⟩ := hfixed
    exact ⟨hwindow, htables, hctl, Part.busReset_granted, fun hs z hz => Part.busReset_pass hs hz,
      Part.busReset_enum⟩
  · have hexec : exec (.softReset tag) s =
        .next (((s.heard.warmStart none).reply ⟨0, 0x76, tag, Rsp.ok .none⟩).finish) := by
      refine congrArg Host.Outcome.next ((State.request_listens hl).trans ?_)
      simp [State.notInStart, hm, hw]
    have hend : s.heard.Warm ((s.heard.warmStart none).reply ⟨0, 0x76, tag, Rsp.ok .none⟩).finish none :=
      State.warm_finish (State.reply_part ..) (State.reply_notices ..)
    have himage : ((s.heard.warmStart none).reply ⟨0, 0x76, tag, Rsp.ok .none⟩).finish.image = s.image := by
      rw [State.finish_image, State.reply_image, State.warmStart_image, State.heard_image]
    refine ⟨_, hexec, ?_, himage, hwarm hend rfl rfl rfl rfl (congrArg ImageStore.bytes himage)⟩
    rw [State.finish_owed, State.reply_owed, State.warmStart_owed, State.heard_owed]
  · have hexec : exec (.softReset tag) s =
        .next (({ s.heard with image := { s.image with deferred := true } } : State).reply
          ⟨0, 0x76, tag, Rsp.ok .none⟩).finish := by
      refine congrArg Host.Outcome.next ((State.request_listens hl).trans ?_)
      simp [State.notInStart, hm, hw]
    refine ⟨_, hexec, State.finish_image _, ?_⟩
    rw [State.finish_owed, State.reply_owed]
    rfl
  · have himage : ((s.writeEnded (w, g) ok).warmStart (some ok)).finish.image = s.image.written (w, g) ok := by
      rw [State.finish_image, State.warmStart_image]
      rfl
    refine ⟨_, exec_imageWriteDone_deferred hw hd ok, hwarm (State.warm_finish rfl rfl) rfl rfl rfl rfl
      (congrArg ImageStore.bytes himage), ?_, himage⟩
    rw [State.finish_owed, State.warmStart_owed]
    rfl
end

section
/-! SUPPORT. The Job Engine's tables, written and read back: jobs, ports and the orders to a port's node (R81, R85, R156). -/

namespace Sys2Proof.Machine

variable {c d : Part} {i j k p y : Nat}

theorem Part.job_of_jobs (h : d.jobs.jobs = c.jobs.jobs) (j : Nat) : d.job? j = c.job? j :=
  congrArg (Store.find · j) h

theorem Part.port_of_ports (h : d.jobs.ports = c.jobs.ports) (p : Nat) : d.port p = c.port p :=
  congrArg (Store.getD Port.cold · p) h

@[simp] theorem Part.signal_job (g : Sig) : (c.signal g).job? j = c.job? j := Part.job_of_jobs (by simp) j

@[simp] theorem Part.signal_port (g : Sig) : (c.signal g).port p = c.port p := Part.port_of_ports (by simp) p

@[simp] theorem Part.putPort_job (q : Port) : (c.putPort p q).job? j = c.job? j := rfl

theorem Part.putJob_job (r : Job) : (c.putJob j r).job? i = if i = j then some r else c.job? i := by
  split
  · subst i
    exact Store.find_put_self _ _ _
  · exact Store.find_put_of_ne _ _ ‹_›

theorem Part.updJob_eq {r : Job} (f : Job → Job) (h : c.job? j = some r) : c.updJob j f = c.putJob j (f r) := by
  unfold Part.updJob
  rw [h]

theorem Part.setStep_eq {r : Job} {st : Step} (f : Step → Step) (h : c.job? j = some r) (hst : r.steps[k]? = some st) :
    c.setStep j k f = c.putJob j { r with steps := r.steps.set k (f st) } := by
  unfold Part.setStep
  rw [Part.updJob_eq _ h, hst]

theorem Part.setStep_ports (f : Step → Step) : (c.setStep j k f).jobs.ports = c.jobs.ports := by
  unfold Part.setStep Part.updJob
  split <;> rfl

theorem Part.putPort_port_eq (h : c.sound) (q : Port) : (c.putPort p q).port y = if y = p then q else c.port y := by
  split
  · subst y
    exact Part.putPort_port h.ports p q
  · exact Part.putPort_port_other q ‹_›

/-- An order to a port's node changes the queues of the roster alone. -/
theorem Part.portOrder_eq (p : Nat) (o : Order) : ∃ u, c.portOrder p o = { c with bus := { c.bus with roster := u } } := by
  unfold Part.portOrder Part.order Part.queueOrder
  repeat' split
  all_goals exact ⟨_, rfl⟩

@[simp] theorem Part.portOrder_jobs (p : Nat) (o : Order) : (c.portOrder p o).jobs = c.jobs :=
  (Part.queueOrder_same _ _).2.2.2.1

theorem Part.node_of_bus (h : d.bus = c.bus) (a : Nat) : d.node? a = c.node? a :=
  congrArg (fun b : BusPort => Store.find b.roster a) h

theorem headFrom_open {l : List Step} {st : Step} (h : headFrom l i = some (k, st)) : st.state ≠ .ended := by
  induction l generalizing i with
  | nil => cases h
  | cons a t ih =>
    unfold headFrom at h
    split at h
    · exact ih h
    · cases h
      assumption

/-- The head step has not ended (R86). -/
theorem Job.head_open {r : Job} {st : Step} (h : r.head = some (k, st)) : st.state ≠ .ended := headFrom_open h

theorem Job.finished_iff (r : Job) : r.finished = true ↔ ∀ st ∈ r.steps, st.state = .ended := by
  simp [Job.finished]

end Sys2Proof.Machine
end

section
/-! SUPPORT. Several steps of a job ended at once (R86): what it leaves of the steps, and the notices that say so. -/

namespace Sys2Proof.Machine

variable {c d e : Part} {j k : Nat} {r r' : Job} {st : Step} {res : StepResult}

/-- A step after every open one of the selected states has ended. -/
def Step.cut (sel : StepState → Bool) (res : StepResult) (st : Step) : Step :=
  if sel st.state = true ∧ st.state ≠ .ended then st.endedAs res else st

/-- A job after its open steps of the selected states have ended. -/
def Job.cut (r : Job) (sel : StepState → Bool) (res : StepResult) : Job := { r with steps := r.steps.map (·.cut sel res) }

/-- `d` differs from `c` in job `j`, which is `r` now, and in notices that steps of it ended with `res`. -/
structure Part.Marked (c d : Part) (j : Nat) (r : Job) (res : StepResult) : Prop where
  eq : ∃ q a, d = { c with jobs := { c.jobs with jobs := q }, out := c.out ++ a } ∧
    ∀ s ∈ a, ∃ k x, s = Subject.stepResult j k res x
  self : d.job? j = some r
  others : ∀ i, i ≠ j → d.job? i = c.job? i

theorem Part.Marked.refl (h : c.job? j = some r) : c.Marked c j r res where
  eq := ⟨c.jobs.jobs, [], by rw [List.append_nil], by simp⟩
  self := h
  others _ _ := rfl

theorem Part.Marked.trans (h : c.Marked d j r res) (h' : d.Marked e j r' res) : c.Marked e j r' res := by
  obtain ⟨⟨q, a, rfl, ha⟩, -, hothers⟩ := h
  obtain ⟨⟨q', a', rfl, ha'⟩, hself', hothers'⟩ := h'
  exact ⟨⟨q', a ++ a', by rw [List.append_assoc], fun s hs => (List.mem_append.1 hs).elim (ha s) (ha' s)⟩, hself',
    fun i hi => (hothers' i hi).trans (hothers i hi)⟩

/-- A job's record written, its steps apart or not, tells nothing. -/
theorem Part.updJob_marked (f : Job → Job) (h : c.job? j = some r) : c.Marked (c.updJob j f) j (f r) res := by
  rw [Part.updJob_eq f h]
  exact ⟨⟨_, [], by rw [List.append_nil]; rfl, by simp⟩, by rw [Part.putJob_job, if_pos rfl],
    fun i hi => by rw [Part.putJob_job, if_neg hi]⟩

theorem Part.markStep_marked (n : Option Nat) (h : c.job? j = some r) (hst : r.steps[k]? = some st)
    (hopen : st.state ≠ .ended) : c.Marked (c.markStep j k res n) j (r.withEnded k st res) res := by
  refine ⟨⟨Store.put c.jobs.jobs j (r.withEnded k st res),
    [Subject.stepResult j (k + 1) res (n <|> c.stepReticle st.work)], ?_, fun s hs => ⟨_, _, List.mem_singleton.1 hs⟩⟩,
    Part.markStep_job res n h hst hopen, fun i hi => ?_⟩
  · rw [Part.markStep_eq res n h hst hopen, Part.setStep_eq _ h hst]
    rfl
  · rw [Part.markStep_eq res n h hst hopen, Part.setStep_eq _ h hst]
    exact (Part.putJob_job _).trans (if_neg hi)

/-- A job whose first `n` steps have been gone through. -/
def Job.cutBelow (r : Job) (sel : StepState → Bool) (res : StepResult) (n : Nat) : Job :=
  { r with steps := r.steps.mapIdx fun i st => if i < n then st.cut sel res else st }

theorem Job.cutBelow_zero (r : Job) (sel : StepState → Bool) : r.cutBelow sel res 0 = r := by
  unfold Job.cutBelow
  simp only [Nat.not_lt_zero, if_false]
  rw [(List.mapIdx_eq_iff (l' := r.steps)).2 fun i => by simp]

theorem Job.cutBelow_length (r : Job) (sel : StepState → Bool) : r.cutBelow sel res r.steps.length = r.cut sel res := by
  unfold Job.cutBelow Job.cut
  congr 1
  refine List.ext_getElem (by simp) fun i h _ => ?_
  simp only [List.length_mapIdx] at h
  simp [h]

theorem Job.cutBelow_step (r : Job) (sel : StepState → Bool) {n : Nat} (h : n < r.steps.length) :
    (r.cutBelow sel res n).steps[n]? = some r.steps[n] := by
  simp [Job.cutBelow, h]

theorem Job.cutBelow_succ {sel : StepState → Bool} {n : Nat} (h : n < r.steps.length) : r.cutBelow sel res (n + 1) =
    { r.cutBelow sel res n with steps := (r.cutBelow sel res n).steps.set n (r.steps[n].cut sel res) } := by
  unfold Job.cutBelow
  dsimp only
  congr 1
  refine List.ext_getElem (by simp) fun i h _ => ?_
  rcases Nat.lt_trichotomy i n with hi | rfl | hi
  · simp [hi.ne', hi, hi.le]
  · simp
  · simp [hi.ne, Nat.not_lt.2 hi.le, Nat.not_le.2 hi]

/-- A step written back as it was. -/
theorem Job.set_step_self (h : r.steps[k]? = some st) : { r with steps := r.steps.set k st } = r := by
  obtain ⟨hk, rfl⟩ := List.getElem?_eq_some_iff.1 h
  rw [List.set_getElem_self]

/-- The steps of a job ended in list order (R91, R99). -/
theorem Part.markSteps_marked (sel : StepState → Bool) (h : c.job? j = some r) :
    c.Marked (c.markSteps j sel res) j (r.cut sel res) res := by
  have hupto : ∀ n ≤ r.steps.length, c.Marked (c.each n fun c k => match (c.job? j).bind (·.steps[k]?) with
      | some st => if sel st.state then c.markStep j k res none else c
      | none => c) j (r.cutBelow sel res n) res := by
    intro n
    induction n with
    | zero =>
      rw [Job.cutBelow_zero]
      exact fun _ => .refl h
    | succ n ih =>
      intro hn
      have hlt : n < r.steps.length := hn
      have hbefore := ih hlt.le
      have hstep := Job.cutBelow_step (res := res) r sel hlt
      unfold Part.each at hbefore ⊢
      rw [List.range_succ, List.foldl_append, Job.cutBelow_succ hlt]
      refine hbefore.trans ?_
      dsimp only [List.foldl_cons, List.foldl_nil]
      rw [hbefore.self]
      dsimp only [Option.bind_some]
      rw [hstep]
      dsimp only
      by_cases hopen : r.steps[n].state = .ended
      · -- a step that has ended stays as it is
        have hcut : r.steps[n].cut sel res = r.steps[n] := if_neg fun hc => hc.2 hopen
        rw [hcut, Job.set_step_self hstep]
        split
        · rw [Part.markStep, hbefore.self]
          dsimp only [Option.bind_some]
          rw [hstep]
          dsimp only
          rw [if_pos hopen]
          exact .refl hbefore.self
        · exact .refl hbefore.self
      · split
        · have hcut : r.steps[n].cut sel res = r.steps[n].endedAs res := if_pos ⟨‹_›, hopen⟩
          rw [hcut]
          exact Part.markStep_marked none hbefore.self hstep hopen
        · have hcut : r.steps[n].cut sel res = r.steps[n] := if_neg fun hc => absurd hc.1 ‹_›
          rw [hcut, Job.set_step_self hstep]
          exact .refl hbefore.self
  have hall := hupto _ le_rfl
  rw [Job.cutBelow_length] at hall
  unfold Part.markSteps
  rw [h]
  exact hall

/-- The steps of a job that ended DONE. -/
def Job.done (r : Job) : Nat := (r.steps.filter fun st => st.result = some .done).length

/-- What is not DONE as it ends is not counted, while an open step has no result. -/
theorem Job.done_cut (sel : StepState → Bool) (hres : res ≠ .done) (h : ∀ st ∈ r.steps, st.state ≠ .ended → st.result = none) :
    (r.cut sel res).done = r.done := by
  unfold Job.done Job.cut
  dsimp only
  rw [List.filter_map, List.length_map]
  refine congrArg List.length (List.filter_congr fun st hst => ?_)
  dsimp only [Function.comp_apply]
  unfold Step.cut Step.endedAs
  split
  · simp [hres, h st hst (by simp_all)]
  · rfl

end Sys2Proof.Machine
end

section
/-! SUPPORT. The end of a job, field by field (R90, R100): its record, its port, its notices and its CONTINUE successor. -/

namespace Sys2Proof.Machine

variable {c d : Part} {j q y : Nat} {r b : Job} {out : JobOutcome}

/-! ### PORT_JOB(idle) -/

theorem Part.sendIdle_eq (h : c.job? j = some r) : c.sendIdle j = if (c.port r.port).idleSent then c
    else (c.portOrder r.port (.portJob false j r.kind)).putPort r.port { c.port r.port with idleSent := true } := by
  unfold Part.sendIdle
  rw [h]

/-- The port of a job that is sent its idle indication has been sent it (R100). -/
theorem Part.sendIdle_port (hs : c.sound) (h : c.job? j = some r) (y : Nat) : (c.sendIdle j).port y =
    if y = r.port then { c.port r.port with idleSent := true } else c.port y := by
  rw [Part.sendIdle_eq h]
  split
  · rename_i hsent
    split
    · subst y
      rw [← hsent]
    · rfl
  · rw [Part.putPort_port_eq (kept_sound.portOrder hs)]
    split
    · rfl
    · exact Part.port_of_ports (by simp) y

/-! ### The record, the port and the notices -/

/-- The blocks as job `j` of record `r` has ended, its successor apart (R90). -/
def Part.jobFreed (c : Part) (j : Nat) (r : Job) (out : JobOutcome) : Part :=
  let c1 := c.markSteps j (· ≠ .ended) .cancelled
  let c2 := if r.active then c1.sendIdle j else c1
  let c4 := ((c2.say (.jobEnded j r.port r.kind out (r.cut (· ≠ .ended) .cancelled).done)).unbindWatch j).dropJob j
  c4.putPort r.port { c4.port r.port with
    queue := (c4.port r.port).queue.filter (· ≠ j)
    active := if (c4.port r.port).active = some j then none else (c4.port r.port).active }

theorem Part.endJob_eq (h : c.job? j = some r) (out : JobOutcome) : c.endJob j out = match r.cont with
    | some q => if out = .cancelled then c.jobFreed j r out else (c.jobFreed j r out).followChain j r.port q
    | none => c.jobFreed j r out := by
  unfold Part.endJob
  rw [h]
  dsimp only
  rw [(Part.markSteps_marked (res := .cancelled) (· ≠ .ended) h).self]
  rfl

theorem Part.jobFreed_sound (hs : c.sound) (j : Nat) (r : Job) (out : JobOutcome) : (c.jobFreed j r out).sound := by
  have hmarked : (c.markSteps j (· ≠ .ended) .cancelled).sound := kept_sound.markSteps hs
  refine kept_sound.putPort (kept_sound.dropJob (kept_sound.watch (kept_sound.say ?_)))
  split
  · exact kept_sound.sendIdle hmarked
  · exact hmarked

/-- `d` is what `c` becomes as job `j` of record `r` ends: the queue of its port is `queue` now, and `more` is said behind
JOB_ENDED (R90). -/
structure Part.JobEnds (c d : Part) (j : Nat) (r : Job) (out : JobOutcome) (queue : List Nat) (more : List Subject) : Prop where
  gone : d.job? j = none
  others : ∀ i, i ≠ j → d.job? i = c.job? i
  port : d.port r.port = { c.port r.port with
    queue := queue, active := if (c.port r.port).active = some j then none else (c.port r.port).active
    idleSent := r.active || (c.port r.port).idleSent }
  ports : ∀ y, y ≠ r.port → d.port y = c.port y
  said : ∃ a : List Subject, d.out =
      c.out ++ a ++ Subject.jobEnded j r.port r.kind out (r.cut (· ≠ .ended) .cancelled).done :: more ∧
    ∀ s ∈ a, ∃ k x, s = Subject.stepResult j k .cancelled x

theorem Part.jobFreed_ends (hs : c.sound) (h : c.job? j = some r) (out : JobOutcome) :
    c.JobEnds (c.jobFreed j r out) j r out ((c.port r.port).queue.filter (· ≠ j)) [] := by
  have hmarked := Part.markSteps_marked (res := .cancelled) (· ≠ .ended) h
  obtain ⟨jobs, a, heq, ha⟩ := hmarked.eq
  have hs1 : (c.markSteps j (· ≠ .ended) .cancelled).sound := kept_sound.markSteps hs
  have hport1 : ∀ y, (c.markSteps j (· ≠ .ended) .cancelled).port y = c.port y := fun y => by rw [heq]; rfl
  -- the blocks once idle has been sent
  obtain ⟨c2, hc2⟩ : ∃ c2, c2 = if r.active then (c.markSteps j (· ≠ .ended) .cancelled).sendIdle j
      else c.markSteps j (· ≠ .ended) .cancelled := ⟨_, rfl⟩
  have hs2 : c2.sound := by
    rw [hc2]
    split
    · exact kept_sound.sendIdle hs1
    · exact hs1
  have hjob2 : ∀ i, i ≠ j → c2.job? i = c.job? i := fun i hi => by
    rw [hc2]
    split
    · rw [(Part.sendIdle_same j).2.2.2]
      exact hmarked.others i hi
    · exact hmarked.others i hi
  have hport2 : ∀ y, c2.port y =
      if y = r.port then { c.port r.port with idleSent := r.active || (c.port r.port).idleSent } else c.port y := fun y => by
    rw [hc2]
    split
    · rename_i hactive
      rw [Part.sendIdle_port hs1 hmarked.self, hport1, hport1, hactive, Bool.true_or]
      rfl
    · rename_i hactive
      rw [hport1, Bool.eq_false_iff.2 hactive, Bool.false_or]
      split
      · subst y
        rfl
      · rfl
  have hout2 : c2.out = c.out ++ a := by
    rw [hc2]
    split
    · rw [(Part.sendIdle_same j).2.2.1, heq]
    · rw [heq]
  have hfreed : c.jobFreed j r out = ((((c2.say (.jobEnded j r.port r.kind out
      (r.cut (· ≠ .ended) .cancelled).done)).unbindWatch j).dropJob j).putPort r.port { c2.port r.port with
        queue := (c2.port r.port).queue.filter (· ≠ j)
        active := if (c2.port r.port).active = some j then none else (c2.port r.port).active }) := by
    rw [hc2]
    rfl
  rw [hfreed]
  refine ⟨?_, fun i hi => ?_, ?_, fun y hy => ?_, a, ?_, ha⟩
  · exact Store.find_erase_self hs2.jobs j
  · exact (Store.find_erase_of_ne _ hi).trans (hjob2 i hi)
  · rw [Part.putPort_port (by exact hs2.ports), hport2, if_pos rfl]
  · rw [Part.putPort_port_other _ hy]
    exact (hport2 y).trans (if_neg hy)
  · exact congrArg (· ++ [_]) hout2

/-! ### The CONTINUE successor -/

theorem Part.endJob_unchained (hs : c.sound) (h : c.job? j = some r) (hno : r.cont = none ∨ out = .cancelled) :
    c.JobEnds (c.endJob j out) j r out ((c.port r.port).queue.filter (· ≠ j)) [] := by
  have heq : c.endJob j out = c.jobFreed j r out := by
    rw [Part.endJob_eq h]
    split
    · rename_i q hq
      exact if_pos (hno.resolve_left (by simp [hq]))
    · rfl
  rw [heq]
  exact Part.jobFreed_ends hs h out

theorem Part.endJob_follows (h : c.job? j = some r) (hq : r.cont = some q) (hout : out ≠ .cancelled) :
    c.endJob j out = (c.jobFreed j r out).followChain j r.port q := by
  rw [Part.endJob_eq h, hq]
  exact if_neg hout

/-- A successor QUEUED on the port goes to the head of its queue (R90). -/
theorem Part.endJob_chained (hs : c.sound) (h : c.job? j = some r) (hq : r.cont = some q) (hout : out ≠ .cancelled)
    (hne : q ≠ j) (hb : c.job? q = some b) (hport : b.port = r.port) (hqueued : b.active = false) :
    c.JobEnds (c.endJob j out) j r out (q :: ((c.port r.port).queue.filter (· ≠ j)).filter (· ≠ q)) [] := by
  have hends := Part.jobFreed_ends hs h out
  have hfollow : c.endJob j out = (c.jobFreed j r out).putPort r.port { (c.jobFreed j r out).port r.port with
      queue := q :: ((c.jobFreed j r out).port r.port).queue.filter (· ≠ q) } := by
    rw [Part.endJob_follows h hq hout, Part.followChain, hends.others q hne, hb]
    exact if_pos ⟨hport, hqueued⟩
  have hs' := Part.jobFreed_sound hs j r out
  rw [hfollow]
  refine ⟨hends.gone, hends.others, ?_, fun y hy => ?_, hends.said⟩
  · rw [Part.putPort_port_eq hs', if_pos rfl, hends.port]
  · rw [Part.putPort_port_eq hs', if_neg hy]
    exact hends.ports y hy

/-- A successor that is none, or stands elsewhere, or runs already, breaks the chain (R90). -/
theorem Part.endJob_broken (hs : c.sound) (h : c.job? j = some r) (hq : r.cont = some q) (hout : out ≠ .cancelled)
    (hno : q = j ∨ c.job? q = none ∨ ∃ b, c.job? q = some b ∧ (b.port ≠ r.port ∨ b.active = true)) :
    c.JobEnds (c.endJob j out) j r out ((c.port r.port).queue.filter (· ≠ j)) [.chainBroken j q] := by
  have hends := Part.jobFreed_ends hs h out
  have hbroken : (c.jobFreed j r out).followChain j r.port q = (c.jobFreed j r out).say (.chainBroken j q) := by
    unfold Part.followChain
    by_cases hqj : q = j
    · rw [hqj, hends.gone]
    · rw [hends.others q hqj]
      rcases hno.resolve_left hqj with hnone | ⟨b, hb, hbad⟩
      · rw [hnone]
      · rw [hb]
        exact if_neg fun hgood => hbad.elim (· hgood.1) (by simp [hgood.2])
  rw [Part.endJob_follows h hq hout, hbroken]
  obtain ⟨a, hsaid, ha⟩ := hends.said
  exact ⟨hends.gone, hends.others, hends.port, hends.ports, a, by simp [Part.say, hsaid], ha⟩

/-- However its chain goes on, a job ends. -/
theorem Part.endJob_ends_somehow (hs : c.sound) (h : c.job? j = some r) (out : JobOutcome) :
    ∃ queue more, c.JobEnds (c.endJob j out) j r out queue more := by
  by_cases hno : r.cont = none ∨ out = .cancelled
  · exact ⟨_, _, Part.endJob_unchained hs h hno⟩
  · obtain ⟨hcont, hout⟩ := not_or.1 hno
    obtain ⟨q, hq⟩ := Option.ne_none_iff_exists'.1 hcont
    by_cases hgood : ∃ b, q ≠ j ∧ c.job? q = some b ∧ b.port = r.port ∧ b.active = false
    · obtain ⟨b, hne, hb, hport, hqueued⟩ := hgood
      exact ⟨_, _, Part.endJob_chained hs h hq hout hne hb hport hqueued⟩
    · refine ⟨_, _, Part.endJob_broken hs h hq hout ?_⟩
      by_contra hbad
      simp only [not_or, not_exists, not_and] at hbad
      obtain ⟨hne, hsome, hfree⟩ := hbad
      obtain ⟨b, hb⟩ := Option.ne_none_iff_exists'.1 hsome
      obtain ⟨hport, hqueued⟩ := hfree b hb
      exact hgood ⟨b, hne, hb, by simpa using hport, by simpa using hqueued⟩

/-- PORT_JOB(idle) goes behind the orders of the port's node as an ACTIVE job ends that has not sent it (R100). -/
theorem Part.endJob_node {a : Nat} {n : Node} (h : c.job? j = some r) (hactive : r.active = true)
    (hidle : (c.port r.port).idleSent = false) (ha : c.portAddr r.port = some a) (hplan : (c.planOf a).kind ≠ .none)
    (hn : c.node? a = some n) (out : JobOutcome) :
    (c.endJob j out).node? a = some { n with queue := n.queue ++ [⟨.portJob false j r.kind, none⟩] } := by
  have hmarked := Part.markSteps_marked (res := .cancelled) (· ≠ .ended) h
  obtain ⟨jobs, o, heq, -⟩ := hmarked.eq
  have hidle1 : ¬((c.markSteps j (· ≠ .ended) .cancelled).port
      (r.cut (· ≠ .ended) .cancelled).port).idleSent = true := by
    rw [heq]
    exact Bool.eq_false_iff.1 hidle
  have hfreed : (c.jobFreed j r out).bus = ((c.markSteps j (· ≠ .ended) .cancelled).portOrder r.port
      (.portJob false j r.kind)).bus := by
    unfold Part.jobFreed
    dsimp only [Part.putPort_bus, Part.dropJob_bus]
    rw [if_pos hactive, Part.sendIdle_eq hmarked.self, if_neg hidle1]
    rfl
  have hbus : (c.endJob j out).bus = (c.jobFreed j r out).bus := by
    rw [Part.endJob_eq h]
    split
    · split
      · rfl
      · exact Part.followChain_bus ..
    · rfl
  rw [Part.node_of_bus (hbus.trans hfreed)]
  exact Part.portOrder_node _ (by rw [heq]; exact ha) (by rw [heq]; exact hplan) (by rw [heq]; exact hn)

end Sys2Proof.Machine
end

section
/-! SUPPORT. DELIVER and RETURN: the job they make, and the checks that both end with (R85, R87, R88). -/

namespace Sys2Proof.Machine

variable {s : State} {c : Part} {p : Nat} {k : JobKind} {f : JobFlags} {steps : List Step} {res : Result}

/-- A request that its owner answers with a payload of its own. -/
theorem State.request_answered {addr tag kind : Nat} {g : State → State × Rsp} {q : Part} {r : Rsp}
    (h : s.listens = true) (hg : g s.heard = ({ s.heard with part := q }, r)) :
    (.next (s.request addr tag kind g) : Out) = .next (s.concludes q addr kind tag r) := by
  rw [State.request_listens h, hg]
  rfl

/-! ### The checks -/

theorem Part.takesJobs_iff : c.takesJobs p = true ↔ (c.portCfg p).inPlan = true ∧
    ∃ a n, c.portAddr p = some a ∧ c.node? a = some n ∧ n.state ≠ .absent := by
  unfold Part.takesJobs
  rw [Bool.and_eq_true]
  refine and_congr_right fun _ => ?_
  cases ha : c.portAddr p with
  | none => simp
  | some a => cases hn : c.node? a <;> simp [hn]

theorem contOk_iff : contOk f = true ↔ ∀ q, f.cont = some q → q < 16 := by
  unfold contOk
  cases f.cont <;> simp

theorem destOk_all {rs : List RStep} : rs.all destOk = true ↔ ∀ r ∈ rs, ∀ n, r.dest = .slot n → n < 960 := by
  rw [List.all_eq_true]
  refine forall₂_congr fun r _ => ?_
  unfold destOk
  cases r.dest <;> simp

theorem expectOk_all {rs : List RStep} :
    rs.all expectOk = true ↔ ∀ r ∈ rs, ∀ x, r.expect = some x → idOk x = true := by
  rw [List.all_eq_true]
  refine forall₂_congr fun r _ => ?_
  unfold expectOk
  cases r.expect <;> simp

theorem Part.unknownStep_none {ds : List DStep} (h : ∀ d ∈ ds, c.findId d.id ≠ none) : c.unknownStep ds = none := by
  unfold Part.unknownStep
  rw [Option.map_eq_none_iff, List.findIdx?_eq_none_iff]
  intro d hd
  simpa [← Option.not_isSome] using Option.isSome_iff_ne_none.2 (h d hd)

/-- The step named is the first of an ID that no record carries (R87). -/
theorem Part.unknownStep_first {ds : List DStep} {i : Nat} {d : DStep} (hd : ds[i]? = some d) (hno : c.findId d.id = none)
    (hbefore : ∀ k e, k < i → ds[k]? = some e → c.findId e.id ≠ none) : c.unknownStep ds = some (i + 1) := by
  obtain ⟨hi, rfl⟩ := List.getElem?_eq_some_iff.1 hd
  unfold Part.unknownStep
  rw [Option.map_eq_some_iff]
  refine ⟨i, List.findIdx?_eq_some_iff_getElem.2 ⟨hi, by simp [hno], fun k hk => ?_⟩, rfl⟩
  simpa using hbefore k _ hk (List.getElem?_eq_getElem (hk.trans hi))

/-- The checks that DELIVER and RETURN end with, in their order (R87, R88). -/
theorem State.takeJob_refused (s : State) (p : Nat) (k : JobKind) (steps : List Step) (f : JobFlags) (res : Result) :
    (contOk f = false → s.takeJob p k steps f res = s.refuse .badIndex) ∧
    (contOk f = true → 16 ≤ Store.lowestFree s.part.jobs.jobs 0 → s.takeJob p k steps f res = s.refuse .noJobSpace) ∧
    (contOk f = true → Store.lowestFree s.part.jobs.jobs 0 < 16 → 4 ≤ s.part.jobsAt p →
      s.takeJob p k steps f res = s.refuse .portQueueFull) := by
  unfold State.takeJob State.need Part.freeJob
  refine ⟨fun hc => by simp [hc], fun hc hfull => ?_, fun hc hfree hfull => ?_⟩
  · simp [hc, Nat.not_lt.2 hfull]
  · simp [hc, hfree, Nat.not_lt.2 hfull]

/-- A request that comes to those checks is refused by the first that fails. -/
theorem State.takeJob_ends {i : Instr} {tag kind : Nat} {g : State → State × Rsp} (hl : s.listens = true)
    (hx : exec i s = .next (s.request 0 tag kind g)) (hg : g s.heard = s.heard.takeJob p k steps f res) :
    (¬(∀ q, f.cont = some q → q < 16) → exec i s = .next (s.refuses kind tag .badIndex)) ∧
    ((∀ q, f.cont = some q → q < 16) → 16 ≤ Store.lowestFree s.part.jobs.jobs 0 →
      exec i s = .next (s.refuses kind tag .noJobSpace)) ∧
    ((∀ q, f.cont = some q → q < 16) → Store.lowestFree s.part.jobs.jobs 0 < 16 → 4 ≤ s.part.jobsAt p →
      exec i s = .next (s.refuses kind tag .portQueueFull)) := by
  obtain ⟨hbad, hfull, hqueue⟩ := s.heard.takeJob_refused p k steps f res
  rw [hx]
  exact ⟨fun h => State.request_refused hl (hg.trans (hbad (Bool.eq_false_iff.2 fun e => h (contOk_iff.1 e)))),
    fun h h' => State.request_refused hl (hg.trans (hfull (contOk_iff.2 h) h')),
    fun h h' h'' => State.request_refused hl (hg.trans (hqueue (contOk_iff.2 h) h' h''))⟩

theorem State.takeJob_taken (hc : contOk f = true) (hfree : Store.lowestFree s.part.jobs.jobs 0 < 16)
    (hroom : s.part.jobsAt p < 4) : s.takeJob p k steps f res =
      ({ s with part := s.part.addJob (Store.lowestFree s.part.jobs.jobs 0) p k steps f },
        ⟨res, s.part.expressMissing p f, .number (Store.lowestFree s.part.jobs.jobs 0)⟩) := by
  unfold State.takeJob State.need Part.freeJob
  simp [hc, hfree, hroom]

/-! ### The steps -/

theorem durationField_eq (d : Nat) : durationField d = min d 1023 := by
  unfold durationField clampTo
  omega

theorem deliverySteps_eq (ds : List DStep) : deliverySteps ds =
    (ds.map fun d => StepWork.deliver d.id (min d.d 1023)).map fun x => ⟨x, .pending, none, none, none, none⟩ := by
  simp [deliverySteps, Step.new, durationField_eq]

theorem returnSteps_eq (rs : List RStep) : returnSteps rs =
    (rs.map fun r => StepWork.ret r.dest r.expect).map fun x => ⟨x, .pending, none, none, none, none⟩ := by
  simp [returnSteps, Step.new]

end Sys2Proof.Machine
end

section
open Sys2Proof Sys2Proof.Machine

/-- Settles O25: the checks of both requests stand one behind the other (`State.need`), and `State.takeJob` ends both. -/
theorem jobRequests : Obligations.JobRequests := by
  refine ⟨fun s tag p f hl hm hp hserved hcont hfree hroom => ⟨fun ds h1 h8 hds => ?_, fun rs h1 h8 hdir hrs => ?_⟩,
    fun s tag p f ds rs hl hm => ?_⟩
  · have hform : (ds.all fun d => idOk d.id) = true := List.all_eq_true.2 fun d hd => (hds d hd).1
    have hknown := Part.unknownStep_none fun d hd => (hds d hd).2
    have hclamp : (ds.any fun d => 1023 < d.d) = true ↔ ∃ d ∈ ds, 1023 < d.d := by simp
    refine State.request_answered hl ?_
    simp only [State.inService, State.need, State.heard_mode, State.heard_part, hm, h1, h8, hp, hserved, hform, hknown,
      if_true, and_self, decide_true]
    refine (State.takeJob_taken (s := s.heard) (contOk_iff.2 hcont) hfree hroom).trans ?_
    rw [deliverySteps_eq]
    simp only [hclamp]
    rfl
  · have hdest : rs.all destOk = true := destOk_all.2 fun r hr => (hrs r hr).1
    have hexpect : rs.all expectOk = true := expectOk_all.2 fun r hr => (hrs r hr).2
    refine State.request_answered hl ?_
    simp only [State.inService, State.need, State.heard_mode, State.heard_part, hm, h1, h8, hp, hserved, hdir, hdest,
      hexpect, if_true, and_self, decide_true]
    refine (State.takeJob_taken (s := s.heard) (contOk_iff.2 hcont) hfree hroom).trans ?_
    rw [returnSteps_eq]
    rfl
  intro deliver returns counted served formed slots expects cont free last
  have hserved : s.part.takesJobs p = true ↔ served := Part.takesJobs_iff
  have hformed : (ds.all fun d => idOk d.id) = true ↔ formed := List.all_eq_true
  have hslots : rs.all destOk = true ↔ slots := destOk_all
  have hexpects : rs.all expectOk = true ↔ expects := expectOk_all
  have hfails : ∀ {b : Bool} {P : Prop}, (b = true ↔ P) → ¬P → b = false := fun h hno =>
    Bool.eq_false_iff.2 fun e => hno (h.1 e)
  refine ⟨hserved, fun (hn : ¬(1 ≤ ds.length ∧ ds.length ≤ 8)) => ?_,
    fun (hn : ¬(1 ≤ rs.length ∧ rs.length ≤ 8)) => ?_, fun hn => ⟨fun hp => ?_, fun hp hno => ?_, fun hp hyes =>
    ⟨fun hf => ?_, fun i d hf hd hno hbefore => ?_, fun hf hall => ?_⟩⟩,
    fun hn => ⟨fun hp => ?_, fun hp hno => ?_, fun hp hyes => ⟨fun hdir => ?_, fun hdir =>
    ⟨fun h => ?_, fun h h' => ?_, fun h h' => ?_⟩⟩⟩⟩
  · exact State.request_refused hl (by simp only [State.inService, State.need, State.heard_mode, hm, hn]; simp)
  · exact State.request_refused hl (by simp only [State.inService, State.need, State.heard_mode, hm, hn]; simp)
  · exact State.request_refused hl (by simp [State.inService, State.need, hm, hn.1, hn.2, Nat.not_lt.2 hp])
  · exact State.request_refused hl (by simp [State.inService, State.need, hm, hn.1, hn.2, hp, hfails hserved hno])
  · exact State.request_refused hl (by
      simp only [State.inService, State.need, State.heard_mode, State.heard_part, hm, hn.1, hn.2, hp, hserved.2 hyes,
        hfails hformed hf]
      simp)
  · exact State.request_answered hl (by
      simp only [State.inService, State.need, State.heard_mode, State.heard_part, hm, hn.1, hn.2, hp, hserved.2 hyes,
        hformed.2 hf, Part.unknownStep_first hd hno hbefore]
      rfl)
  · refine State.takeJob_ends (k := .deliver) (steps := deliverySteps ds)
      (res := if ds.any fun d => 1023 < d.d then .clamped else .ok) hl rfl ?_
    simp only [State.inService, State.need, State.heard_mode, State.heard_part, hm, hn.1, hn.2, hp, hserved.2 hyes,
      hformed.2 hf, Part.unknownStep_none hall]
    rfl
  · exact State.request_refused hl (by simp [State.inService, State.need, hm, hn.1, hn.2, Nat.not_lt.2 hp])
  · exact State.request_refused hl (by simp [State.inService, State.need, hm, hn.1, hn.2, hp, hfails hserved hno])
  · exact State.request_refused hl (by
      simp [State.inService, State.need, hm, hn.1, hn.2, hp, hserved.2 hyes, hdir])
  · exact State.request_refused hl (by
      simp only [State.inService, State.need, State.heard_mode, State.heard_part, hm, hn.1, hn.2, hp, hserved.2 hyes, hdir,
        hfails hslots h]
      simp)
  · exact State.request_refused hl (by
      simp only [State.inService, State.need, State.heard_mode, State.heard_part, hm, hn.1, hn.2, hp, hserved.2 hyes, hdir,
        hslots.2 h, hfails hexpects h']
      simp)
  · refine State.takeJob_ends (k := .ret) (steps := returnSteps rs) (res := .ok) hl rfl ?_
    simp only [State.inService, State.need, State.heard_mode, State.heard_part, hm, hn.1, hn.2, hp, hserved.2 hyes, hdir,
      hslots.2 h, hexpects.2 h']
    rfl
end

section
/-! SUPPORT. The activation of the head of a port's queue (R89, R101). -/

namespace Sys2Proof.Machine

variable {c d : Part} {p q j : Nat} {r : Job} {rest : List Nat}

/-- A port that can take the head of its queue (R89). -/
def Part.able (c : Part) (p : Nat) : Prop := c.ctl.mode = .normal ∧ (c.port p).masked = false ∧ c.suspended p = false ∧
  (c.port p).active = none

theorem Part.canActivate_iff : c.canActivate p = true ↔ c.able p := by
  simp [Part.canActivate, Part.able, and_assoc]

/-- A port that can activate a job and has one queued. -/
theorem Part.activates_iff : (c.canActivate p && !(c.port p).queue.isEmpty) = true ↔ c.able p ∧ (c.port p).queue ≠ [] := by
  rw [Bool.and_eq_true, Part.canActivate_iff]
  simp

theorem Part.activateOnce_none : c.activateOnce = none ↔ ∀ p < 8, c.able p → (c.port p).queue = [] := by
  unfold Part.activateOnce
  rw [Option.map_eq_none_iff, List.find?_eq_none]
  simp only [Part.activates_iff, List.mem_range, not_and, not_not]

theorem Part.activateOnce_first (hp : p < 8) (h : c.able p) (hq : (c.port p).queue ≠ [])
    (hbefore : ∀ q < p, c.able q → (c.port q).queue = []) : c.activateOnce = some (c.activateHead p) := by
  unfold Part.activateOnce
  rw [List.find?_range_eq_some.2 ⟨Part.activates_iff.2 ⟨h, hq⟩, List.mem_range.2 hp, fun q hq => ?_⟩]
  · rfl
  · rw [Bool.not_eq_true', Bool.eq_false_iff]
    exact fun hact => (Part.activates_iff.1 hact).2 (hbefore q hq (Part.activates_iff.1 hact).1)

theorem Part.activateHead_idle (h : ¬c.able p ∨ (c.port p).queue = []) : c.activateHead p = c := by
  unfold Part.activateHead
  split
  · rename_i j rest hq
    refine if_neg fun hcan => ?_
    exact h.elim (· (Part.canActivate_iff.1 hcan)) fun e => by simp [e] at hq
  · rfl

theorem Part.activateHead_able (h : c.able p) (hq : (c.port p).queue = j :: rest) : c.activateHead p = c.activate p j := by
  unfold Part.activateHead
  rw [hq]
  exact if_pos (Part.canActivate_iff.2 h)

/-- A job that becomes ACTIVE, as its port and its node are told (R89). -/
def Part.activated (c : Part) (p j : Nat) (r : Job) : Part :=
  ((c.putPort p { c.port p with queue := (c.port p).queue.drop 1, active := some j, idleSent := false }).updJob j fun r =>
    { r with active := true }).portOrder p (.portJob true j r.kind)

/-- A job that runs is signalled by its kind (R89, R101). -/
theorem Part.activate_runs (hr : c.job? j = some r) (hkind : r.kind = .deliver ∨ (c.portCfg p).directed = true) :
    c.activate p j = (c.activated p j r).signal (if r.kind = .deliver then .attempt p else .handle p) := by
  unfold Part.activate Part.activated
  rw [hr]
  dsimp only
  cases hk : r.kind with
  | deliver => rfl
  | ret =>
    rw [if_neg fun hauto => hkind.elim (by simp [hk]) (by simp [hauto.2])]
    rfl

/-- A RETURN job on an AUTO port ends CANCELLED in place of its activation (R89). -/
theorem Part.activate_auto (hr : c.job? j = some r) (hkind : r.kind = .ret) (hauto : (c.portCfg p).directed = false) :
    c.activate p j = c.endJob j .cancelled := by
  unfold Part.activate
  rw [hr]
  exact if_pos ⟨hkind, hauto⟩

theorem Part.signal_work_congr (g : Sig) (h : d.work = c.work) : (d.signal g).work = (c.signal g).work := by
  unfold Part.signal
  rw [h]
  split
  · exact h
  · rfl

/-- What becomes of a port and of its job as the job becomes ACTIVE (R89). -/
theorem Part.activated_spec (hs : c.sound) (hr : c.job? j = some r) (hq : (c.port p).queue = j :: rest) :
    (c.activated p j r).port p = { c.port p with queue := rest, active := some j, idleSent := false } ∧
    (c.activated p j r).job? j = some { r with active := true } ∧ (c.activated p j r).out = c.out ∧
    (c.activated p j r).work = c.work ∧ ∀ a n, c.portAddr p = some a → (c.planOf a).kind ≠ .none → c.node? a = some n →
      (c.activated p j r).node? a = some { n with queue := n.queue ++ [⟨.portJob true j r.kind, none⟩] } := by
  obtain ⟨c1, hc1⟩ : ∃ c1, c1 = c.putPort p { c.port p with
      queue := (c.port p).queue.drop 1, active := some j, idleSent := false } := ⟨_, rfl⟩
  have hupd : c1.updJob j (fun r => { r with active := true }) = c1.putJob j { r with active := true } :=
    Part.updJob_eq _ (by rw [hc1]; exact hr)
  have heq : c.activated p j r = (c1.putJob j { r with active := true }).portOrder p (.portJob true j r.kind) := by
    unfold Part.activated
    rw [← hc1, hupd]
  obtain ⟨u, hu⟩ := Part.portOrder_eq (c := c1.putJob j { r with active := true }) p (.portJob true j r.kind)
  refine ⟨?_, ?_, ?_, ?_, fun a n ha hplan hn => ?_⟩
  · have hport : c1.port p = { c.port p with queue := rest, active := some j, idleSent := false } := by
      rw [hc1, Part.putPort_port_eq hs, if_pos rfl, hq]
      rfl
    rw [heq, hu]
    exact hport
  · rw [heq, hu]
    exact (Part.putJob_job _).trans (if_pos rfl)
  · rw [heq, hu, hc1]
    rfl
  · rw [heq, hu, hc1]
    rfl
  · rw [heq, hc1]
    exact Part.portOrder_node _ ha hplan hn

end Sys2Proof.Machine
end

section
open Sys2Proof Sys2Proof.Machine

/-- Settles O26: the three requests behind their tests, the activation by its cases (`activate_runs`, `activate_auto`), and the
end of a job with each of its successors (`JobEnds`). -/
theorem portAndJobRequests : Obligations.PortAndJobRequests := by
  refine ⟨fun s tag n hl hm => ⟨fun r hn hr => ?_, fun hn hr => ?_, fun hn => ?_, fun hn => ?_, fun hn => ?_, fun hn => ?_,
    fun hn => ?_⟩, fun c hs => ⟨Part.activateOnce_none, fun p hp ha hq hbefore => Part.activateOnce_first hp ha hq hbefore,
    fun p hp => ⟨Part.activateHead_idle, fun j rest r ha hq hr => ⟨fun hkind => ?_, fun hkind hauto hport => ?_⟩⟩⟩,
    fun c j r o hs hr => ?_⟩
  · exact State.request_accepted hl (by simp [State.notInStart, State.need, hm, hn, hr])
  · exact State.request_refused hl (by simp [State.notInStart, State.need, hm, hn, hr])
  · exact State.request_refused hl (by simp [State.notInStart, State.need, hm, Nat.not_lt.2 hn])
  · exact State.request_accepted hl (by simp [State.notInStart, State.need, hm, hn])
  · exact State.request_refused hl (by simp [State.notInStart, State.need, hm, Nat.not_lt.2 hn])
  · exact State.request_accepted hl (by
      simp only [State.notInStart, State.need, State.heard_mode, hm, hn, if_false, decide_true, if_true]
      rfl)
  · exact State.request_refused hl (by simp [State.notInStart, State.need, hm, Nat.not_lt.2 hn])
  · obtain ⟨hport, hjob, hout, hwork, hnode⟩ := Part.activated_spec hs hr hq
    rw [Part.activateHead_able ha hq, Part.activate_runs hr hkind]
    exact ⟨(Part.signal_port _).trans hport, (Part.signal_job _).trans hjob, (Part.signal_out ..).trans hout,
      Part.signal_work_congr _ hwork, fun a n haddr hplan hn =>
        (Part.node_of_bus (Part.signal_bus ..) a).trans (hnode a n haddr hplan hn)⟩
  · have hends := Part.endJob_unchained (out := .cancelled) hs hr (.inr rfl)
    have hidle : (c.port p).active = none := ha.2.2.2
    obtain ⟨l, hout, -⟩ := hends.said
    rw [Part.activateHead_able ha hq, Part.activate_auto hr hkind hauto]
    rw [hkind] at hout
    have hend := hends.port
    rw [hport] at hend hout
    refine ⟨hends.gone, ?_, ?_, _, by rw [hout]; exact List.mem_append_right _ (List.mem_singleton_self _)⟩
    · rw [hend, hidle]
      rfl
    · rw [hend, hq]
      simp
  intro d pt left
  obtain ⟨queue, more, hsome⟩ := Part.endJob_ends_somehow hs hr o
  have htold : ∀ {queue more}, c.JobEnds d j r o queue more → (d.port r.port).queue = queue ∧ ∃ (l : List Subject) (n : Nat),
      d.out = c.out ++ l ++ Subject.jobEnded j r.port r.kind o n :: more := by
    intro queue more h
    obtain ⟨l, hout, -⟩ := h.said
    exact ⟨by rw [h.port], l, _, hout⟩
  refine ⟨hsome.gone, by rw [hsome.port], fun hact hidle a n ha hplan hn => Part.endJob_node hr hact hidle ha hplan hn o,
    fun hno => htold (Part.endJob_unchained hs hr hno), fun q hq ho => ⟨fun b hne hb hport hqueued => ?_, fun hno => ?_⟩⟩
  · exact htold (Part.endJob_chained hs hr hq ho hne hb hport hqueued)
  · exact htold (Part.endJob_broken hs hr hq ho hno)
end

section
/-! SUPPORT. The cancellation of a job (R90, R91): its waiting steps end at once, and a RESERVED one hands back its move, its
reticle and the READY it served. -/

namespace Sys2Proof.Machine

variable {c d : Part} {j k : Nat} {r : Job} {st : Step} {m : Move}

/-! ### The steps -/

/-- A step that no move serves yet (R91, R99). -/
def StepState.unserved (s : StepState) : Bool := s = .pending || s = .waiting

theorem Step.cut_unserved (st : Step) (res : StepResult) : st.cut StepState.unserved res =
    if st.state = .pending ∨ st.state = .waiting then st.endedAs res else st := by
  unfold Step.cut StepState.unserved
  cases hs : st.state <;> simp

theorem Step.cut_unserved_state (st : Step) (res : StepResult) : (st.cut StepState.unserved res).state = .ended ↔
    st.state = .pending ∨ st.state = .waiting ∨ st.state = .ended := by
  rw [Step.cut_unserved]
  unfold Step.endedAs
  cases hs : st.state <;> simp [hs]

/-- A job that only its unserved steps kept open is finished without them. -/
theorem Job.cut_unserved_finished {res : StepResult} : (r.cut StepState.unserved res).finished = true ↔
    ∀ st ∈ r.steps, st.state = .pending ∨ st.state = .waiting ∨ st.state = .ended := by
  rw [Job.finished_iff]
  simp [Job.cut, Step.cut_unserved_state]

/-- Only a step that has ended has a result (R86). -/
def Job.plain (r : Job) : Prop := ∀ st ∈ r.steps, st.state ≠ .ended → st.result = none

theorem Job.plain.cut (h : r.plain) (sel : StepState → Bool) (res : StepResult) : (r.cut sel res).plain := by
  intro st hst hopen
  obtain ⟨x, hx, rfl⟩ := List.mem_map.1 hst
  unfold Step.cut at hopen ⊢
  split at hopen
  · exact absurd rfl hopen
  · rw [if_neg ‹_›]
    exact h x hx hopen

theorem Job.plain.withEnded (h : r.plain) (k : Nat) (st : Step) (res : StepResult) : (r.withEnded k st res).plain := by
  intro x hx hopen
  rcases List.mem_or_eq_of_mem_set hx with hx | rfl
  · exact h x hx hopen
  · exact absurd rfl hopen

/-- A step that ends otherwise than DONE is not counted. -/
theorem Job.done_withEnded {res : StepResult} (hst : r.steps[k]? = some st) (hno : st.result = none) (hres : res ≠ .done) :
    (r.withEnded k st res).done = r.done := by
  obtain ⟨hk, rfl⟩ := List.getElem?_eq_some_iff.1 hst
  unfold Job.done Job.withEnded
  simp only [← List.countP_eq_length_filter]
  rw [List.countP_set hk]
  simp [Step.endedAs, hno, hres]

/-! ### How the job goes on -/

theorem Part.afterStep_gone (h : c.job? j = none) (failed : Bool) : c.afterStep j failed = c := by
  unfold Part.afterStep
  rw [h]

/-- A job under cancellation ends with the last of its steps (R91). -/
theorem Part.afterStep_cancel (h : c.job? j = some r) (hcancel : r.cancel = true) (failed : Bool) :
    c.afterStep j failed = if r.finished then c.endJob j .cancelled else c := by
  unfold Part.afterStep
  rw [h]
  exact if_pos hcancel

/-- `d` is what `c` becomes as job `j` of record `r` ends CANCELLED: told behind the ends of its steps, and gone from the pool
and from its port (R90). -/
structure Part.Cancelled (c d : Part) (j : Nat) (r : Job) : Prop where
  gone : d.job? j = none
  active : (d.port r.port).active ≠ some j
  queue : j ∉ (d.port r.port).queue
  said : ∃ a : List Subject, d.out = c.out ++ a ++ [Subject.jobEnded j r.port r.kind .cancelled r.done] ∧
    ∀ s ∈ a, ∃ k x, s = Subject.stepResult j k .cancelled x

/-- A job ends CANCELLED from the blocks `d` that `c` has become as steps of it ended. -/
theorem Part.endJob_cancelled (hs : d.sound) (h : d.job? j = some r) (hplain : r.plain)
    (hout : ∃ a : List Subject, d.out = c.out ++ a ∧ ∀ s ∈ a, ∃ k x, s = Subject.stepResult j k .cancelled x) :
    c.Cancelled (d.endJob j .cancelled) j r := by
  have hends := Part.endJob_unchained (out := .cancelled) hs h (.inr rfl)
  refine ⟨hends.gone, ?_, ?_, ?_⟩
  · rw [hends.port]
    dsimp only
    split
    · nofun
    · assumption
  · rw [hends.port]
    simp
  · obtain ⟨a, hd, ha⟩ := hout
    obtain ⟨a', hend, ha'⟩ := hends.said
    rw [Job.done_cut (res := .cancelled) _ nofun hplain, hd] at hend
    exact ⟨a ++ a', by rw [hend]; simp only [List.append_assoc], fun s hs => (List.mem_append.1 hs).elim (ha s) (ha' s)⟩

/-- The job's record as `c` has it names the same port and kind, and as many steps DONE. -/
theorem Part.Cancelled.of_record {q : Job} (h : c.Cancelled d j q) (hport : q.port = r.port) (hkind : q.kind = r.kind)
    (hdone : q.done = r.done) : c.Cancelled d j r := by
  obtain ⟨hgone, hactive, hqueue, hsaid⟩ := h
  rw [hport] at hactive hqueue hsaid
  rw [hkind, hdone] at hsaid
  exact ⟨hgone, hactive, hqueue, hsaid⟩

theorem Part.endJob_mv (out : JobOutcome) : (c.endJob j out).mv = c.mv := by
  obtain ⟨_, _, _, _, _, h⟩ := (stepSide_jobOnly c).endJob (j := j) (out := out) (.refl c)
  rw [h]

theorem Part.endJob_window (hs : c.sound) (h : c.job? j = some r) (out : JobOutcome) :
    ((c.endJob j out).port r.port).window = (c.port r.port).window := by
  obtain ⟨queue, more, hends⟩ := Part.endJob_ends_somehow hs h out
  rw [hends.port]

/-! ### The mark -/

/-- A job that has taken the cancel mark (R91). -/
def Job.cancelling (r : Job) : Job := ({ r with cancel := true } : Job).cut StepState.unserved .cancelled

/-- The blocks with the cancel mark taken, a RESERVED step apart (R91). -/
def Part.cancelMarked (c : Part) (j : Nat) : Part :=
  (c.updJob j fun r => { r with cancel := true }).markSteps j StepState.unserved .cancelled

theorem Part.cancelMarked_marked (h : c.job? j = some r) : c.Marked (c.cancelMarked j) j r.cancelling .cancelled := by
  have hmark := Part.updJob_marked (res := .cancelled) (fun r => { r with cancel := true }) h
  exact hmark.trans (Part.markSteps_marked _ hmark.self)

theorem Part.cancelMarked_sound (hs : c.sound) (j : Nat) : (c.cancelMarked j).sound :=
  kept_sound.markSteps (kept_sound.updJob (fun _ => rfl) hs)

theorem Part.Marked.mv_eq {res : StepResult} (h : c.Marked d j r res) : d.mv = c.mv := by
  obtain ⟨q, a, rfl, -⟩ := h.eq
  rfl

theorem Part.Marked.inv_eq {res : StepResult} (h : c.Marked d j r res) : d.inv = c.inv := by
  obtain ⟨q, a, rfl, -⟩ := h.eq
  rfl

theorem Part.Marked.port_eq {res : StepResult} (h : c.Marked d j r res) (p : Nat) : d.port p = c.port p := by
  obtain ⟨q, a, rfl, -⟩ := h.eq
  rfl

theorem Part.Marked.said {res : StepResult} (h : c.Marked d j r res) :
    ∃ a : List Subject, d.out = c.out ++ a ∧ ∀ s ∈ a, ∃ k x, s = Subject.stepResult j k res x := by
  obtain ⟨q, a, rfl, ha⟩ := h.eq
  exact ⟨a, rfl, ha⟩

theorem Job.cancelling_step {i : Nat} :
    r.cancelling.steps[i]? = (r.steps[i]?).map (·.cut StepState.unserved .cancelled) := List.getElem?_map ..

theorem Job.plain.cancelling (h : r.plain) : r.cancelling.plain := Job.plain.cut (r := { r with cancel := true }) h _ _

theorem Job.plain.done_cancelling (h : r.plain) : r.cancelling.done = r.done :=
  Job.done_cut (r := { r with cancel := true }) _ nofun h

/-- With no step RESERVED the job only takes the mark (R91). -/
theorem Part.cancelActive_kept (hmark : r.cancel = false) (hno : ∀ k st, r.head = some (k, st) → st.state ≠ .reserved) :
    c.cancelActive j r = (c.cancelMarked j).afterStep j false := by
  unfold Part.cancelActive
  rw [if_neg (Bool.eq_false_iff.1 hmark)]
  dsimp only
  split
  · rename_i k st hhead
    rw [if_neg (hno k st hhead)]
    rfl
  · rfl

/-- A RESERVED step's move is cancelled with it (R91). -/
theorem Part.cancelActive_reserved (hmark : r.cancel = false) (hhead : r.head = some (k, st)) (hst : st.state = .reserved)
    (hm : st.move = some m.num) (hmove : (c.cancelMarked j).move? m.num = some m) :
    c.cancelActive j r = ((c.cancelMarked j).cancelMove m .cancelled).afterStep j false := by
  have hfound : st.move.bind (c.cancelMarked j).move? = some m := by rw [hm]; exact hmove
  unfold Part.cancelActive
  rw [if_neg (Bool.eq_false_iff.1 hmark)]
  dsimp only
  rw [hhead]
  dsimp only
  rw [if_pos hst]
  unfold Part.cancelMarked StepState.unserved at hfound
  rw [hfound]
  rfl

/-- A job with a step under way runs on to that step's end (R91). -/
theorem Part.cancelActive_underway (hr : c.job? j = some r) (hmark : r.cancel = false) (hhead : r.head = some (k, st))
    (hst : st.state = .moving ∨ st.state = .presented) : c.cancelActive j r = c.cancelMarked j := by
  have hopen : ¬r.cancelling.finished = true := fun hfin => by
    have := Job.cut_unserved_finished.1 hfin st (List.mem_of_getElem? (Job.head_step hhead))
    rcases hst with e | e <;> simp [e] at this
  rw [Part.cancelActive_kept hmark fun k' st' h' => ?_, Part.afterStep_cancel (Part.cancelMarked_marked hr).self rfl,
    if_neg hopen]
  obtain ⟨rfl, rfl⟩ := Prod.mk.inj (Option.some.inj (h'.symm.trans hhead))
  rcases hst with e | e <;> simp [e]

/-- A job whose steps no move serves ends at once (R91). -/
theorem Part.cancelActive_unserved (hr : c.job? j = some r) (hmark : r.cancel = false)
    (hall : ∀ st ∈ r.steps, st.state = .pending ∨ st.state = .waiting ∨ st.state = .ended) :
    c.cancelActive j r = (c.cancelMarked j).endJob j .cancelled := by
  have hfin : r.cancelling.finished = true := Job.cut_unserved_finished.2 hall
  rw [Part.cancelActive_kept hmark fun k st h e => ?_, Part.afterStep_cancel (Part.cancelMarked_marked hr).self rfl,
    if_pos hfin]
  have := hall st (List.mem_of_getElem? (Job.head_step h))
  simp [e] at this

/-! ### A reserved step -/

/-- The blocks with a delivery's move taken back, its reticle released and the READY it served restored, as its step is about
to end (R91, R97). -/
def Part.handedBack (c : Part) (m : Move) (p : Nat) : Part := ((c.released m).removeMove m).restoreReady p m.ready

theorem Part.cancelMove_eq (ho : m.owner = .step j k) (hkind : m.kind ≠ .cross) (h : c.job? j = some r)
    (hdeliver : r.kind = .deliver) :
    c.cancelMove m .cancelled = (c.handedBack m r.port).endStep j k .cancelled m.reticle false := by
  obtain ⟨w, q, hrel⟩ := c.released_eq m
  obtain ⟨v, hrem⟩ := Part.removeMove_eq (c := c.released m) m
  have hjob : ((c.released m).removeMove m).job? j = some r := by
    rw [hrem, hrel]
    exact h
  have heq : c.cancelMove m .cancelled = ((c.released m).removeMove m).stepMoveEnd m j k (.cancelled .cancelled) := by
    have hend : c.cancelMove m .cancelled = (c.released m).endMove m (.cancelled .cancelled) := rfl
    rw [hend]
    unfold Part.endMove
    rw [ho]
  rw [heq]
  unfold Part.stepMoveEnd
  rw [hjob]
  dsimp only
  rw [hdeliver]
  dsimp only
  rw [if_neg nofun, if_neg hkind]
  rfl

theorem Part.handedBack_spec (m : Move) (p : Nat) : (c.handedBack m p).jobs.jobs = c.jobs.jobs ∧
    (c.handedBack m p).out = c.out := by
  obtain ⟨w, q, hrel⟩ := c.released_eq m
  obtain ⟨v, hrem⟩ := Part.removeMove_eq (c := c.released m) m
  obtain ⟨ports, u, hports⟩ := (portSide_portOnly ((c.released m).removeMove m)).restoreReady (p := p) (time := m.ready)
    (.refl _)
  unfold Part.handedBack
  rw [hports, hrem, hrel]
  exact ⟨rfl, rfl⟩

theorem Part.released_sound (hs : c.sound) (m : Move) : (c.released m).sound := by
  unfold Part.released
  split
  · exact kept_sound.release hs
  · exact hs

theorem Part.handedBack_sound (hs : c.sound) (m : Move) (p : Nat) : (c.handedBack m p).sound :=
  kept_sound.restoreReady (kept_sound.removeMove (Part.released_sound hs m))

/-- A READY restored stands at the head of a window with room, its acknowledgment's time kept (R97). -/
theorem Part.restoreReady_window (hs : c.sound) {p t : Nat} (hroom : (c.port p).window.length < 2) :
    ((c.restoreReady p (some t)).port p).window = ⟨.ready, t⟩ :: (c.port p).window := by
  unfold Part.restoreReady
  dsimp only
  rw [if_pos hroom, Part.signal_port, Part.putPort_port_eq hs, if_pos rfl]

theorem Part.handedBack_window (hs : c.sound) {p t : Nat} (ht : m.ready = some t) (hroom : (c.port p).window.length < 2) :
    ((c.handedBack m p).port p).window = ⟨.ready, t⟩ :: (c.port p).window := by
  obtain ⟨w, q, hrel⟩ := c.released_eq m
  obtain ⟨v, hrem⟩ := Part.removeMove_eq (c := c.released m) m
  have hport : ((c.released m).removeMove m).port p = c.port p := by
    rw [hrem, hrel]
    rfl
  unfold Part.handedBack
  rw [ht, Part.restoreReady_window (kept_sound.removeMove (Part.released_sound hs m)) (hport ▸ hroom), hport]

/-- The blocks with a delivery's move taken back and its step ended (R91). -/
def Part.stepHandedBack (c : Part) (m : Move) (p j k : Nat) : Part := (c.handedBack m p).markStep j k .cancelled m.reticle

/-- A job of a RESERVED step that nothing else keeps open ends as that step hands its move back (R91). -/
theorem Part.cancelMove_ends (hs : c.sound) (h : c.job? j = some r) (hcancel : r.cancel = true) (hdeliver : r.kind = .deliver)
    (hst : r.steps[k]? = some st) (hopen : st.state ≠ .ended)
    (hothers : ∀ i x, i ≠ k → r.steps[i]? = some x → x.state = .ended) (ho : m.owner = .step j k) (hkind : m.kind ≠ .cross) :
    c.cancelMove m .cancelled = (c.stepHandedBack m r.port j k).endJob j .cancelled ∧ (c.stepHandedBack m r.port j k).sound ∧
      (c.handedBack m r.port).Marked (c.stepHandedBack m r.port j k) j (r.withEnded k st .cancelled) .cancelled := by
  have hjob : (c.handedBack m r.port).job? j = some r := (Part.job_of_jobs (c.handedBack_spec m r.port).1 j).trans h
  have hmarked := Part.markStep_marked (res := .cancelled) m.reticle hjob hst hopen
  have hfin : (r.withEnded k st .cancelled).finished = true := (Job.withEnded_finished _ hst).2 hothers
  refine ⟨?_, kept_sound.markStep (Part.handedBack_sound hs m _), hmarked⟩
  rw [Part.cancelMove_eq ho hkind h hdeliver]
  exact (Part.afterStep_cancel hmarked.self hcancel false).trans (if_pos hfin)

end Sys2Proof.Machine
end

section
open Sys2Proof Sys2Proof.Machine

/-- Settles O27, by the state of the job and of its head step: a QUEUED job ends (`endJob_unchained`); an ACTIVE one takes the
mark (`Marked`), and a RESERVED step hands its move back before it ends (`handedBack`). -/
theorem jobCancelled : Obligations.JobCancelled := by
  intro c j r hs hr (hplain : r.plain) d cut ends
  have hcut : r.cancelling = { r with cancel := true, steps := r.steps.map cut } :=
    congrArg (fun l => { r with cancel := true, steps := l }) (List.map_congr_left fun st _ => Step.cut_unserved st _)
  have hmarked := Part.cancelMarked_marked hr
  have hsound := Part.cancelMarked_sound hs j
  refine ⟨fun hqueued => ?_, fun hact hmark => (if_pos hact).trans (if_pos hmark), fun hact hmark => ?_⟩
  · have hd : d = c.endJob j .cancelled := if_neg (by simp [hqueued])
    have hend : c.Cancelled d j r := hd ▸ Part.endJob_cancelled (c := c) hs hr hplain ⟨[], by simp, by simp⟩
    refine ⟨hend.gone, hend.queue, hd ▸ Part.endJob_mv _, hend.said, fun i hi => ?_⟩
    rw [hd]
    exact (Part.endJob_unchained (out := .cancelled) hs hr (.inr rfl)).others i hi
  have hd : d = c.cancelActive j r := if_pos hact
  refine ⟨fun k st hhead hst => ?_, fun hall => ?_, fun k st m n q l hkind hhead hst hm hothers hmove hgranted howner hdel hn
    hq hqs hplace hl => ?_⟩
  · rw [hd, Part.cancelActive_underway hr hmark hhead hst, ← hcut]
    exact ⟨hmarked.self, hmarked.mv_eq, hmarked.port_eq _⟩
  · have hends : d = (c.cancelMarked j).endJob j .cancelled := hd.trans (Part.cancelActive_unserved hr hmark hall)
    have hend : c.Cancelled d j r := hends ▸ (Part.endJob_cancelled hsound hmarked.self hplain.cancelling
      hmarked.said).of_record rfl rfl hplain.done_cancelling
    exact ⟨hend.gone, hend.active, hend.queue, by rw [hends, Part.endJob_mv, hmarked.mv_eq], hend.said⟩
  · have hopen : st.state ≠ .ended := Job.head_open hhead
    have hnone : st.result = none := hplain st (List.mem_of_getElem? (Job.head_step hhead)) hopen
    have hstep : r.cancelling.steps[k]? = some st := by
      rw [Job.cancelling_step, Job.head_step hhead, Option.map_some, Step.cut_unserved, if_neg (by simp [hst])]
    have hended : ∀ i x, i ≠ k → r.cancelling.steps[i]? = some x → x.state = .ended := fun i x hi hx => by
      rw [Job.cancelling_step, Option.map_eq_some_iff] at hx
      obtain ⟨y, hy, rfl⟩ := hx
      exact (Step.cut_unserved_state y _).2 (hothers i y hi hy)
    obtain ⟨hcancel, hesound, hmark1⟩ := Part.cancelMove_ends hsound hmarked.self rfl hkind hstep hopen hended howner
      (by simp [hdel])
    have hends : d = (c.cancelMarked j).cancelMove m .cancelled := by
      rw [hd, Part.cancelActive_reserved hmark hhead hst hm (by unfold Part.move?; rw [hmarked.mv_eq]; exact hmove), hcancel,
        Part.afterStep_gone (Part.endJob_ends hesound hmark1.self .cancelled).1]
    have hout : ∃ a : List Subject, ((c.cancelMarked j).stepHandedBack m r.port j k).out = c.out ++ a ∧
        ∀ s ∈ a, ∃ k x, s = Subject.stepResult j k .cancelled x := by
      obtain ⟨a, hout, ha⟩ := hmarked.said
      obtain ⟨a', hout', ha'⟩ := hmark1.said
      refine ⟨a ++ a', hout'.trans ?_, fun s hs => (List.mem_append.1 hs).elim (ha s) (ha' s)⟩
      rw [((c.cancelMarked j).handedBack_spec m r.cancelling.port).2, hout, List.append_assoc]
    have hend : c.Cancelled d j r := by
      rw [hends, hcancel]
      refine (Part.endJob_cancelled hesound hmark1.self (hplain.cancelling.withEnded k st .cancelled) hout).of_record rfl rfl ?_
      rw [Job.done_withEnded hstep hnone (by decide), hplain.done_cancelling]
    obtain ⟨hmoves, hrecs⟩ := (c.cancelMarked j).cancelMove_spec m .cancelled
    refine ⟨hend.gone, ?_, ?_, fun t ht hroom => ?_, hend.said⟩
    · rw [hends, hmoves, hmarked.mv_eq]
    · rw [hends, hrecs, Part.released_rec hn ((Part.rec_of_inv hmarked.inv_eq n).trans hq) hqs hplace, if_pos hl]
    · have hport := hmarked.port_eq r.cancelling.port
      rw [hends, hcancel]
      refine (Part.endJob_window hesound hmark1.self .cancelled).trans ?_
      rw [hmark1.port_eq]
      refine (Part.handedBack_window hsound ht (hport ▸ hroom)).trans ?_
      rw [hport]
      rfl
end

section
/-! SUPPORT. Service requests of a port's scanner (R82, R83, R99, R101): which are acknowledged, and what each does. -/

namespace Sys2Proof.Machine

variable {c d : Part} {p q j k n : Nat} {r : Job} {st : Step}

/-! ### The acknowledgment -/

/-- A port that acknowledges the requests that ask no more of it (R82). -/
def Part.answers (c : Part) (p : Nat) : Prop := (c.portCfg p).inPlan = true ∧ c.ctl.mode.admits = true ∧
  (c.port p).masked = false ∧ (c.port p).window.length < 2

theorem Part.acknowledges_other {x : SvcReq} (hx : ∀ read kind, x ≠ .returnWaiting read kind) :
    c.acknowledges p x = true ↔ c.answers p := by
  unfold Part.acknowledges Part.answers
  cases x with
  | returnWaiting read kind => exact absurd rfl (hx read kind)
  | _ => simp [and_assoc]

theorem WinEntry.isReturn_iff (w : WinEntry) : w.isReturn = true ↔ ∃ read kind, w.kind = .returnWaiting read kind := by
  unfold WinEntry.isReturn
  cases w.kind <;> simp

theorem Part.acknowledges_return (read : Read) (kind : Nat) : c.acknowledges p (.returnWaiting read kind) = true ↔
    c.answers p ∧ (∀ e ∈ (c.port p).window, ∀ y i, e.kind ≠ .returnWaiting y i) ∧
      (∀ m ∈ c.mv.moves, m.src ≠ some (960 + p) ∧ m.dst ≠ some (960 + p)) ∧
      ∀ n r, (c.occ (960 + p)).resident = some n → c.rec? n = some r → r.state ≠ .presented ∧ r.state ≠ .withdrawing := by
  have hwindow : ((c.port p).window.any WinEntry.isReturn) = false ↔
      ∀ e ∈ (c.port p).window, ∀ y i, e.kind ≠ .returnWaiting y i := by
    simp [List.any_eq_false, WinEntry.isReturn_iff]
  have hmoves : (c.mv.moves.any fun m => m.src == some (960 + p) || m.dst == some (960 + p)) = false ↔
      ∀ m ∈ c.mv.moves, m.src ≠ some (960 + p) ∧ m.dst ≠ some (960 + p) := by
    simp [List.any_eq_false]
  have hoffer : ((c.occ (960 + p)).resident.any fun n => (c.rec? n).any fun r => r.state = .presented || r.state = .withdrawing) =
      false ↔ ∀ n r, (c.occ (960 + p)).resident = some n → c.rec? n = some r → r.state ≠ .presented ∧ r.state ≠ .withdrawing := by
    cases (c.occ (960 + p)).resident with
    | none => simp
    | some i =>
      constructor
      · rintro h _ r ⟨⟩ hr
        simpa [hr] using h
      · intro h
        cases hi : c.rec? i with
        | none => simp [hi]
        | some r => simpa [hi] using h i r rfl hi
  rw [← hwindow, ← hmoves, ← hoffer]
  unfold Part.acknowledges Part.answers posOf
  simp [and_assoc]

theorem Part.serviceRequest_ignored {x : SvcReq} (h : c.acknowledges p x = false) : c.serviceRequest p x = c := if_pos h

/-- A request joins its port's window (R82). -/
def Part.joins (c : Part) (p : Nat) (w : WinKind) : Part :=
  c.putPort p { c.port p with window := (c.port p).window ++ [⟨w, c.now⟩] }

theorem Part.joins_port (hs : c.sound) (w : WinKind) (y : Nat) : (c.joins p w).port y =
    if y = p then { c.port p with window := (c.port p).window ++ [⟨w, c.now⟩] } else c.port y :=
  Part.putPort_port_eq hs _

/-! ### READY -/

theorem Part.serviceRequest_ready (h : c.acknowledges p .ready = true) : c.serviceRequest p .ready =
    (((c.portOrder p (.ack .ready)).joins p .ready).signal (.attempt p)).tellReturns p :=
  if_neg (by simp [h])

/-- The returns of a pod are signalled, and nothing else is done (R101). -/
theorem Part.signalReturns_eq (q n : Nat) : ∃ w, c.signalReturns q n = { c with work := w } ∧ c.work ⊆ w ∧
    ∀ y < 8, y ≠ q → ∀ t, (c.port y).ret = some t → t.pod = .record n → Sig.handle y ∈ w := by
  have hupto : ∀ m, ∃ w, (c.each m fun c p => if p ≠ q ∧ (c.port p).ret.any fun t => decide (t.pod = Pod.record n)
      then c.signal (.handle p) else c) = { c with work := w } ∧ c.work ⊆ w ∧
      ∀ y < m, y ≠ q → ∀ t, (c.port y).ret = some t → t.pod = .record n → Sig.handle y ∈ w := by
    intro m
    induction m with
    | zero => exact ⟨c.work, rfl, List.Subset.refl _, fun y hy => absurd hy (Nat.not_lt_zero y)⟩
    | succ m ih =>
      obtain ⟨w, hw, hsub, hall⟩ := ih
      unfold Part.each at hw ⊢
      rw [List.range_succ, List.foldl_append, hw]
      dsimp only [List.foldl_cons, List.foldl_nil]
      split
      · obtain ⟨w', hw', hsub', hin⟩ := Part.signal_eq (c := { c with work := w }) (.handle m)
        refine ⟨w', hw', List.Subset.trans hsub hsub', fun y hy hne t ht hpod => ?_⟩
        rcases Nat.lt_succ_iff_lt_or_eq.1 hy with hy | rfl
        · exact hsub' (hall y hy hne t ht hpod)
        · exact hin
      · rename_i hno
        refine ⟨w, rfl, hsub, fun y hy hne t ht hpod => ?_⟩
        rcases Nat.lt_succ_iff_lt_or_eq.1 hy with hy | rfl
        · exact hall y hy hne t ht hpod
        · have hret : ({ c with work := w } : Part).port y = c.port y := rfl
          exact absurd ⟨hne, by rw [hret, ht]; simpa using hpod⟩ hno
  exact hupto 8

/-- The head step of a port's active delivery job waits for a record (R95). -/
theorem Part.awaits_of {b g : Nat} {x : RetId} {u : Nat} {rc : Rec} (hact : (c.port q).active = some b)
    (hjob : c.job? b = some r) (hhead : r.head = some (k, st)) (hwork : st.work = .deliver x u) (hst : st.state = .waiting)
    (hf : c.findId x = some (g, rc)) : c.awaits q = some g := by
  unfold Part.awaits
  rw [hact, Option.bind_some, hjob, Option.bind_some, hhead]
  dsimp only
  rw [hwork]
  dsimp only
  rw [if_pos hst, hf]
  rfl

theorem Part.tellReturns_eq (q : Nat) : ∃ w, c.tellReturns q = { c with work := w } ∧ c.work ⊆ w ∧
    ∀ n, c.awaits q = some n → ∀ y < 8, y ≠ q → ∀ t, (c.port y).ret = some t → t.pod = .record n → Sig.handle y ∈ w := by
  unfold Part.tellReturns
  split
  · rename_i n hn
    obtain ⟨w, hw, hsub, hall⟩ := c.signalReturns_eq q n
    refine ⟨w, hw, hsub, fun n' hn' => ?_⟩
    obtain rfl := Option.some.inj (hn.symm.trans hn')
    exact hall
  · rename_i hn
    exact ⟨c.work, rfl, List.Subset.refl _, fun n hn' => by rw [hn] at hn'; cases hn'⟩

/-! ### LAST_NEEDED -/

theorem Part.serviceRequest_lastNeeded (h : c.acknowledges p .lastNeeded = true) :
    c.serviceRequest p .lastNeeded = (c.portOrder p (.ack .lastNeeded)).lastNeeded p := if_neg (by simp [h])

/-- The record of a job that its port has ended early (R99). -/
def Job.ending (r : Job) : Job := ({ r with early := true } : Job).cut StepState.unserved .skippedEarlyEnd

/-- The blocks with the early end taken, how the job goes on apart (R99). -/
def Part.earlyMarked (c : Part) (j : Nat) : Part :=
  (c.updJob j fun r => { r with early := true }).markSteps j StepState.unserved .skippedEarlyEnd

theorem Part.earlyMarked_marked (h : c.job? j = some r) : c.Marked (c.earlyMarked j) j r.ending .skippedEarlyEnd := by
  have hmark := Part.updJob_marked (res := .skippedEarlyEnd) (fun r => { r with early := true }) h
  exact hmark.trans (Part.markSteps_marked _ hmark.self)

theorem Part.earlyMarked_sound (hs : c.sound) (j : Nat) : (c.earlyMarked j).sound :=
  kept_sound.markSteps (kept_sound.updJob (fun _ => rfl) hs)

theorem Part.lastNeeded_served (hact : (c.port p).active = some j) (hjob : c.job? j = some r) (hkind : r.kind = .deliver)
    (hearly : r.early = false) : c.lastNeeded p = (c.earlyMarked j).afterStep j false := by
  unfold Part.lastNeeded
  rw [hact]
  dsimp only
  rw [hjob]
  exact if_pos ⟨hkind, hearly⟩

/-- LAST_NEEDED finds nothing to end: no active delivery, or one that ends early already (R99). -/
theorem Part.lastNeeded_idle (h : ∀ j r, (c.port p).active = some j → c.job? j = some r → r.kind = .ret ∨ r.early = true) :
    c.lastNeeded p = c := by
  unfold Part.lastNeeded
  split
  · rfl
  · rename_i j hact
    split
    · rfl
    · rename_i r hjob
      exact if_neg fun hgood => (h j r hact hjob).elim (by simp [hgood.1]) (by simp [hgood.2])

/-- A job that has been cut short goes on while a step is open (R91, R99). -/
theorem Part.afterStep_early_open (h : c.job? j = some r) (hearly : r.early = true) (hopen : r.finished = false) :
    c.afterStep j false = c := by
  unfold Part.afterStep
  rw [h]
  simp [hearly, hopen]

theorem Part.afterStep_early_finished (h : c.job? j = some r) (hcancel : r.cancel = false) (hearly : r.early = true)
    (hfin : r.finished = true) : c.afterStep j false = c.endJob j .early := by
  unfold Part.afterStep
  rw [h]
  simp [hcancel, hearly, hfin]

/-! ### RETURN_WAITING -/

theorem Part.serviceRequest_return {read : Read} {kind : Nat} (h : c.acknowledges p (.returnWaiting read kind) = true) :
    c.serviceRequest p (.returnWaiting read kind) =
      let e := (c.portOrder p (.ack (.returnWaiting read.norm (kind % 4)))).readAt (960 + p) read.norm (kind % 4) none
      if e.occ (960 + p) = .vacant then e.signal (.attempt p)
      else (e.joins p (.returnWaiting read.norm (kind % 4))).chargeReturn p :=
  if_neg (by simp [h])

theorem Part.newReturn_port (hs : c.sound) (pod : Pod) (forced : Bool) :
    (c.newReturn p pod forced).port p = { c.port p with ret := some ⟨pod, forced, none, false, false⟩ } := by
  unfold Part.newReturn
  rw [Part.signal_port, Part.putPort_port_eq hs, if_pos rfl]

/-- A pod found at its position is that of the return there, which is handled again, or is taken in charge (R101). -/
theorem Part.chargeReturn_cases (hs : c.sound) {pod : Pod} (hpod : c.podAt (960 + p) = some pod) :
    (∃ t, (c.port p).ret = some t ∧ t.pod.same pod = true ∧ c.chargeReturn p = c.signal (.handle p)) ∨
    ((c.chargeReturn p).port p = { c.port p with ret := some ⟨pod, false, none, false, false⟩ } ∧
      (c.chargeReturn p).inv = c.inv ∧ Sig.handle p ∈ (c.chargeReturn p).work) := by
  have hnew : ∀ d : Part, d.sound → d.inv = c.inv → (∃ x, d.port p = { c.port p with ret := x }) →
      (d.newReturn p pod false).port p = { c.port p with ret := some ⟨pod, false, none, false, false⟩ } ∧
      (d.newReturn p pod false).inv = c.inv ∧ Sig.handle p ∈ (d.newReturn p pod false).work := by
    rintro d hd hinv ⟨x, hx⟩
    exact ⟨by rw [Part.newReturn_port hd, hx], (Part.signal_inv ..).trans hinv, Part.mem_signal _⟩
  unfold Part.chargeReturn posOf
  rw [hpod]
  dsimp only
  cases hret : (c.port p).ret with
  | none => exact .inr (hnew c hs rfl ⟨none, by rw [← hret]⟩)
  | some t =>
    dsimp only
    split
    · exact .inl ⟨t, rfl, ‹_›, rfl⟩
    · exact .inr (hnew _ (kept_sound.putPort hs) rfl ⟨none, by rw [Part.putPort_port_eq hs, if_pos rfl]⟩)

/-- A pod taken in charge leaves the port's window and the Inventory alone (R101). -/
theorem Part.chargeReturn_same (hs : c.sound) (p : Nat) : ((c.chargeReturn p).port p).window = (c.port p).window ∧
    (c.chargeReturn p).inv = c.inv := by
  cases hpod : c.podAt (960 + p) with
  | none =>
    have heq : c.chargeReturn p = c := by
      unfold Part.chargeReturn posOf
      rw [hpod]
    rw [heq]
    exact ⟨rfl, rfl⟩
  | some pod =>
    rcases Part.chargeReturn_cases hs hpod with ⟨t, -, -, heq⟩ | ⟨hport, hinv, -⟩
    · rw [heq, Part.signal_port]
      exact ⟨rfl, Part.signal_inv ..⟩
    · exact ⟨by rw [hport], hinv⟩

/-- A pod taken in charge has a return, which is handled (R101). -/
theorem Part.chargeReturn_return (hs : c.sound) {pod : Pod} (hpod : c.podAt (960 + p) = some pod) :
    (∃ t, ((c.chargeReturn p).port p).ret = some t ∧ t.pod.same pod = true) ∧ Sig.handle p ∈ (c.chargeReturn p).work := by
  rcases Part.chargeReturn_cases hs hpod with ⟨t, ht, hsame, heq⟩ | ⟨hport, -, hwork⟩
  · rw [heq, Part.signal_port]
    exact ⟨⟨t, ht, hsame⟩, Part.mem_signal _⟩
  · refine ⟨⟨_, by rw [hport], ?_⟩, hwork⟩
    cases pod <;> simp [Pod.same]

theorem Part.podAt_returned {v : Bool} {x : Rec} (h : c.occ p = .occupied n v) (hr : c.rec? n = some x)
    (hst : x.state = .returned) : c.podAt p = some (.record n) := by
  simp [Part.podAt, h, hr, hst]

theorem Part.podAt_foreign (h : c.occ p = .foreign n) : c.podAt p = some (.foreign n) := by
  simp [Part.podAt, h]

theorem Pod.same_record {t : Pod} {n : Nat} (h : t.same (.record n) = true) : t = .record n := by
  cases t <;> simp_all [Pod.same]

theorem Pod.same_foreign {t : Pod} {i : Nat} (h : t.same (.foreign i) = true) : ∃ y, t = .foreign y := by
  cases t <;> simp_all [Pod.same]

end Sys2Proof.Machine
end

section
open Sys2Proof Sys2Proof.Machine

/-- Settles O49: which requests are acknowledged, and then each of the three by what it does to the port (`joins`), to its
active delivery (`earlyMarked`) and to the pod that stands there (`chargeReturn`). -/
theorem serviceRequests : Obligations.ServiceRequests := by
  intro c p hs hp w open_
  refine ⟨fun x hx => Part.acknowledges_other hx, fun read k => Part.acknowledges_return read k, fun a x hk ha => ?_,
    fun x => Part.serviceRequest_ignored, fun hack => ?_, fun hack => ?_, fun read k hack => ?_⟩
  · simp [Part.deliverReport, hk, ha]
  · intro d
    have hos : (c.portOrder p (.ack .ready)).sound := kept_sound.portOrder hs
    obtain ⟨u, hu⟩ := c.portOrder_eq p (.ack .ready)
    obtain ⟨e, he⟩ : ∃ e, e = (c.portOrder p (.ack .ready)).joins p .ready := ⟨_, rfl⟩
    have hjobs : e.jobs.jobs = c.jobs.jobs := by rw [he, hu]; rfl
    have hport : ∀ y, e.port y = if y = p then { c.port p with window := w ++ [⟨.ready, c.now⟩] } else c.port y := fun y => by
      rw [he, Part.joins_port hos, hu]
      rfl
    obtain ⟨v, hv, -, hattempt⟩ := e.signal_eq (.attempt p)
    obtain ⟨z, hz, hsub, hhandles⟩ := (e.signal (.attempt p)).tellReturns_eq p
    have hd : d = { e with work := z } := by
      have hwork : { e with work := z } = ({ e.signal (.attempt p) with work := z } : Part) := by rw [hv]
      rw [hwork, ← hz, he]
      exact Part.serviceRequest_ready hack
    rw [hd]
    refine ⟨hport, hjobs, by rw [he, hu]; rfl, by rw [he, hu]; rfl, by rw [he, hu]; rfl, hsub (by rw [hv]; exact hattempt),
      fun a n ha hplan hn => ?_, fun y t n x g b k st m hy hne ht hpod hf hact hjob hwork hst => ?_⟩
    · rw [he]
      exact Part.portOrder_node (.ack .ready) ha hplan hn
    · obtain ⟨r, hr, hhead⟩ := hjob
      refine hhandles n (Part.awaits_of (b := b) (r := r) (rc := g) ?_ ?_ hhead hwork hst ?_) y hy hne t ?_ hpod
      · rw [Part.signal_port, hport, if_pos rfl]
        exact hact
      · rw [Part.signal_job, Part.job_of_jobs hjobs]
        exact hr
      · rw [hv, he, hu]
        exact hf
      · rw [Part.signal_port, hport, if_neg hne]
        exact ht
  · intro d cut
    obtain ⟨o, ho⟩ : ∃ o, o = c.portOrder p (.ack .lastNeeded) := ⟨_, rfl⟩
    have hos : o.sound := ho ▸ kept_sound.portOrder hs
    have hd : d = o.lastNeeded p := ho ▸ Part.serviceRequest_lastNeeded hack
    have hojobs : o.jobs = c.jobs := ho ▸ Part.portOrder_jobs p _
    have hport : ∀ y, o.port y = c.port y := Part.port_of_ports (by rw [hojobs])
    have hjob : ∀ j, o.job? j = c.job? j := Part.job_of_jobs (by rw [hojobs])
    refine ⟨fun h => ?_, fun j r hact hr hrp hkind hearly => ?_⟩
    · rw [hd, ← ho]
      exact Part.lastNeeded_idle fun j r ha hj => h j r (hport p ▸ ha) (hjob j ▸ hj)
    have hserved : d = (o.earlyMarked j).afterStep j false :=
      hd.trans (Part.lastNeeded_served ((hport p).symm ▸ hact) ((hjob j).symm ▸ hr) hkind hearly)
    have hmarked := Part.earlyMarked_marked ((hjob j).symm ▸ hr)
    have hsound := Part.earlyMarked_sound hos j
    have hcut : r.ending = { r with early := true, steps := r.steps.map cut } :=
      congrArg (fun l => { r with early := true, steps := l }) (List.map_congr_left fun st _ => Step.cut_unserved st _)
    refine ⟨fun hopen => ?_, fun hcancel hall => ?_⟩
    · have hnot : r.ending.finished = false := Bool.eq_false_iff.2 fun hfin => by
        obtain ⟨st, hst, hstate⟩ := hopen
        rcases Job.cut_unserved_finished.1 hfin st hst with e | e | e <;> simp [e] at hstate
      rw [hserved, Part.afterStep_early_open hmarked.self rfl hnot, ← hcut]
      exact ⟨hmarked.self, by rw [hmarked.port_eq, hport]⟩
    · have hfin : r.ending.finished = true := Job.cut_unserved_finished.2 hall
      obtain ⟨queue, more, hends⟩ := Part.endJob_ends_somehow hsound hmarked.self .early
      have hend := hends.port
      rw [show r.ending.port = p from hrp, hmarked.port_eq, hport, hact, if_pos rfl] at hend
      rw [hserved, Part.afterStep_early_finished hmarked.self hcancel rfl hfin]
      refine ⟨hends.gone, by rw [hend], by rw [hend], ?_⟩
      obtain ⟨a, hsaid, -⟩ := hends.said
      exact ⟨_, by rw [hsaid, ← hrp, ← hkind]; exact List.mem_append_right _ (.head _)⟩
  · intro d e
    have hos : (c.portOrder p (.ack (.returnWaiting read.norm (k % 4)))).sound := kept_sound.portOrder hs
    have hes : e.sound := kept_sound.readAt hos
    have hnow : e.now = c.now := by
      obtain ⟨u, hu⟩ := c.portOrder_eq p (.ack (.returnWaiting read.norm (k % 4)))
      rw [((cascades_cascade hos).readAt (.refl _)).now_eq, hu]
    have hd : d = if e.occ (960 + p) = .vacant then e.signal (.attempt p)
      else (e.joins p (.returnWaiting read.norm (k % 4))).chargeReturn p := Part.serviceRequest_return hack
    refine ⟨fun hvacant => by rw [hd, if_pos hvacant], fun hheld => ?_⟩
    rw [hd, if_neg hheld]
    have hjs : (e.joins p (.returnWaiting read.norm (k % 4))).sound := kept_sound.putPort hes
    obtain ⟨hwindow, hinv⟩ := Part.chargeReturn_same hjs p
    refine ⟨?_, hinv, fun n v r hocc hr hst => ?_, fun i hocc => ?_⟩
    · rw [hwindow, Part.joins_port hes, if_pos rfl, hnow]
    · have hpod : (e.joins p (.returnWaiting read.norm (k % 4))).podAt (960 + p) = some (.record n) :=
        Part.podAt_returned hocc hr hst
      obtain ⟨⟨t, ht, hsame⟩, hwork⟩ := Part.chargeReturn_return hjs hpod
      exact ⟨⟨t, ht, Pod.same_record hsame⟩, hwork⟩
    · have hpod : (e.joins p (.returnWaiting read.norm (k % 4))).podAt (960 + p) = some (.foreign i) :=
        Part.podAt_foreign hocc
      obtain ⟨⟨t, ht, hsame⟩, hwork⟩ := Part.chargeReturn_return hjs hpod
      obtain ⟨y, hy⟩ := Pod.same_foreign hsame
      exact ⟨⟨t, y, ht, hy⟩, hwork⟩
end

section
/-! SUPPORT. The attempt of a head step (R94, R95): the step a READY can serve, the reticle that is free for it, its tests, and
what it reserves. -/

namespace Sys2Proof.Machine

variable {c d e : Part} {p j k n l u t : Nat} {r : Job} {st : Step} {id : RetId} {rc rc1 : Rec} {m : Move}

/-! ### The step and its reticle -/

/-- The head step of a port's active delivery that a READY acknowledged at `t` can serve (R94). -/
theorem Part.readyStep_iff : c.readyStep p = some (j, k, st, id, u, t) ↔
    (c.ctl.mode = .normal ∧ (c.port p).masked = false ∧ c.suspended p = false ∧ c.occ (960 + p) = .vacant ∧
      (∃ w, (c.port p).window = ⟨.ready, t⟩ :: w) ∧ (c.port p).active = some j ∧
      (∃ r, c.job? j = some r ∧ r.head = some (k, st)) ∧ st.work = .deliver id u ∧
      (st.state = .pending ∨ st.state = .waiting)) := by
  unfold Part.readyStep posOf
  dsimp only
  constructor
  · intro h
    split at h
    case isFalse => cases h
    rename_i hgood
    obtain ⟨hmode, hmask, hsusp, hocc⟩ := hgood
    split at h
    case h_2 => cases h
    rename_i w rest b hwindow hact
    split at h
    case h_2 => cases h
    rename_i hready hhead
    split at h
    case h_2 => cases h
    rename_i hwork
    split at h
    case isFalse => cases h
    cases h
    obtain ⟨r, hr, hh⟩ := Option.bind_eq_some_iff.1 hhead
    exact ⟨hmode, hmask, hsusp, hocc, ⟨rest, by rw [hwindow, ← hready]⟩, hact, ⟨r, hr, hh⟩, hwork, ‹_›⟩
  · rintro ⟨hmode, hmask, hsusp, hocc, ⟨w, hw⟩, hact, ⟨r, hr, hhead⟩, hwork, hst⟩
    rw [if_pos ⟨hmode, hmask, hsusp, hocc⟩, hw, hact]
    dsimp only
    rw [hr, Option.bind_some, hhead]
    dsimp only
    rw [hwork]
    exact if_pos hst

/-- An ID names a reticle that is IDLE at a location and that no move carries (R94). -/
structure Part.Free (c : Part) (id : RetId) (n : Nat) (rc : Rec) (l : Nat) : Prop where
  found : c.findId id = some (n, rc)
  place : rc.place = .loc l
  idle : rc.state = .idle
  unmoved : ∀ m ∈ c.mv.moves, m.reticle ≠ some n

theorem Part.inMove_iff : c.inMove n = false ↔ ∀ m ∈ c.mv.moves, m.reticle ≠ some n := by
  simp [Part.inMove]

theorem Part.attempt_none (h : c.readyStep p = none) : c.attempt p = c := by
  unfold Part.attempt
  rw [h]

/-- A step whose reticle is not free waits for it (R94, R95). -/
theorem Part.attempt_waits (h : c.readyStep p = some (j, k, st, id, u, t)) (hno : ∀ n rc l, ¬c.Free id n rc l) :
    c.attempt p = c.waitStep p j k st := by
  unfold Part.attempt
  rw [h]
  dsimp only
  split
  · rfl
  · rename_i n rc hf
    split
    · rename_i l hl
      exact if_neg fun hfree => hno n rc l ⟨hf, hl, hfree.1, Part.inMove_iff.1 hfree.2⟩
    · rfl

/-- The move that a delivery step asks for (R94). -/
def Part.deliveryAsk (c : Part) (p j k t l kind : Nat) : Ask :=
  ⟨.deliver, some l, some (960 + p), 0, kind, .step j k, none, c.expressFor j, some t, false⟩

/-- A free reticle is settled and tested, and its move asked for (R94). -/
theorem Part.attempt_free (h : c.readyStep p = some (j, k, st, id, u, t)) (hfree : c.Free id n rc l)
    (hrc : (c.settle n).rec? n = some rc1) : c.attempt p = match (c.settle n).deliveryTests rc1 rc.held l p u with
      | some res => (c.settle n).endStep j k res (some n) true
      | none => match (c.settle n).admitAsk ((c.settle n).deliveryAsk p j k t l rc1.kind) with
        | .error _ => c.settle n
        | .ok (d, m) => d.reserve n j k p m := by
  unfold Part.attempt
  rw [h]
  dsimp only
  rw [hfree.found]
  dsimp only
  rw [hfree.place]
  dsimp only
  rw [if_pos ⟨hfree.idle, Part.inMove_iff.2 hfree.unmoved⟩, hrc]
  rfl

/-! ### The wait -/

theorem Part.setStep_frame (f : Step → Step) : ∃ q, c.setStep j k f = { c with jobs := { c.jobs with jobs := q } } := by
  unfold Part.setStep Part.updJob
  split <;> exact ⟨_, rfl⟩

theorem Part.setStep_job (f : Step → Step) (h : c.job? j = some r) (hst : r.steps[k]? = some st) :
    (c.setStep j k f).job? j = some { r with steps := r.steps.set k (f st) } := by
  rw [Part.setStep_eq f h hst, Part.putJob_job, if_pos rfl]

theorem Job.set_step (x : Step) (hst : r.steps[k]? = some st) : (r.steps.set k x)[k]? = some x :=
  List.getElem?_set_self (List.getElem?_eq_some_iff.1 hst).1

/-- A step that begins to wait (R95). -/
def Part.waits (c : Part) (st : Step) : Step := { st with
  state := .waiting, since := some c.now
  expiry := if c.limits.stepWaitMax = 0 then none else some (c.now + c.limits.stepWaitMax) }

theorem Part.waitStep_waiting (h : st.state = .waiting) : c.waitStep p j k st = c := if_neg (by simp [h])

/-- A step that begins to wait changes its job and what is signalled alone (R95). -/
theorem Part.waitStep_frame (p j k : Nat) (st : Step) :
    ∃ q w, c.waitStep p j k st = { c with jobs := { c.jobs with jobs := q }, work := w } := by
  unfold Part.waitStep
  split
  · obtain ⟨q, hq⟩ := c.setStep_frame (j := j) (k := k) c.waits
    obtain ⟨w, hw, -⟩ := (c.setStep j k c.waits).tellReturns_eq p
    exact ⟨q, w, hw.trans (by rw [hq])⟩
  · exact ⟨_, _, rfl⟩

theorem Part.waitStep_pending (h : c.job? j = some r) (hst : r.steps[k]? = some st) (hpend : st.state = .pending) :
    (c.waitStep p j k st).job? j = some { r with steps := r.steps.set k (c.waits st) } := by
  obtain ⟨w, hw, -⟩ := (c.setStep j k c.waits).tellReturns_eq p
  unfold Part.waitStep
  rw [if_pos hpend]
  exact (congrArg (Part.job? · j) hw).trans (Part.setStep_job _ h hst)

/-! ### The settlement and the tests -/

theorem Part.settle_uncommitted (h : c.rec? n = some rc) (hu : rc.uncommitted) :
    ∃ rc1 o, c.RecOnly (c.settle n) n rc1 o ∧ rc.SameButAccount rc1 :=
  Part.settled_uncommitted h (rc.accrue_account _ _) hu

theorem Part.RecOnly.jobs_eq {o : List Subject} (h : c.RecOnly d n rc o) : d.jobs = c.jobs := by
  obtain ⟨⟨w, q, rfl⟩, -, -⟩ := h
  rfl

/-- The tests of a delivery in their order (R94). -/
theorem Part.deliveryTests_eq (held : Bool) : c.deliveryTests rc held l p u =
    if held = true then some .skippedHold
    else if c.eligibleSrc l = false ∨ accepts (c.portCfg p).kinds rc.kind = false then some .slotFault
    else if c.limits.eHold ≤ rc.e + u * (c.tables.classes.getD rc.cls ⟨0, 0⟩).rate then some .skippedExposure
    else none := by
  have hrate : c.projected rc u = rc.e + u * (c.tables.classes.getD rc.cls ⟨0, 0⟩).rate := rfl
  unfold Part.deliveryTests
  rw [hrate]
  cases held <;> cases c.eligibleSrc l <;> cases accepts (c.portCfg p).kinds rc.kind <;> simp

/-! ### The admission and what it reserves -/

/-- A move of a pod with a record, or a SCAN, is admitted without a word to the Inventory or the Job Engine (R112). -/
theorem Part.admitAsk_frame {q : Ask} (h : c.admitAsk q = .ok (d, m)) (hkind : q.kind ≠ .manual) :
    d.inv = c.inv ∧ d.jobs = c.jobs := by
  obtain ⟨-, x, y, z, -, rfl⟩ := Part.admitAsk_ok h
  have hgive : ∀ b : Part, b.giveKind (c.moveOf q x y (some z)) = b := fun b => by
    unfold Part.giveKind
    split
    · rename_i hm _ _
      exact absurd hm hkind
    · rfl
  have hwatch : ∀ (b : Part) y, (b.watchHold y).jobs = b.jobs := fun _ _ => rfl
  rw [hgive]
  refine ⟨Part.enlist_inv _, ?_⟩
  unfold Part.enlist
  dsimp only
  cases (c.moveOf q x y (some z)).reticle <;> split <;> simp [hwatch]

/-- A step with its move (R94). -/
def Step.reservedBy (st : Step) (m : Move) : Step :=
  { st with state := .reserved, expiry := none, since := none, move := some m.num }

theorem Part.reserve_spec (hs : c.sound) (hrc : c.rec? n = some rc) (hr : c.job? j = some r) (hst : r.steps[k]? = some st) :
    (c.reserve n j k p m).mv = c.mv ∧
    (c.reserve n j k p m).rec? n = some { rc with state := .reserved, job := some (j, k) } ∧
    (∀ y, (c.reserve n j k p m).port y =
      if y = p then { c.port p with window := (c.port p).window.tail } else c.port y) ∧
    (c.reserve n j k p m).job? j = some { r with steps := r.steps.set k (st.reservedBy m) } := by
  obtain ⟨b, hb⟩ : ∃ b, b = c.updRec n fun r => { r with state := .reserved, job := some (j, k) } := ⟨_, rfl⟩
  have hrec := hb ▸ Part.updRec_only (fun r => { r with state := .reserved, job := some (j, k) }) hrc
  have hbs : b.sound := hb ▸ kept_sound.updRec (fun _ => ⟨rfl, rfl⟩) hs
  obtain ⟨w, q, hbeq⟩ := hrec.eq
  have hbjob : b.job? j = some r := by rw [hbeq]; exact hr
  have hbport : ∀ y, b.port y = c.port y := fun y => by rw [hbeq]; rfl
  obtain ⟨q', hset⟩ := b.setStep_frame (j := j) (k := k) (·.reservedBy m)
  have heq : c.reserve n j k p m = (b.setStep j k (·.reservedBy m)).popReady p := by rw [hb]; rfl
  have hsport : ∀ y, (b.setStep j k (·.reservedBy m)).port y = c.port y := fun y => by rw [hset]; exact hbport y
  rw [heq]
  refine ⟨?_, ?_, fun y => ?_, (Part.putPort_job _).trans (Part.setStep_job _ hbjob hst)⟩
  · exact (congrArg Part.mv hset).trans hrec.mv_eq
  · exact (congrArg (Part.rec? · n) hset).trans hrec.self
  · unfold Part.popReady
    rw [Part.putPort_port_eq (kept_sound.setStep hbs), hsport, hsport, List.drop_one]

end Sys2Proof.Machine
end

section
open Sys2Proof Sys2Proof.Machine

/-- Settles O50: the step a READY can serve (`readyStep_iff`); where its reticle is not free it waits, and otherwise the settled
record is tested and its move asked for (`attempt_free`). -/
theorem deliveryAttempts : Obligations.DeliveryAttempts := by
  intro c p hs hp
  refine ⟨fun j k st id u t => Part.readyStep_iff, Part.attempt_none, fun j k st id u t hstep => ?_⟩
  intro d ready
  obtain ⟨-, -, -, -, -, -, ⟨r, hr, hhead⟩, -, -⟩ := Part.readyStep_iff.1 hstep
  have hst := Job.head_step hhead
  refine ⟨fun hno => ?_, fun n rc l rc1 ⟨hf, hl, hidle, hmoves⟩ hrc1 => ?_⟩
  · have hd : d = c.waitStep p j k st :=
      Part.attempt_waits hstep fun n rc l h => hno n rc l ⟨h.found, h.place, h.idle, h.unmoved⟩
    obtain ⟨q, w, hw⟩ := c.waitStep_frame p j k st
    refine ⟨by rw [hd, hw], by rw [hd, hw], by rw [hd, hw], by rw [hd, hw], fun hwait => ?_, fun hpend => ?_⟩
    · rw [hd, Part.waitStep_waiting hwait]
    · exact ⟨_, hd ▸ Part.waitStep_pending hr hst hpend, Job.set_step _ hst⟩
  · intro e fails
    have hrc := (Part.rec_of_findId hs hf).1
    obtain ⟨q, o, honly, hsame⟩ := Part.settle_uncommitted hrc ⟨by simp [hidle], by simp [hidle]⟩
    obtain rfl := Option.some.inj (honly.self.symm.trans hrc1)
    obtain ⟨-, hcls, hkind, -⟩ := hsame.keeps
    obtain ⟨w, recs, heq⟩ := honly.eq
    have hes : e.sound := kept_sound.settle hs
    have htests : e.deliveryTests q rc.held l p u = fails := by
      rw [Part.deliveryTests_eq, hcls, hkind, show e = _ from heq]
      rfl
    have hd := Part.attempt_free hstep ⟨hf, hl, hidle, hmoves⟩ hrc1
    rw [htests] at hd
    refine ⟨fun x hx => ?_, fun hnone => ?_⟩
    · rw [hx] at hd
      exact hd
    · intro ask
      have hask : e.deliveryAsk p j k t l q.kind = ask := by rw [hkind]; rfl
      rw [hnone] at hd
      dsimp only at hd
      rw [hask] at hd
      refine ⟨fun x hx => ?_, fun g m hg => ?_⟩
      · rw [hx] at hd
        exact hd
      · rw [hg] at hd
        obtain ⟨hinv, hjobs⟩ := Part.admitAsk_frame hg nofun
        have hgjobs : g.jobs = c.jobs := hjobs.trans honly.jobs_eq
        have hjob : g.job? j = some r := (Part.job_of_jobs (by rw [hgjobs]) j).trans hr
        have hgrec : g.rec? n = some q := (Part.rec_of_inv hinv n).trans hrc1
        obtain ⟨hmv, hrec, hport, hstepj⟩ := Part.reserve_spec (p := p) (m := m) (kept_sound.admitAsk hes hg) hgrec hjob hst
        have hgport : g.port p = c.port p := Part.port_of_ports (by rw [hgjobs]) p
        have hd : d = g.reserve n j k p m := hd
        rw [hd]
        refine ⟨hmv, hrec, ?_, _, hstepj, Job.set_step _ hst⟩
        rw [hport, if_pos rfl, hgport]
end

section
/-! SUPPORT. A return that takes its move, one that says that it waits or finds no slot, and the returns that wait unsaid (R101,
R103 to R105). -/

namespace Sys2Proof.Machine

variable {c d : Part} {p q j k n : Nat} {t : PortReturn} {m : Move}

/-- No RETURN_WAITING stands in a port's window. -/
def Part.ReturnServed (c : Part) (p : Nat) : Prop := ∀ w ∈ (c.port p).window, ∀ y i, w.kind ≠ .returnWaiting y i

theorem Part.serveReturn_served (hs : c.sound) (p : Nat) : (c.serveReturn p).ReturnServed p := by
  intro w hw y i hk
  rw [Part.serveReturn_port hs.ports] at hw
  have hno : w.isReturn = false := by simpa using (List.mem_filter.1 hw).2
  simp [w.isReturn_iff.2 ⟨y, i, hk⟩] at hno

theorem Part.serveReturn_port_other (h : q ≠ p) : (c.serveReturn p).port q = c.port q := by
  unfold Part.serveReturn
  dsimp only
  split
  · rw [Part.signal_port, Part.putPort_port_other _ h]
  · rfl

/-- A return that ends takes its RETURN_WAITING out of the window (R105). -/
theorem Part.endReturn_ends (hs : c.sound) (h : (c.port p).ret = some t) :
    ((c.endReturn p).port p).ret = none ∧ (c.endReturn p).ReturnServed p := by
  refine ⟨Part.endReturn_ret hs.ports p, ?_⟩
  unfold Part.endReturn
  rw [h]
  exact Part.serveReturn_served (kept_sound.putPort hs) p

/-! ### The move -/

theorem Part.returnTakes_eq (h : (c.port p).ret = some t) (m : Move) : c.returnTakes p m =
    (c.putPort p { c.port p with ret := some { t with move := some m.num } }).serveReturn p := by
  unfold Part.returnTakes
  rw [h]

/-- `d` is what `c` becomes as the return at port `p` takes the move `m` (R102 to R104). -/
structure Part.Takes (c d : Part) (p : Nat) (t : PortReturn) (m : Move) : Prop where
  only : c.PortOnly d
  served : d.ReturnServed p
  ret : (d.port p).ret = some { t with move := some m.num }
  others : ∀ q, q ≠ p → d.port q = c.port q

theorem Part.Takes.mv (h : c.Takes d p t m) : d.mv = c.mv := by
  obtain ⟨x, w, rfl⟩ := h.only
  rfl

theorem Part.Takes.rec_eq (h : c.Takes d p t m) (n : Nat) : d.rec? n = c.rec? n := by
  obtain ⟨x, w, rfl⟩ := h.only
  rfl

theorem Part.Takes.job_eq (h : c.Takes d p t m) (j : Nat) : d.job? j = c.job? j := by
  obtain ⟨x, w, rfl⟩ := h.only
  rfl

theorem Part.returnTakes_takes (hs : c.sound) (h : (c.port p).ret = some t) (m : Move) :
    c.Takes (c.returnTakes p m) p t m := by
  have hput : (c.putPort p { c.port p with ret := some { t with move := some m.num } }).sound := kept_sound.putPort hs
  rw [Part.returnTakes_eq h]
  refine ⟨(portSide_portOnly c).serveReturn ((portSide_portOnly c).putPort (.refl c)), Part.serveReturn_served hput p, ?_,
    fun q hq => ?_⟩
  · rw [Part.serveReturn_port hput.ports, Part.putPort_port_eq hs, if_pos rfl]
  · rw [Part.serveReturn_port_other hq, Part.putPort_port_other _ hq]

/-! ### The pod -/

theorem Part.podHeld_iff {pod : Pod} :
    c.podHeld pod = true ↔ ∃ n r, pod = .record n ∧ c.rec? n = some r ∧ r.held = true := by
  cases pod with
  | foreign i => simp [Part.podHeld]
  | record n => cases h : c.rec? n <;> simp [Part.podHeld, h]

theorem Part.returning_iff : c.returning p = false ↔
    ∀ j r, (c.port p).active = some j → c.job? j = some r → r.kind = .deliver := by
  have hkind : ∀ r : Job, r.kind ≠ .ret ↔ r.kind = .deliver := fun r => by cases r.kind <;> simp
  unfold Part.returning
  cases hact : (c.port p).active with
  | none => simp
  | some j =>
    have hsome : (∀ i r, some j = some i → c.job? i = some r → r.kind = .deliver) ↔
        ∀ r, c.job? j = some r → r.kind = .deliver := ⟨fun h r => h j r rfl, by rintro h _ r ⟨⟩; exact h r⟩
    rw [hsome]
    cases hjob : c.job? j <;> simp [hjob, hkind]

/-! ### The returns that wait -/

/-- The return of a DIRECTED port that no ACTIVE RETURN job serves, and that has not said so (R104). -/
def Part.WaitsUnsaid (c : Part) (q : Nat) (t : PortReturn) : Prop := (c.port q).ret = some t ∧ t.waitSent = false ∧
  t.move = none ∧ t.forced = false ∧ (∀ n r, t.pod = .record n → c.rec? n = some r → r.held = false) ∧
  (c.portCfg q).directed = true ∧ (c.port q).masked = false ∧ c.suspended q = false ∧ c.ctl.mode.admits = true ∧
  ∀ j r, (c.port q).active = some j → c.job? j = some r → r.kind = .deliver

theorem Part.waitsUnsaid_iff : c.waitsUnsaid q = true ↔ ∃ t, c.WaitsUnsaid q t := by
  have hheld : ∀ pod, c.podHeld pod = false ↔ ∀ n r, pod = .record n → c.rec? n = some r → r.held = false := fun pod => by
    rw [← Bool.not_eq_true, Part.podHeld_iff]
    simp only [not_exists, not_and, Bool.not_eq_true]
  unfold Part.waitsUnsaid Part.WaitsUnsaid
  cases hret : (c.port q).ret with
  | none => simp
  | some t => simp [← hheld, ← Part.returning_iff, and_assoc]

theorem Part.waitingOnce_none : c.waitingOnce = none ↔ ∀ q < 8, ∀ t, ¬c.WaitsUnsaid q t := by
  have hfind : (List.range 8).find? c.waitsUnsaid = none ↔ ∀ q < 8, ∀ t, ¬c.WaitsUnsaid q t := by
    rw [List.find?_eq_none]
    simp only [Part.waitsUnsaid_iff, List.mem_range, not_exists]
  rw [← hfind]
  unfold Part.waitingOnce
  split
  · simp [*]
  · rename_i q hq
    obtain ⟨t, ht, -⟩ := Part.waitsUnsaid_iff.1 (List.find?_some hq)
    simp [hq, ht]

/-- The lowest port whose return waits says so (R104). -/
theorem Part.waitingOnce_first (hq : q < 8) (h : c.WaitsUnsaid q t) (hbefore : ∀ i < q, ∀ y, ¬c.WaitsUnsaid i y) :
    c.waitingOnce = some (c.sayWaiting q t) := by
  unfold Part.waitingOnce
  rw [List.find?_range_eq_some.2 ⟨Part.waitsUnsaid_iff.2 ⟨t, h⟩, List.mem_range.2 hq, fun i hi => ?_⟩]
  · dsimp only
    rw [h.1, Option.map_some]
  · rw [Bool.not_eq_true', Bool.eq_false_iff]
    exact fun hw => (Part.waitsUnsaid_iff.1 hw).elim (hbefore i hi)

end Sys2Proof.Machine
end

section
/-! SUPPORT. The crossing of a return (R102): the ports that want its reticle, the order of choice among them, and the case in
which none is tried. -/

namespace Sys2Proof.Machine

variable {c d : Part} {p q j k n u b s : Nat} {t : PortReturn} {st : Step} {rc rc1 : Rec} {m : Move} {test : Bool}

/-- A WAITING step of port `q` wants a record (R102). -/
def Part.Wants (c : Part) (q : Nat) (rc : Rec) (j k : Nat) (st : Step) (u b : Nat) : Prop :=
  q < 8 ∧ c.readyStep q = some (j, k, st, rc.id, u, b) ∧ st.state = .waiting ∧ accepts (c.portCfg q).kinds rc.kind = true

theorem Part.crossPort_iff : c.crossPort q rc = some (j, k, u, b, s) ↔ ∃ st, c.readyStep q = some (j, k, st, rc.id, u, b) ∧
    st.state = .waiting ∧ accepts (c.portCfg q).kinds rc.kind = true ∧ st.since.getD 0 = s := by
  unfold Part.crossPort
  cases hstep : c.readyStep q with
  | none => simp
  | some x =>
    obtain ⟨j', k', st', id', u', b'⟩ := x
    dsimp only
    constructor
    · intro h
      split at h
      · rename_i hgood
        obtain ⟨hst, rfl, hacc⟩ := hgood
        cases h
        exact ⟨st', rfl, hst, hacc, rfl⟩
      · cases h
    · rintro ⟨st, hsome, hst, hacc, rfl⟩
      cases hsome
      exact if_pos ⟨hst, rfl, hacc⟩

/-- Port `q` can take a record, whose use it allows where that is tested; its step has waited since `s` (R102). -/
def Part.Crossable (c : Part) (rc : Rec) (test : Bool) (q s : Nat) : Prop :=
  ∃ j k u b, c.crossPort q rc = some (j, k, u, b, s) ∧ (test = true → c.projected rc u < c.limits.eHold)

theorem Part.Crossable.since_eq {s' : Nat} (h : c.Crossable rc test q s) (h' : c.Crossable rc test q s') : s = s' := by
  obtain ⟨_, _, _, _, hport, -⟩ := h
  obtain ⟨_, _, _, _, hport', -⟩ := h'
  rw [hport] at hport'
  cases hport'
  rfl

/-- The choice so far, and one port more (R102). -/
def Part.crossNext (c : Part) (rc : Rec) (test : Bool) (best : Option Nat) (q : Nat) : Option Nat :=
  match c.crossPort q rc with
  | none => best
  | some (_, _, u, _, since) =>
    if test && c.limits.eHold ≤ c.projected rc u then best
    else match best.bind fun y => c.crossPort y rc with
      | some (_, _, _, _, s0) => if since < s0 then some q else best
      | none => some q

theorem Part.crossPorts_eq (rc : Rec) (test : Bool) :
    c.crossPorts rc test = (List.range 8).foldl (c.crossNext rc test) none := rfl

theorem Part.crossNext_skip {best : Option Nat} (h : ∀ s, ¬c.Crossable rc test q s) : c.crossNext rc test best q = best := by
  unfold Part.crossNext
  split
  · rfl
  · rename_i hport
    refine if_pos ?_
    by_contra hgood
    exact h _ ⟨_, _, _, _, hport, fun htest => by simpa [htest] using hgood⟩

theorem Part.crossNext_first (h : c.Crossable rc test q s) : c.crossNext rc test none q = some q := by
  obtain ⟨j, k, u, b, hport, hgood⟩ := h
  unfold Part.crossNext
  rw [hport]
  exact if_neg (by simpa using hgood)

theorem Part.crossNext_better {y s0 : Nat} (h : c.Crossable rc test q s) (hy : c.Crossable rc test y s0) :
    c.crossNext rc test (some y) q = if s < s0 then some q else some y := by
  obtain ⟨j, k, u, b, hport, hgood⟩ := h
  obtain ⟨_, _, _, _, hbest, -⟩ := hy
  unfold Part.crossNext
  rw [hport]
  dsimp only
  rw [if_neg (by simpa using hgood), Option.bind_some, hbest]

/-- Of the ports below `n` that can take the record, `q` has waited longest and is the lowest of those (R102). -/
def Part.FirstCross (c : Part) (rc : Rec) (test : Bool) (n q : Nat) : Prop :=
  q < n ∧ ∃ s, c.Crossable rc test q s ∧ ∀ q' < n, ∀ s', c.Crossable rc test q' s' → s < s' ∨ s = s' ∧ q ≤ q'

theorem Part.crossPorts_upto (rc : Rec) (test : Bool) (n : Nat) :
    ((List.range n).foldl (c.crossNext rc test) none = none ∧ ∀ q < n, ∀ s, ¬c.Crossable rc test q s) ∨
    ∃ q, (List.range n).foldl (c.crossNext rc test) none = some q ∧ c.FirstCross rc test n q := by
  induction n with
  | zero => exact .inl ⟨rfl, fun q hq => absurd hq (Nat.not_lt_zero q)⟩
  | succ n ih =>
    rw [List.range_succ, List.foldl_append]
    dsimp only [List.foldl_cons, List.foldl_nil]
    by_cases hn : ∃ s, c.Crossable rc test n s
    · obtain ⟨s, hs⟩ := hn
      right
      rcases ih with ⟨hnone, hno⟩ | ⟨y, hy, hlt, s0, hs0, hfirst⟩
      · rw [hnone, Part.crossNext_first hs]
        refine ⟨n, rfl, Nat.lt_succ_self n, s, hs, fun q' hq' s' hs' => ?_⟩
        rcases Nat.lt_succ_iff_lt_or_eq.1 hq' with hq' | rfl
        · exact absurd hs' (hno q' hq' s')
        · exact .inr ⟨hs.since_eq hs', le_rfl⟩
      · rw [hy, Part.crossNext_better hs hs0]
        split
        · refine ⟨n, rfl, Nat.lt_succ_self n, s, hs, fun q' hq' s' hs' => ?_⟩
          rcases Nat.lt_succ_iff_lt_or_eq.1 hq' with hq' | rfl
          · have := hfirst q' hq' s' hs'
            omega
          · exact .inr ⟨hs.since_eq hs', le_rfl⟩
        · refine ⟨y, rfl, hlt.trans (Nat.lt_succ_self n), s0, hs0, fun q' hq' s' hs' => ?_⟩
          rcases Nat.lt_succ_iff_lt_or_eq.1 hq' with hq' | rfl
          · exact hfirst q' hq' s' hs'
          · have := hs.since_eq hs'
            omega
    · have hskip : ∀ s, ¬c.Crossable rc test n s := not_exists.1 hn
      rw [Part.crossNext_skip hskip]
      rcases ih with ⟨hnone, hno⟩ | ⟨y, hy, hlt, s0, hs0, hfirst⟩
      · refine .inl ⟨hnone, fun q hq => ?_⟩
        rcases Nat.lt_succ_iff_lt_or_eq.1 hq with hq | rfl
        · exact hno q hq
        · exact hskip
      · refine .inr ⟨y, hy, hlt.trans (Nat.lt_succ_self n), s0, hs0, fun q' hq' s' hs' => ?_⟩
        rcases Nat.lt_succ_iff_lt_or_eq.1 hq' with hq' | rfl
        · exact hfirst q' hq' s' hs'
        · exact absurd hs' (hskip s')

theorem Part.crossPorts_none : c.crossPorts rc false = none ↔ ∀ q j k st u b, ¬c.Wants q rc j k st u b := by
  have hcross : ∀ q s, c.Crossable rc false q s ↔ ∃ j k st u b, c.readyStep q = some (j, k, st, rc.id, u, b) ∧
      st.state = .waiting ∧ accepts (c.portCfg q).kinds rc.kind = true ∧ st.since.getD 0 = s := fun q s => by
    unfold Part.Crossable
    simp only [Part.crossPort_iff, Bool.false_eq_true, false_implies, and_true]
    exact ⟨fun ⟨j, k, u, b, st, h⟩ => ⟨j, k, st, u, b, h⟩, fun ⟨j, k, st, u, b, h⟩ => ⟨j, k, u, b, st, h⟩⟩
  rw [Part.crossPorts_eq]
  constructor
  · rintro hnone q j k st u b ⟨hq, hstep, hst, hacc⟩
    rcases c.crossPorts_upto rc false 8 with ⟨-, hno⟩ | ⟨y, hy, -⟩
    · exact hno q hq _ ((hcross q _).2 ⟨j, k, st, u, b, hstep, hst, hacc, rfl⟩)
    · rw [hnone] at hy
      cases hy
  · intro hno
    rcases c.crossPorts_upto rc false 8 with ⟨hnone, -⟩ | ⟨y, -, hlt, s, hs, -⟩
    · exact hnone
    · obtain ⟨j, k, st, u, b, hstep, hst, hacc, -⟩ := (hcross y s).1 hs
      exact absurd ⟨hlt, hstep, hst, hacc⟩ (hno y j k st u b)

/-- The port that wants the record, allows its use and is first in the order of choice is chosen (R102). -/
theorem Part.crossPorts_chosen (hw : c.Wants q rc j k st u b) (hallows : rc.e + u * c.rateOf rc < c.limits.eHold)
    (hfirst : ∀ q' j' k' st' u' b', c.Wants q' rc j' k' st' u' b' → rc.e + u' * c.rateOf rc < c.limits.eHold →
      st.since.getD 0 < st'.since.getD 0 ∨ (st.since.getD 0 = st'.since.getD 0 ∧ q ≤ q')) :
    c.crossPorts rc true = some q := by
  obtain ⟨hq, hstep, hst, hacc⟩ := hw
  have hcross : c.Crossable rc true q (st.since.getD 0) :=
    ⟨j, k, u, b, Part.crossPort_iff.2 ⟨st, hstep, hst, hacc, rfl⟩, fun _ => hallows⟩
  rw [Part.crossPorts_eq]
  rcases c.crossPorts_upto rc true 8 with ⟨-, hno⟩ | ⟨y, hy, hlt, s, hs, hbest⟩
  · exact absurd hcross (hno q hq _)
  · have hle := hbest q hq _ hcross
    obtain ⟨j', k', u', b', hport, hallows'⟩ := hs
    obtain ⟨st', hstep', hst', hacc', rfl⟩ := Part.crossPort_iff.1 hport
    have hge := hfirst y j' k' st' u' b' ⟨hlt, hstep', hst', hacc'⟩ (hallows' rfl)
    obtain rfl : y = q := by omega
    exact hy

/-! ### The case and its end -/

/-- A return that does not cross is left to the cases behind (R102). -/
theorem Part.tryCross_stays (h : t.forced = true ∨ c.podHeld t.pod = true ∨ c.ctl.mode ≠ .normal ∨ (∃ i, t.pod = .foreign i) ∨
    ∃ n rc, t.pod = .record n ∧ c.rec? n = some rc ∧ ∀ q j k st u b, ¬c.Wants q rc j k st u b) :
    c.tryCross p t = (c, false) := by
  unfold Part.tryCross
  split
  · rfl
  · rename_i n hpod
    split
    · rfl
    · rename_i rc hrc
      refine if_pos ?_
      rcases h with hforced | hheld | hmode | ⟨i, hi⟩ | ⟨n', rc', hn, hrc', hno⟩
      · exact .inl hforced
      · rw [hpod, Part.podHeld, hrc] at hheld
        exact .inr (.inl hheld)
      · exact .inr (.inr (.inl hmode))
      · rw [hi] at hpod
        cases hpod
      · obtain rfl : n' = n := by
          rw [hn] at hpod
          cases hpod
          rfl
        obtain rfl := Option.some.inj (hrc'.symm.trans hrc)
        exact .inr (.inr (.inr (Part.crossPorts_none.2 hno)))

/-- The move that a crossing asks for (R102). -/
def Part.crossAsk (c : Part) (p q j k b kind : Nat) : Ask :=
  ⟨.cross, some (960 + p), some (960 + q), 0, kind, .step j k, none, c.expressFor j, some b, false⟩

/-- A crossing whose move is admitted serves the step that wants the record (R102). -/
theorem Part.tryCross_crosses (hpod : t.pod = .record n) (hrc : c.rec? n = some rc) (hforced : t.forced = false)
    (hheld : rc.held = false) (hmode : c.ctl.mode = .normal) (hwants : c.crossPorts rc false ≠ none)
    (hrc1 : (c.settle n).rec? n = some rc1) (hheld1 : rc1.held = false)
    (hq : (c.settle n).crossPorts rc1 true = some q) (hport : (c.settle n).crossPort q rc1 = some (j, k, u, b, s))
    (hadmit : (c.settle n).admitAsk ((c.settle n).crossAsk p q j k b rc1.kind) = .ok (d, m)) :
    c.tryCross p t = ((d.reserve n j k q m).returnTakes p m, true) := by
  have hadmit' : (c.settle n).admitAsk ⟨.cross, some (posOf p), some (posOf q), 0, rc1.kind, .step j k, none,
      (c.settle n).expressFor j, some b, false⟩ = .ok (d, m) := hadmit
  unfold Part.tryCross
  rw [hpod]
  dsimp only
  rw [hrc]
  dsimp only
  rw [if_neg (by simp [hforced, hheld, hmode, hwants]), hrc1]
  dsimp only
  rw [hheld1, if_neg (by simp), hq]
  dsimp only
  rw [hport]
  dsimp only
  rw [hadmit']

/-- A settlement that leaves no hold has set none (R52). -/
theorem Part.settle_unheld (h : c.rec? n = some rc) (h1 : (c.settle n).rec? n = some rc1) (hheld : rc1.held = false) :
    c.RecOnly (c.settle n) n rc1 [] := by
  have haccrued : c.RecOnly (c.accrueRec n) n _ [] := Part.updRec_only _ h
  have hset : c.settle n = (c.accrueRec n).threshold n false := rfl
  rw [hset] at h1 ⊢
  unfold Part.threshold at h1 ⊢
  rw [haccrued.self] at h1 ⊢
  dsimp only at h1 ⊢
  split
  · rename_i hhold
    rw [if_pos hhold, Part.addHold_rec _ haccrued.self] at h1
    cases h1
    simp [Rec.withHold, Rec.holds, Rec.setHold, Rec.held, hhold.2] at hheld
  · rename_i hhold
    rw [if_neg hhold, if_neg (by simp)] at h1
    rw [if_neg (by simp)]
    cases Option.some.inj (haccrued.self.symm.trans h1)
    exact haccrued

/-- What a crossing serves: the return has its move, the reticle is RESERVED for the step, and its READY has left the window
(R102). -/
theorem Part.crossing_serves {o : List Subject} (hs : c.sound) (ht : (c.port p).ret = some t)
    (hset : c.RecOnly (c.settle n) n rc1 o) (hstep : (c.settle n).readyStep q = some (j, k, st, rc1.id, u, b))
    (hadmit : (c.settle n).admitAsk ((c.settle n).crossAsk p q j k b rc1.kind) = .ok (d, m)) :
    (d.reserve n j k q m).Takes ((d.reserve n j k q m).returnTakes p m) p t m ∧ (d.reserve n j k q m).mv = d.mv ∧
    (d.reserve n j k q m).rec? n = some { rc1 with state := .reserved, job := some (j, k) } ∧
    ((d.reserve n j k q m).port q).window = (c.port q).window.tail ∧
    ∃ y, (d.reserve n j k q m).job? j = some y ∧ y.steps[k]? = some (st.reservedBy m) := by
  have hd : d.sound := kept_sound.admitAsk (kept_sound.settle hs) hadmit
  obtain ⟨hinv, hjobs⟩ := Part.admitAsk_frame hadmit nofun
  have hport : ∀ y, d.port y = c.port y := Part.port_of_ports (by rw [hjobs, hset.jobs_eq])
  obtain ⟨-, -, -, -, -, -, ⟨r, hr, hhead⟩, -, -⟩ := Part.readyStep_iff.1 hstep
  have hdr : d.job? j = some r := (Part.job_of_jobs (by rw [hjobs]) j).trans hr
  obtain ⟨hmv, hrec, hports, hjob⟩ := Part.reserve_spec (p := q) (m := m) hd
    ((Part.rec_of_inv hinv n).trans hset.self) hdr (Job.head_step hhead)
  have hret : ((d.reserve n j k q m).port p).ret = some t := by
    rw [hports, hport, hport]
    split
    · rename_i e
      rw [← e, ← ht]
    · exact ht
  exact ⟨Part.returnTakes_takes (kept_sound.reserve hd) hret m, hmv, hrec, by rw [hports, if_pos rfl, hport], _, hjob,
    Job.set_step _ (Job.head_step hhead)⟩

end Sys2Proof.Machine
end

section
/-! SUPPORT. The store case and the directed case of a return (R103, R104). -/

namespace Sys2Proof.Machine

variable {c d : Part} {p j k : Nat} {t : PortReturn} {r : Job} {st : Step} {m : Move} {dst : Dest} {ex : Option RetId}

/-! ### Which case applies -/

theorem Part.handleReturn_none (h : (c.port p).ret = none) : c.handleReturn p = c := by
  unfold Part.handleReturn
  rw [h]

theorem Part.handleReturn_rests (h : (c.port p).ret = some t) (hrest : c.returnRests p t = true) : c.handleReturn p = c := by
  unfold Part.handleReturn
  rw [h]
  exact if_pos hrest

theorem Part.handleReturn_crosses (h : (c.port p).ret = some t) (hrest : c.returnRests p t = false)
    (hcross : c.tryCross p t = (d, true)) : c.handleReturn p = d := by
  unfold Part.handleReturn
  rw [h]
  dsimp only
  rw [hrest, hcross]
  rfl

/-- A return that does not cross is stored, or goes where its DIRECTED port sends it (R101). -/
theorem Part.handleReturn_stays (h : (c.port p).ret = some t) (hrest : c.returnRests p t = false)
    (hcross : c.tryCross p t = (c, false)) : c.handleReturn p =
      if t.forced = true ∨ c.podHeld t.pod = true ∨ (c.portCfg p).directed = false then c.storeReturn p t
      else c.directedReturn p t := by
  unfold Part.handleReturn
  rw [h]
  dsimp only
  rw [hrest, hcross]
  rfl

theorem Part.returnRests_false : c.returnRests p t = false ↔
    t.move = none ∧ (c.port p).masked = false ∧ c.suspended p = false ∧ c.ctl.mode.admits = true := by
  simp [Part.returnRests, and_assoc]

theorem Part.returnRests_true : c.returnRests p t = true ↔
    t.move ≠ none ∨ (c.port p).masked = true ∨ c.suspended p = true ∨ c.ctl.mode.admits = false := by
  simp [Part.returnRests, or_assoc, Option.isSome_iff_ne_none]

theorem Mode.admits_moved {w : Mode} (h : w.admits = true) (hno : w ≠ .standalone) : w = .normal ∨ w = .maintenance := by
  cases w <;> simp_all [Mode.admits]

/-! ### Storage -/

/-- The move that takes a return from its port to a slot, the one named or one to be chosen (R103, R104). -/
def Part.returnAsk (c : Part) (p : Nat) (t : PortReturn) (o : Owner) (slot : Option Nat) (x : Bool) : Ask :=
  ⟨.store, some (960 + p), slot, (c.portCfg p).column, c.foreignKind (960 + p), o, none, x, none, t.forced⟩

/-- A move asked for a return: admitted, or NO_SLOT said once, or nothing done (R103, R104). -/
def Part.returnAsked (c : Part) (p : Nat) (t : PortReturn) (q : Ask) (go : Part → Move → Part) : Part :=
  match c.admitAsk q with
  | .ok (d, m) => go d m
  | .error .noSlot => c.sayNoSlot p t
  | .error _ => c

theorem Part.returnAsked_ok {q : Ask} {go : Part → Move → Part} (h : c.admitAsk q = .ok (d, m)) :
    c.returnAsked p t q go = go d m := by
  unfold Part.returnAsked
  rw [h]

theorem Part.returnAsked_noSlot {q : Ask} {go : Part → Move → Part} (h : c.admitAsk q = .error .noSlot) :
    c.returnAsked p t q go = c.sayNoSlot p t := by
  unfold Part.returnAsked
  rw [h]

theorem Part.returnAsked_refused {q : Ask} {go : Part → Move → Part} {x : Result} (h : c.admitAsk q = .error x)
    (hx : x ≠ .noSlot) : c.returnAsked p t q go = c := by
  unfold Part.returnAsked
  split
  · rename_i e
    rw [h] at e
    cases e
  · rename_i e
    rw [h] at e
    exact absurd (Except.error.inj e) hx
  · rfl

theorem Part.storeReturn_standalone (h : c.ctl.mode = .standalone) : c.storeReturn p t = c.sayWaiting p t := by
  unfold Part.storeReturn
  rw [h]

theorem Part.storeReturn_eq (h : c.ctl.mode.admits = true) (hno : c.ctl.mode ≠ .standalone) : c.storeReturn p t =
    c.returnAsked p t (c.returnAsk p t (.portReturn p) none false) (·.returnTakes p ·) := by
  unfold Part.storeReturn
  rcases Mode.admits_moved h hno with e | e <;> rw [e] <;> rfl

/-! ### The directed case -/

theorem Part.directedReturn_idle
    (h : ∀ j r, (c.port p).active = some j → c.job? j = some r → r.kind = .deliver) : c.directedReturn p t = c := by
  unfold Part.directedReturn
  dsimp only
  split
  · rfl
  · rename_i j r hact
    obtain ⟨i, hi, hj⟩ := Option.bind_eq_some_iff.1 hact
    obtain ⟨x, hx, hxe⟩ := Option.map_eq_some_iff.1 hj
    obtain ⟨rfl, rfl⟩ := Prod.mk.inj hxe
    exact if_pos (h _ _ hi hx)

theorem Part.directedReturn_standalone (h : c.ctl.mode = .standalone) : c.directedReturn p t = c := by
  unfold Part.directedReturn
  dsimp only
  split
  · rfl
  · split
    · rfl
    · exact if_pos (by simp [h])

/-- The record of the pod that returns, if it has one. -/
def PortReturn.reticle (t : PortReturn) : Option Nat :=
  match t.pod with
  | .record n => some n
  | .foreign _ => none

/-- The destination that a return step names. -/
def Part.namedSlot : Dest → Option Nat
  | .slot s => some s
  | .any => none

/-- A return step whose move is under way (R104). -/
def Step.movedBy (st : Step) (m : Move) : Step := { st with state := .moving, move := some m.num }

/-- The head step of the active RETURN job is tested and takes the pod, or ends (R104). -/
theorem Part.directedReturn_step (hadmits : c.ctl.mode.admits = true) (hmode : c.ctl.mode ≠ .standalone)
    (hact : (c.port p).active = some j) (hr : c.job? j = some r) (hkind : r.kind = .ret) (hhead : r.head = some (k, st))
    (hst : st.state = .pending) (hwork : st.work = .ret dst ex) :
    c.directedReturn p t = match c.returnTests p t dst ex with
      | some res => c.endStep j k res t.reticle true
      | none => c.returnAsked p t (c.returnAsk p t (.step j k) (Part.namedSlot dst) (c.expressFor j)) fun d m =>
        (d.setStep j k (·.movedBy m)).returnTakes p m := by
  have hwhich : ¬(c.ctl.mode ≠ .normal ∧ c.ctl.mode ≠ .maintenance) := fun hno =>
    (Mode.admits_moved hadmits hmode).elim hno.1 hno.2
  unfold Part.directedReturn
  rw [hact, Option.bind_some, hr, Option.map_some]
  dsimp only
  rw [if_neg (by simp [hkind]), if_neg hwhich, hhead]
  dsimp only
  rw [hst, hwork]
  rfl

/-! ### Its tests -/

theorem Part.mem_placements {l : Nat} : l ∈ c.placements ↔ ∃ m ∈ c.mv.moves, m.kind ≠ .scan ∧ m.dst = some l := by
  simp [Part.placements, List.mem_filterMap, and_assoc]

/-- The step expects another ID than that of the pod (R104). -/
def Part.expectsOther (c : Part) (t : PortReturn) (ex : Option RetId) : Prop :=
  ∃ x, ex = some x ∧ ∀ n q, t.reticle = some n → c.rec? n = some q → q.id ≠ x

/-- The slot that the step names does not take the pod (R104). -/
def Part.slotTaken (c : Part) (p : Nat) (t : PortReturn) (dst : Dest) : Prop :=
  ∃ s, dst = .slot s ∧ ¬(s < 960 ∧ c.eligibleDst s (c.kindOf t.reticle (c.foreignKind (960 + p))) = true ∧
    ∀ m ∈ c.mv.moves, m.kind ≠ .scan → m.dst ≠ some s)

/-- The tests of a return step, through the record of its pod (R104). -/
theorem Part.returnTests_eq : c.returnTests p t dst ex =
    if (match ex with
      | some x => !((t.reticle.bind c.rec?).any fun r => decide (r.id = x))
      | none => false) = true then some .mismatch
    else match dst with
      | .slot s => if c.eligibleDst s (c.kindOf t.reticle (c.foreignKind (960 + p))) ∧ isSlot s ∧ s ∉ c.placements then none
        else some .slotFault
      | .any => none := by
  unfold Part.returnTests Part.kindOf PortReturn.reticle posOf
  cases t.pod <;> rfl

theorem Part.expectsOther_iff : c.expectsOther t ex ↔ (match ex with
    | some x => !((t.reticle.bind c.rec?).any fun r => decide (r.id = x))
    | none => false) = true := by
  unfold Part.expectsOther
  cases ex with
  | none => simp
  | some x =>
    cases hn : t.reticle with
    | none => simp
    | some n =>
      constructor
      · rintro ⟨_, ⟨⟩, hno⟩
        cases hq : c.rec? n with
        | none => simp [hq]
        | some q => simpa [hq] using hno n q rfl hq
      · rintro hno
        refine ⟨x, rfl, ?_⟩
        rintro _ q ⟨⟩ hq
        simpa [hq] using hno

theorem Part.returnTests_other (h : c.expectsOther t ex) : c.returnTests p t dst ex = some .mismatch := by
  rw [Part.returnTests_eq]
  exact if_pos (Part.expectsOther_iff.1 h)

theorem Part.returnTests_taken (h : ¬c.expectsOther t ex) (htaken : c.slotTaken p t dst) :
    c.returnTests p t dst ex = some .slotFault := by
  obtain ⟨s, rfl, hs⟩ := htaken
  rw [Part.returnTests_eq, if_neg (mt Part.expectsOther_iff.2 h)]
  refine if_neg fun hgood => hs ⟨by simpa [isSlot] using hgood.2.1, hgood.1, fun m hm hk hd => ?_⟩
  exact hgood.2.2 (Part.mem_placements.2 ⟨m, hm, hk, hd⟩)

theorem Part.returnTests_pass (h : ¬c.expectsOther t ex) (hfree : ¬c.slotTaken p t dst) : c.returnTests p t dst ex = none := by
  rw [Part.returnTests_eq, if_neg (mt Part.expectsOther_iff.2 h)]
  cases dst with
  | any => rfl
  | slot s =>
    have hgood := not_exists.1 hfree s
    rw [not_and, Decidable.not_not] at hgood
    obtain ⟨hslot, helig, hplaced⟩ := hgood rfl
    refine if_pos ⟨helig, by simpa [isSlot] using hslot, fun hin => ?_⟩
    obtain ⟨m, hm, hk, hd⟩ := Part.mem_placements.1 hin
    exact hplaced m hm hk hd

end Sys2Proof.Machine
end

section
open Sys2Proof Sys2Proof.Machine

/-- Settles O52, by the cases of R102 to R104 in their order: the crossing (`tryCross_crosses`), storage (`storeReturn_eq`) and
the directed return (`directedReturn_step`), each of which takes its move as `Takes` says. -/
theorem returnsHandled : Obligations.ReturnsHandled := by
  intro c p hs hp d pos listed
  refine ⟨Part.handleReturn_none, fun t ht => Part.endReturn_ends hs ht,
    fun t ht hrest => Part.handleReturn_rests ht (Part.returnRests_true.2 hrest), fun t ht hmove hmask hsusp hadmits => ?_, ?_⟩
  · have hrest : c.returnRests p t = false := Part.returnRests_false.2 ⟨hmove, hmask, hsusp, hadmits⟩
    intro wants held stays ask noSlot takes
    have hheld : held ↔ c.podHeld t.pod = true := Part.podHeld_iff.symm
    have hstays : stays → d = if t.forced = true ∨ c.podHeld t.pod = true ∨ (c.portCfg p).directed = false
        then c.storeReturn p t else c.directedReturn p t := fun h =>
      Part.handleReturn_stays ht hrest (Part.tryCross_stays (h.imp_right (.imp_left hheld.1)))
    have hnoSlot : d = c.sayNoSlot p t → noSlot := fun h => ⟨fun e => h.trans (if_pos e), fun e => h.trans (if_neg (by simp [e]))⟩
    refine ⟨fun n rc q j k st u b e rc1 hpod hrc hforced hunheld hmode hany he hrc1 hheld1 hwant hallows hfirst g m hg => ?_,
      fun h hcase => ?_, fun h hforced hunheld hdirected => ?_⟩
    · subst he
      obtain ⟨q', j', k', st', u', b', hwant'⟩ := hany
      have hunset := Part.settle_unheld hrc hrc1 hheld1
      have htables : (c.settle n).tables = c.tables := ((Part.Framed.refl c).settle (n := n)).tables
      have hcfg : ∀ y, (c.settle n).portCfg y = c.portCfg y := fun y => congrArg (fun t : Tables => Store.getD PortCfg.default t.ports y) htables
      have hlimits : (c.settle n).limits = c.limits := congrArg Tables.limits htables
      have hwants : ∀ y j k st u b, (c.settle n).Wants y rc1 j k st u b ↔ wants (c.settle n) y rc1 j k st u b := by
        intro y j k st u b
        unfold Part.Wants
        rw [hcfg]
      have hw := (hwants ..).2 hwant
      have ⟨_, hstep, hst, hacc⟩ := hw
      have hd : d = (g.reserve n j k q m).returnTakes p m :=
        Part.handleReturn_crosses ht hrest (Part.tryCross_crosses hpod hrc hforced hunheld hmode
          (fun hnone => Part.crossPorts_none.1 hnone q' j' k' st' u' b' hwant') hrc1 hheld1
          (Part.crossPorts_chosen hw (hlimits ▸ hallows)
            fun y j k st u b hw ha => hfirst y j k st u b ((hwants ..).1 hw) (hlimits ▸ ha))
          (Part.crossPort_iff.2 ⟨st, hstep, hst, hacc, rfl⟩) hg)
      obtain ⟨htakes, hmv, hrec, hwindow, y, hy, hstepy⟩ := Part.crossing_serves hs ht hunset hstep hg
      rw [← hd] at htakes
      exact ⟨⟨htakes.mv.trans hmv, htakes.served, htakes.ret⟩, (htakes.rec_eq n).trans hrec,
        fun hne => by rw [htakes.others q hne, hwindow], y, (htakes.job_eq j).trans hy, hstepy⟩
    · have hd : d = c.storeReturn p t := (hstays h).trans (if_pos (hcase.imp_right (.imp_left hheld.1)))
      refine ⟨fun hmode => ?_, fun hmode => ?_⟩
      · rw [hd, Part.storeReturn_standalone hmode]
        exact ⟨fun e => if_pos e, fun e => if_neg (by simp [e])⟩
      have heq := hd.trans (Part.storeReturn_eq hadmits hmode)
      have hask : c.returnAsk p t (.portReturn p) none false = ask (.portReturn p) none false := rfl
      rw [hask] at heq
      refine ⟨fun g m hg => ?_, fun hno => hnoSlot (heq.trans (Part.returnAsked_noSlot hno)),
        fun x hx hne => heq.trans (Part.returnAsked_refused hx hne)⟩
      have hret : (g.port p).ret = some t := by
        rw [← ht]
        exact congrArg Port.ret (Part.port_of_ports (by rw [(Part.admitAsk_frame hg nofun).2]) p)
      have htakes := Part.returnTakes_takes (kept_sound.admitAsk hs hg) hret m
      rw [← heq.trans (Part.returnAsked_ok hg)] at htakes
      exact ⟨htakes.mv, htakes.served, htakes.ret⟩
    · have hd : d = c.directedReturn p t := (hstays h).trans (if_neg (by simp [hforced, mt hheld.2 hunheld, hdirected]))
      refine ⟨fun hidle => hd.trans (Part.directedReturn_idle hidle), fun hmode => hd.trans (Part.directedReturn_standalone hmode),
        fun j r k st dst ex hmode hact hr hkind hhead hst hwork => ?_⟩
      intro reticle other kind taken q
      have heq := hd.trans (Part.directedReturn_step hadmits hmode hact hr hkind hhead hst hwork)
      have hask : c.returnAsk p t (.step j k) (Part.namedSlot dst) (c.expressFor j) = q := rfl
      rw [hask] at heq
      refine ⟨fun hother => ?_, fun hsame htaken => ?_, fun hsame hfree => ?_⟩
      · rw [Part.returnTests_other hother] at heq
        exact heq
      · rw [Part.returnTests_taken hsame htaken] at heq
        exact heq
      rw [Part.returnTests_pass hsame hfree] at heq
      refine ⟨fun g m hg => ?_, fun hno => hnoSlot (heq.trans (Part.returnAsked_noSlot hno)),
        fun x hx hne => heq.trans (Part.returnAsked_refused hx hne)⟩
      have hgjobs := (Part.admitAsk_frame hg nofun).2
      have hgr : g.job? j = some r := (Part.job_of_jobs (by rw [hgjobs]) j).trans hr
      have hjob := Part.setStep_job (·.movedBy m) hgr (Job.head_step hhead)
      obtain ⟨x, hset⟩ := g.setStep_frame (j := j) (k := k) (·.movedBy m)
      have hret : ((g.setStep j k (·.movedBy m)).port p).ret = some t := by
        rw [Part.port_of_ports (Part.setStep_ports _) p, ← ht]
        exact congrArg Port.ret (Part.port_of_ports (by rw [hgjobs]) p)
      have htakes := Part.returnTakes_takes (kept_sound.setStep (kept_sound.admitAsk hs hg)) hret m
      rw [← heq.trans (Part.returnAsked_ok hg)] at htakes
      exact ⟨⟨htakes.mv.trans (by rw [hset]), htakes.served, htakes.ret⟩, _, (htakes.job_eq j).trans hjob,
        Job.set_step _ (Job.head_step hhead)⟩
  · intro waits
    refine ⟨?_, fun q t ⟨hq, hw⟩ hbefore => ?_⟩
    · rw [Part.waitingOnce_none]
      exact ⟨fun h q t hw => h q hw.1 t hw.2, fun h q hq t hw => h q t ⟨hq, hw⟩⟩
    · have hw : c.WaitsUnsaid q t := hw
      rw [Part.waitingOnce_first hq hw fun i hi y hy => hbefore i hi y ⟨hi.trans hq, hy⟩, Part.sayWaiting,
        if_neg (by simp [hw.2.1])]
end
